-- ==== Sys2Proof/Word.lean ====
section
/-! DEFINITION. The word types of the device: a register is 32 bits (R5), memory and every layout is
counted in bytes (R572). Everything a test could show wrong lives under Sys2Proof/Machine/. -/

namespace Sys2Proof

/-- A register of the device: 32 bits (R5). -/
abbrev Word := BitVec 32

/-- One byte of a memory or of a laid-out record (R572). -/
abbrev Byte := BitVec 8

/-- The all-ones 32-bit value. -/
def Word.ones : Word := 0xFFFFFFFF

end Sys2Proof
end

