-- ==== Sys2Proof/Syntax.lean ====
section
/-! DEFINITION. The commands the block takes from outside and the events that change its state: one constructor of
`Instr` for each row of spec/opcode_table.json, with the row's operands. The table gives no row any bits. -/

namespace Sys2Proof

/-- The five firmware processors (Table 18.1), in PROC order. -/
inductive Proc where
  | mgt | sec | fab | sto | cmd
  deriving DecidableEq, Repr

/-- Who makes a register access or a doorbell write (R425, R446): host function `f`, always in the N world for
registers, or a firmware processor, always in the S world; `onHost` says that the processor acts on a host's request
(R11). Log entry 68 (DESIGN CHOICE). -/
inductive Src where
  | fn (f : Fin 64)
  | fw (p : Proc) (onHost : Bool)
  deriving DecidableEq, Repr

/-- A host access through BAR4 (R432): a read of so many bytes, or a write of bytes. -/
inductive HostAccess where
  | read (len : Nat)
  | write (data : List Byte)
  deriving DecidableEq, Repr


/-- An error that faulty hardware adds to one column of one vector of a beat: column 512 is the check lane. The value is
(−1)^neg · m · 2^e. -/
structure ColFault where
  vec : Nat
  col : Nat
  neg : Bool
  m : Nat
  e : Int
  deriving DecidableEq, Repr

/-- The flash that start-up finds on one NAND channel (R404, R405): targets in use and whether some were left unused, LUNs
per target, blocks per LUN, pages per block in pseudo-SLC mode, the highest of 3,600, 2,400 and 1,600 MT/s or of the
requested rate at which it trains (0: none), and its factory-marked blocks. -/
structure FlashChan where
  fitted : Bool
  targets : Nat
  someLeft : Bool
  luns : Nat
  blocks : Nat
  pages : Nat
  best : Nat
  factory : List Nat
  deriving DecidableEq, Repr

/-- What a spare pulls from the holder of its buddy copy (R418): the holder cannot be reached, holds no valid generation of
the step, or returns its MAPDIG and data. -/
inductive Pull where
  | unreachable
  | absent
  | data (mapDig : List Byte) (bytes : List Byte)
  deriving DecidableEq, Repr

/-- What a start-up finds and what its firmware chooses (chapter 20): the NOR answers SFDP with a permitted capacity; the modules
that each UCIe link trains, by 4·router + link; every HBM stack trains; every shared-cache slice can be covered
by its spare rows; every HBM stack has the row repairs it needs; the repairs that BIST finds, as engine, column or row, spare and logical index; engines and cores that
it finds not repairable; the passing lanes of each torus port, or none while it still trains; the flash of each NAND channel;
where MGT puts the ring of the host mailbox (in host memory, address); the descriptors from 48 that hold firmware's regions, as
their two words; and the addresses of the lantern rings. -/
structure StartIn where
  norOk : Bool
  mods : List Nat
  hbmOk : Bool
  slicesOk : Bool
  rowsOk : Bool
  repairs : List (Nat × Bool × Nat × Nat)
  engBad : List Nat
  coreBad : List Nat
  ports : List (Option Nat)
  flash : List FlashChan
  mailbox : Bool × Nat
  regions : List (Nat × Nat)
  rings : List Nat
  deriving DecidableEq, Repr

/-- An error that a cycle meets in a store of a cluster (R287): the first core's store, the second's or the cluster store;
the 64-byte granule; and whether it is uncorrectable. -/
structure StoreErr where
  store : Fin 3
  granule : Fin 524288
  bad : Bool
  deriving DecidableEq, Repr

/-- An operation of the TAP (R463, R560): the identification register, the bypass register with the bits shifted in,
boundary scan of so many cells, or the debug of processors and scan chains. -/
inductive TapOp where
  | idcode
  | bypass (data : List Bool)
  | boundary (cells : Nat)
  | debug
  deriving DecidableEq, Repr

/-- Who sends SEC an SPDM request (R457): the host by the PF's DOE mailbox, the board by MCTP over I3C, or the SEC of device
`d` in SEC_MGMT messages. -/
inductive SpdmVia where
  | doe
  | mctp
  | device (d : Fin 32768)
  deriving DecidableEq, Repr


/-- The commands and events of the device: one constructor for each row of the table of operations.
Log entry 9 (DESIGN CHOICE). -/
inductive Instr where
  /-- REGISTER_WRITE (R13). A write to a register that has no row of its own is applied in arrival order, and each field acts under its access code. -/
  | registerWrite (src : Src) (off : Nat) (v : Word)
  /-- NARROW_WRITE (R425). A host write narrower than 32 bits or not aligned to 4 bytes has no effect, sets HIF_ERR.NARROW and records the offset. -/
  | narrowWrite (src : Src) (off : Nat)
  /-- EXPERT_REGISTER_WRITE (R11). A host write to an expert register sets the function's EXPERT_HELD bit and stops firmware adaptation. -/
  | expertRegisterWrite (src : Src) (off : Nat) (v : Word)
  /-- EXPERT_HELD_CLEAR (R11). Writing 1 to an EXPERT_HELD bit clears it and reloads the expert registers from the table of the current basic setting. -/
  | expertHeldClear (src : Src) (off : Nat) (b : Fin 32)
  /-- ME_FILL (R75). A write to the filler basic control loads GAP_THR, RAMP and PROFILE and clears FILL_HELD. -/
  | meFill (src : Src) (e : Fin 32) (v : Word)
  /-- ME_CHK (R75). A write to the check basic control loads SUSPECT_LIM and TOL_SHIFT and clears CHK_HELD. -/
  | meChk (src : Src) (e : Fin 32) (v : Word)
  /-- DR_TALLY (R138). A write to the tally basic control loads DR_TALLY_X and clears TALLY_HELD. -/
  | drTally (src : Src) (e : Fin 32) (v : Word)
  /-- CO_NUM (R160). A write to the numeric policy loads CO_NUM_X from Table 5.5 and clears NUM_HELD. -/
  | coNum (src : Src) (n : Fin 16) (v : Word)
  /-- CMD_NUMW (R163). A write to the watch level loads CMD_NUMW_X from Table 5.8 and clears WATCH_HELD. -/
  | cmdNumw (src : Src) (v : Word)
  /-- CO_CNT (R201). A write to the counter level loads CO_CNT_X from Table 6.10 and clears CNT_HELD. -/
  | coCnt (src : Src) (n : Fin 16) (v : Word)
  /-- CMD_STRIKE (R202). A write to the strike basic control loads DRAIN_US by STRIKE_MODE and clears STRIKE_HELD. -/
  | cmdStrike (src : Src) (v : Word)
  /-- CMD_SVC (R202). A write to the service-mode watch control loads STALL_MS = 1 and clears SVC_HELD. -/
  | cmdSvc (src : Src) (v : Word)
  /-- MD_SC (R309). A write to the shared-cache partition control loads POOL_MIB from SC_PROFILE and clears SC_HELD. -/
  | mdSc (src : Src) (m : Fin 4) (v : Word)
  /-- CL_POOL (R309). A write to the cluster-store pool control loads CL_POOL_MIB and clears CLP_HELD. -/
  | clPool (src : Src) (k : Fin 8) (v : Word)
  /-- MD_PF (R309). A write to the prefetch control loads the three prefetch enables from PF_EN and clears PF_HELD. -/
  | mdPf (src : Src) (m : Fin 4) (v : Word)
  /-- HBM_SCRUB (R310). A write to the scrub control loads SCRUB_H = 24 and clears SCRUB_HELD. -/
  | hbmScrub (src : Src) (h : Fin 8) (v : Word)
  /-- CL_NET (R329). A write to the router arbitration control loads CL_NET_X from Table 11.6 and clears NET_HELD. -/
  | clNet (src : Src) (k : Fin 8) (v : Word)
  /-- MD_MERGE (R329). A write to the merge control loads WINDOW from MERGE_EN and clears MERGE_HELD. -/
  | mdMerge (src : Src) (m : Fin 4) (v : Word)
  /-- IKF_ARB (R353). A write to the fabric arbitration control loads IKF_ARB_X from Table 12.7 and clears ARB_HELD. -/
  | ikfArb (src : Src) (v : Word)
  /-- IKF_RTO (R353). A write to the request timeout control loads TICKS from RTO_LEVEL and clears RTO_HELD. -/
  | ikfRto (src : Src) (v : Word)
  /-- IKF_DEG (R353). A write to the lane-degradation control loads SYM_LIM from DEG_POLICY and clears DEG_HELD. -/
  | ikfDeg (src : Src) (v : Word)
  /-- IKF_RED (R377). A write to the reduction policy loads the deadline and stall registers from Table 13.6 and clears RED_HELD. -/
  | ikfRed (src : Src) (v : Word)
  /-- CMD_BAR (R402). A write to the barrier level loads BAR_MS from Table 14.8 and clears BAR_HELD. -/
  | cmdBar (src : Src) (v : Word)
  /-- STO_CKPT (R421). A write to the checkpoint interval policy loads STO_CKPT_X and clears CK_HELD. -/
  | stoCkpt (src : Src) (v : Word)
  /-- STO_SCRUB (R421). A write to the retention scrub control loads SCRUB_D and REFRESH_LVL and clears SCRUB_HELD. -/
  | stoScrub (src : Src) (v : Word)
  /-- NAND_IF (R422). A write to the NAND rate profile loads MTS and clears RATE_HELD. -/
  | nandIf (src : Src) (v : Word)
  /-- HIF_AGE (R445). A write to the aging profile loads AGE_TICKS and clears AGE_HELD. -/
  | hifAge (src : Src) (v : Word)
  /-- SEC_WV (R464). An S-world write to the violation-reporting control loads EVT_EN and clears WV_HELD. -/
  | secWv (src : Src) (v : Word)
  /-- BC_FW_WD (R487). An S-world write to the watchdog profile loads WD_MS and CRASH_LIM from Table 18.9 and clears WD_HELD. -/
  | bcFwWd (src : Src) (v : Word)
  /-- LNT_LVL (R489). A write to a processor's trace level loads its LNT_MASK and clears LNT_HELD. -/
  | lntLvl (src : Src) (p : Proc) (v : Word)
  /-- BC_PWR (R504). A write to the power profile loads BC_PWR_X from Table 19.5, writes the factory V/F points and clears PWR_HELD. -/
  | bcPwr (src : Src) (v : Word)
  /-- BC_SLEEP (R506). A write to the sleep policy loads BC_SLEEP_X from Table 19.6 and clears SLEEP_HELD. -/
  | bcSleep (src : Src) (v : Word)
  /-- BC_BOOT (R527). An S-world write to the boot level loads BC_BOOT_X from Table 20.8 and clears BOOT_HELD. -/
  | bcBoot (src : Src) (v : Word)
  /-- CMD_FLT (R543). A write to the fault policy loads CMD_FLT_X from Table 21.5 and clears FLT_HELD. -/
  | cmdFlt (src : Src) (v : Word)
  /-- CLR_CYC (R75). Writing 1 to ME_CNT_CLR.CLR_CYC clears the engine's three cycle counters. -/
  | clrCyc (src : Src) (e : Fin 32)
  /-- CLR_CHK (R75). Writing 1 to ME_CNT_CLR.CLR_CHK clears ME_CHK_CNT. -/
  | clrChk (src : Src) (e : Fin 32)
  /-- DR_CNT_CLR (R138). Writing 1 clears the drain's three cycle counters. -/
  | drCntClr (src : Src) (e : Fin 32)
  /-- VE_CNT_CLR (R139). Writing 1 clears the vector engine's three cycle counters. -/
  | veCntClr (src : Src) (n : Fin 16)
  /-- CO_NUM_CLR (R162). Writing 1 clears CO_CYC_SCWAIT and CO_RESCALE_CNT. -/
  | coNumClr (src : Src) (n : Fin 16)
  /-- CO_CNT_CLR (R201). Writing 1 clears every station, queue and fetch counter of the core and CO_DISCARD. -/
  | coCntClr (src : Src) (n : Fin 16)
  /-- MD_CNT_CLR (R309). Writing 1 clears the MD_ counters. -/
  | mdCntClr (src : Src) (m : Fin 4)
  /-- HBM_CNT_CLR (R310). Writing 1 clears the HBM_ counters of the stack. -/
  | hbmCntClr (src : Src) (h : Fin 8)
  /-- CL_NET_CLR (R329). Writing 1 clears the router's retry, discard and bad-packet counters. -/
  | clNetClr (src : Src) (k : Fin 8)
  /-- IKF_CLR (R353). Writing 1 clears the fabric device counters and every port's counters. -/
  | ikfClr (src : Src)
  /-- IKF_PCLR (R354). Writing 1 clears one port's counters. -/
  | ikfPclr (src : Src) (p : Fin 6)
  /-- IKF_RED_CLR (R377). Writing 1 clears the reduction counters from IKF_RED_LATE to IKF_RED_LOGP. -/
  | ikfRedClr (src : Src)
  /-- STO_CLR (R421). Writing 1 clears STO_CKCNT, STO_STALL and STO_BAD.GROWN. -/
  | stoClr (src : Src)
  /-- NAND_CLR (R422). Writing 1 clears every NAND channel's counters. -/
  | nandClr (src : Src)
  /-- SEC_WV_CLR (R464). Writing 1 clears SEC_WV_CNT. -/
  | secWvClr (src : Src)
  /-- BC_LK_CLR (R509). Writing 1 clears BC_LK_CNT. -/
  | bcLkClr (src : Src)
  /-- CMD_FLT_CLR (R543). Writing 1 clears CMD_FLT_SR and CMD_FLT_FEN. -/
  | cmdFltClr (src : Src)
  /-- CL_ECC_CLR (R544). Writing 1 clears the cluster's ECC counters. -/
  | clEccClr (src : Src) (k : Fin 8)
  /-- BC_LCNT_LO (R508). Reading the low word returns local counter bits [31:0] and latches bits [63:32] into BC_LCNT_HI for the reader's world. -/
  | bcLcntLo (src : Src)
  /-- BC_ENERGY_LO (R508). Reading the low energy word latches the high word. -/
  | bcEnergyLo (src : Src)
  /-- BC_RAIL_PEAK_READ (R509). Reading BC_RAILd returns the rail current and clears its PEAK field. -/
  | bcRailPeakRead (src : Src) (d : Fin 4)
  /-- ME_REP (R66). An S-world write to a repair entry takes effect only before READY or while the core is fenced, and otherwise sets REP_REJ. -/
  | meRep (src : Src) (e : Fin 32) (col : Bool) (w : Fin 8) (v : Word)
  /-- IKF_MAP (R352). An S-world write to a remap entry takes effect only while LOCK is 0, and otherwise sets MAP_REJ. -/
  | ikfMap (src : Src) (e : Fin 256) (v : Word)
  /-- SEC_WORLD_CORE (R448). A world change of a core zeroes its state, increments its wake epoch, or is refused with SEC_ERR.BUSY while a section is bound. -/
  | secWorldCore (src : Src) (v : Word)
  /-- SEC_WORLD_CL (R448). A world change of a cluster store zeroes it and increments both cores' wake epochs, or is refused while a section is bound. -/
  | secWorldCl (src : Src) (v : Word)
  /-- SEC_REG (R449). A write to a region descriptor stops new accesses to the region and starts its zeroing under the new world's key. -/
  | secReg (src : Src) (i : Fin 64) (hi : Bool) (v : Word)
  /-- REGION_ZEROING_DONE (R449). When zeroing ends, the new world takes effect on all four dies in one cycle and the waiting accesses proceed. -/
  | regionZeroingDone (i : Fin 64)
  /-- SEC_DBG (R463). A write of JTAG_MODE is accepted, or is refused with DBG_REJ when mode 2 meets the S world. -/
  | secDbg (src : Src) (v : Word)
  /-- BC_FW_KICK (R467). A processor writing its own bit restarts its watchdog. -/
  | bcFwKick (src : Src) (v : Word)
  /-- WAKE (R495). Writing 1 to BC_CLk.WAKE requests that the cluster leave bivouac. -/
  | wake (src : Src) (k : Fin 8)
  /-- EVG_TAKE (R485). Writing a pending, enabled, inactive source makes it the innermost active source and moves its count to EVG_RUN. -/
  | evgTake (src : Src) (p : Proc) (v : Word)
  /-- EVG_EOI (R485). Writing the innermost active source ends it, and any other value sets EOI_ERR. -/
  | evgEoi (src : Src) (p : Proc) (v : Word)
  /-- EVG_PSET (R486). Writing 1 makes a source pending as if it had fired. -/
  | evgPset (src : Src) (p : Proc) (i : Fin 32) (v : Word)
  /-- EVG_PCLR (R486). Writing 1 clears a source's pending bit and count without taking it. -/
  | evgPclr (src : Src) (p : Proc) (i : Fin 32) (v : Word)
  /-- HIF_FN_QBASE (R433). A PF write sets a function's queue range, or has no effect and sets HIF_ERR.RANGE when the ranges conflict. -/
  | hifFnQbase (src : Src) (f : Fin 64) (v : Word)
  /-- ADM_ENABLE (R433). Writing ADM_EN = 1 activates the function's admin HSQ, HCQ and EVQ. -/
  | admEnable (src : Src) (f : Fin 64)
  /-- ADM_DISABLE (R433). Writing ADM_EN = 0 makes the admin queues inactive. -/
  | admDisable (src : Src) (f : Fin 64)
  /-- HIF_FN_MSIX (R443). A PF write sets a function's MSI-X table size, or has no effect and sets HIF_ERR.RANGE when the total exceeds 4,096. -/
  | hifFnMsix (src : Src) (f : Fin 64) (v : Word)
  /-- MSIX_UNMASK (R443). Unmasking a vector whose pending bit is set sends one MSI-X message. -/
  | msixUnmask (f : Fin 64) (vec : Nat)
  /-- DOORBELL (R431). A doorbell write sets a queue's index, is dropped for the wrong owner, world or an inactive queue, or puts the queue into error. -/
  | doorbell (src : Src) (ide : Bool) (q : Fin 32768) (ix : Nat)
  /-- BAR4_ACCESS (R432). A host access through a BAR4 window reaches HBM in the remote class, or fails with Unsupported Request and HIF_ERR.WIN. -/
  | bar4Access (f : Fin 64) (ide : Bool) (off : Nat) (acc : HostAccess)
  /-- NOP (R204). A NOP issues in one cycle, changes nothing and completes. -/
  | nop (n : Fin 16) (sl : Fin 6)
  /-- MMA (R221). MMA runs one full-mode or heritage problem on the slot's engine into PSB rows, through the drain chain in force. -/
  | mma (n : Fin 16) (sl : Fin 6)
  /-- MMQ (R225). MMQ adds one quadrant problem to a quad group, and the GEND member starts the group's fly load. -/
  | mmq (n : Fin 16) (sl : Fin 6)
  /-- SLD (R227). SLD runs a sliced-double FP64 problem on both engines and the vector engine, then writes C and its record. -/
  | sld (n : Fin 16) (sl : Fin 6)
  /-- VOP (R234). VOP applies one element-wise operation to ct(CNT) elements in chunks. -/
  | vop (n : Fin 16) (sl : Fin 6)
  /-- RDX (R237). RDX reduces segments by the fixed pairwise tree and writes one result for each segment. -/
  | rdx (n : Fin 16) (sl : Fin 6)
  /-- DRC (R231). DRC checks a chain descriptor, makes it the pending chain and starts loading its tables into the free bank. -/
  | drc (n : Fin 16) (sl : Fin 6)
  /-- DRC_TABLES_LOADED (R232). DRC completes when the pending chain's tables have been loaded. -/
  | drcTablesLoaded (e : Fin 32)
  /-- TALLY (R238). TALLY flushes one or all open tally accumulators of the drain as records. -/
  | tally (n : Fin 16) (sl : Fin 6)
  /-- SCALE_COMMIT (R145). The commit form moves open maxima into history slots and sets COMMITTED to the step. -/
  | scaleCommit (n : Fin 16) (sl : Fin 6)
  /-- SCALE_DISCARD (R145). The discard form clears the open maxima of the step without touching the history. -/
  | scaleDiscard (n : Fin 16) (sl : Fin 6)
  /-- SET_E_INIT (R239). SCALE form 2 writes an entry's E_INIT from an sc register. -/
  | setEInit (n : Fin 16) (sl : Fin 6)
  /-- SET_E_FIX (R239). SCALE form 3 writes an entry's E_FIX from an sc register. -/
  | setEFix (n : Fin 16) (sl : Fin 6)
  /-- LDT (R248). LDT reads a strided array, builds one tile and sends it on its output port after taking a credit. -/
  | ldt (n : Fin 16) (sl : Fin 6)
  /-- STT_FROM_PORT (R249). STT with SRC 0 writes the head tile of an input port to memory through a memory sink. -/
  | sttFromPort (n : Fin 16) (sl : Fin 6)
  /-- STT_FROM_IMAGE (R249). STT with SRC 1 writes a tile image held in memory through a memory sink. -/
  | sttFromImage (n : Fin 16) (sl : Fin 6)
  /-- STT_FROM_DRAIN (R249). STT with SRC 2 claims the drain's next released tile and writes it through a memory sink. -/
  | sttFromDrain (n : Fin 16) (sl : Fin 6)
  /-- SND (R250). SND sends the tile image at ad(AD) on an output port after taking a credit. -/
  | snd (n : Fin 16) (sl : Fin 6)
  /-- RCV_COPY (R251). RCV with OP 0 copies the head tile to memory and frees its slot. -/
  | rcvCopy (n : Fin 16) (sl : Fin 6)
  /-- RCV_DISCARD (R251). RCV with OP 1 discards the head tile and frees its slot. -/
  | rcvDiscard (n : Fin 16) (sl : Fin 6)
  /-- PUT (R252). PUT copies LEN bytes from a local address to a local or remote address. -/
  | put (n : Fin 16) (sl : Fin 6)
  /-- GET (R252). GET copies LEN bytes from a local or remote address to a local address. -/
  | get (n : Fin 16) (sl : Fin 6)
  /-- SCT (R253). SCT writes each valid row of an input tile to an indexed address. -/
  | sct (n : Fin 16) (sl : Fin 6)
  /-- ATM (R255). ATM performs an atomic operation on a word in the shared-cache slice that holds it. -/
  | atm (n : Fin 16) (sl : Fin 6)
  /-- GAT (R257). GAT requests a shard's working copy from its owner with an expected epoch. -/
  | gat (n : Fin 16) (sl : Fin 6)
  /-- CHN (R259). CHN hands the device's contribution for one bucket to a reduction channel. -/
  | chn (n : Fin 16) (sl : Fin 6)
  /-- PRM_RECEIVE (R260). PRM with OP 0 waits for the owner's segment, divides it by the present count and writes its record. -/
  | prmReceive (n : Fin 16) (sl : Fin 6)
  /-- PRM_COMMIT (R260). PRM with OP 1 commits epoch s on every homed shard, or raises SHARD_EPOCH. -/
  | prmCommit (n : Fin 16) (sl : Fin 6)
  /-- UPD (R261). UPD applies the long-master update to a shard, switches banks, sets its epoch and clears its lock. -/
  | upd (n : Fin 16) (sl : Fin 6)
  /-- LOOP (R262). LOOP repeats the next BODY instructions a counted number of times. -/
  | loop (n : Fin 16) (sl : Fin 6)
  /-- HOLD (R263). HOLD passes when earlier movement and collective instructions of the masked slots have completed. -/
  | hold (n : Fin 16) (sl : Fin 6)
  /-- WAIT (R264). WAIT stops its context until a done count or a memory word meets its condition. -/
  | wait (n : Fin 16) (sl : Fin 6)
  /-- PEG_SEND (R266). PEG with OP 0 sends a peg on a peg port after taking a credit. -/
  | pegSend (n : Fin 16) (sl : Fin 6)
  /-- PEG_TAKE (R266). PEG with OP 1 takes the head peg and loads its value into a ct register. -/
  | pegTake (n : Fin 16) (sl : Fin 6)
  /-- STEER (R267). STEER pairs data tiles with pegs and sends each tile to the outputs its peg names. -/
  | steer (n : Fin 16) (sl : Fin 6)
  /-- FENCE (R268). FENCE stops its context until every earlier instruction in its scope has completed. -/
  | fence (n : Fin 16) (sl : Fin 6)
  /-- BEAT_ISSUE (R37). The engine issues a beat onto the ridge at the pace of Table 2.1. -/
  | beatIssue (e : Fin 32)
  /-- BEAT_CHECK (R55). In stage 6 the check comparator judges a beat, and its PSB writes commit when every vector passes. -/
  | beatCheck (e : Fin 32) (faults : List ColFault) (adder : Bool)
  /-- FLY_LOAD_START (R46). The fly loader starts loading a weight tile once every bound engine of the core has released its fly plane. -/
  | flyLoadStart (n : Fin 16)
  /-- FLY_LOAD_DONE (R45). The last rows of a tile are written, and the engine may swap to the new plane. -/
  | flyLoadDone (n : Fin 16)
  /-- FILLER_BEAT (R69). The filler fills an idle ridge slot of a gap shorter than GAP_THR with a filler beat. -/
  | fillerBeat (e : Fin 32)
  /-- FILLER_RAMP_DOWN (R70). A gap reaching GAP_THR cycles starts the filler density's fall to zero. -/
  | fillerRampDown (e : Fin 32)
  /-- FILLER_RAMP_STEP (R70). Each step of a filler ramp changes the density by its profile. -/
  | fillerRampStep (e : Fin 32)
  /-- PSB_ROW_READ (R109). The drain reads one finished PSB row into its chain. -/
  | psbRowRead (e : Fin 32)
  /-- CHAIN_TAKES_EFFECT (R114). A pending chain takes effect once every tile under the previous chain has been released, and the cursor resets. -/
  | chainTakesEffect (e : Fin 32)
  /-- TILE_RELEASE (R128). A finished drain tile is released to its stream or store, its PSB rows and side credits are freed and its slot emptied. -/
  | tileRelease (e : Fin 32)
  /-- OVERFLOW_RESCALE (R149). When an overflowing tile's last row leaves the quantise stage, the drain saturates it or raises E and recomputes it. -/
  | overflowRescale (e : Fin 32)
  /-- SCALE_DERIVE (R146). At a tensor's first tile in a step the drain waits for COMMITTED and derives E from the history. -/
  | scaleDerive (e : Fin 32)
  /-- RAW_MAX_ATOMIC (R144). A drain's raw maximum arrives at the slice as an atomic maximum on the scale entry, or is dropped as late. -/
  | rawMaxAtomic (e : Fin 32)
  /-- TALLY_RECORD_EXAMINE (R159). CMD examines each tally record against the watch conditions. -/
  | tallyRecordExamine
  /-- TILE_ARRIVAL (R171). A tile arriving at a receive queue is checked in order and enters the queue, is discarded or faults. -/
  | tileArrival (sid : Fin 65536) (corrupt : Bool)
  /-- PEG_ARRIVAL (R193). A peg arriving at a peg queue is checked for epoch and world and queued. -/
  | pegArrival (sid : Fin 65536)
  /-- CREDIT_RETURN (R173). A credit returned over the guy line raises the producer's count, or is dropped as a CREDIT fault above DEPTH. -/
  | creditReturn (sid : Fin 65536)
  /-- PITCH (R184). CMD checks a section's image and binds, loads and starts its stations. -/
  | pitch (img : Option Nat) (reds : List (Nat × Nat × List Nat))
  /-- SECTION_COMPLETE (R186). When every station has run its firings and every store is accepted, CMD strikes the section. -/
  | sectionComplete
  /-- EARLY_STRIKE (R187). An early strike stops inputs and drains the stations toward round boundaries. -/
  | earlyStrike (cut : Bool)
  /-- CUT (R190). At the drain limit, or at once when requested, stations not at a round boundary are cut back to their last snapshot. -/
  | cut
  /-- STRIKE_SAVE (R187). CMD saves round counts, snapshots, SEQ, credits, counters and tally accumulators once stores complete. -/
  | strikeSave
  /-- SECTION_STALL (R196). A service-mode section idle for the watch time is struck with a cut and SECTION_STALL is posted. -/
  | sectionStall
  /-- FETCH_ISSUE (R301). A fetch engine issues the reads of its next list entry when credit, depth, tag and strike state allow. -/
  | fetchIssue (sid : Fin 65536)
  /-- FETCH_TILE_ARRIVAL (R301). A fetched tile whose bytes have all arrived enters its queue in list order. -/
  | fetchTileArrival (sid : Fin 65536)
  /-- PATROL_SCRUB (R288). Patrol scrubbing reads, corrects and rewrites lines and bursts in idle HBM slots. -/
  | patrolScrub (hbm : Bool) (k : Fin 8) (addr : Nat) (bad : Fin 3)
  /-- PREFETCH (R296). While a section runs, the memory-side dies prefetch the next section's image, buffers and ranges. -/
  | prefetch
  /-- POOL_RESIZE (R292). A changed pool size takes effect between sections and evicts buffers until the rest fits. -/
  | poolResize
  /-- SLICE_READ (R323). A read arriving at a memory-side slice is served, or joins a pending read of the same line. -/
  | sliceRead (m : Fin 4) (core : Option (Fin 16)) (addr : Nat) (cycle : Nat) (gone : Bool) (err : Fin 3)
  /-- ATOMIC_EXECUTE (R306). An atomic arriving at a slice executes on its word after any line fill or buffer move. -/
  | atomicExecute (m : Fin 4)
  /-- PACKET_FORWARD (R318). A package router takes a packet and forwards it along its fixed route. -/
  | packetForward (k : Fin 8) (enter : Option (List Byte))
  /-- LINK_RETRY (R315). A UCIe packet that fails its CRC is resent from the failed packet onward. -/
  | linkRetry (k : Fin 8) (link : Fin 4) (twice : Bool)
  /-- MESH_RETRAIN (R316). A retrain of a UCIe link completes with the modules that trained, and MESH_RETRAIN goes to MGT. -/
  | meshRetrain (k : Fin 8) (link : Fin 4) (mods : Fin 13)
  /-- IN_NETWORK_ADD (R326). A router adds a reduction segment once it has arrived from every operand and sends the sum onward. -/
  | inNetworkAdd (k : Fin 8)
  /-- FLIT_RECEIVE (R334). A fabric receiver checks a flit and passes its packet, or sends NAK and discards until the resend. -/
  | flitReceive (p : Fin 6) (flit : List Byte) (uncorr : Bool) (cor : Nat) (hops : List (Fin 8))
  /-- NAK_RESEND (R334). A sender that receives NAK resends from the failed flit onward. -/
  | nakResend (p : Fin 6)
  /-- IDLE_FLIT (R334). A sender with nothing to send sends an idle flit so that one flit goes every 1 µs. -/
  | idleFlit (p : Fin 6)
  /-- PORT_RETRAIN (R335). A flit failing twice makes the port retrain at its current width, and the retrain completes within 50 µs. -/
  | portRetrain (p : Fin 6) (pass : Fin 65536)
  /-- LANE_FAILING (R337). A lane losing lock or exceeding SYM_LIM in a 1 ms window makes the port retrain to a narrower lane set. -/
  | laneFailing (p : Fin 6) (failing : Fin 65536)
  /-- PORT_DOWN (R338). A port with no passing lane set, a failed retrain or 10 µs without a valid flit goes down. -/
  | portDown (p : Fin 6) (failed : Bool)
  /-- FABRIC_FORWARD (R341). A fabric packet moves along X, Y then Z on the shorter way round each ring. -/
  | fabricForward (p : Fin 6)
  /-- FABRIC_PACKET_RECEIVE (R339). The destination checks an arriving packet's type, VC, length, CRCs, identity and seal, and drops it on failure. -/
  | fabricPacketReceive
  /-- READ (R345). A remote READ is served from the shared cache or HBM in the remote class. -/
  | read
  /-- WRITE (R345). A remote WRITE is applied at the target and acknowledged, or refused. -/
  | write
  /-- ATOMIC (R345). A remote ATOMIC executes in the target's slice and is answered with ATOMIC_RSP. -/
  | atomic
  /-- GATHER (R257). The owner judges a GATHER by shard, range, world, epoch and lock, then serves, holds or refuses it. -/
  | gather
  /-- READ_RSP (R345). Response data for a READ or GATHER is written locally and completes the request when all has arrived. -/
  | readRsp
  /-- WRITE_ACK (R345). A write acknowledgement completes its part of a PUT or SCT. -/
  | writeAck
  /-- ATOMIC_RSP (R345). An atomic response completes a remote ATM and writes the old value when asked. -/
  | atomicRsp
  /-- REFUSE (R254). A refusal ends the request, stops the context, logs CO_MVLOG and raises MOVE_FAULT. -/
  | refuse
  /-- GATHER_HOLD (R346). The owner's hold response stops the request timer until the data arrives. -/
  | gatherHold
  /-- GATHER_EPOCH (R257). The owner's epoch refusal stops the context, logs the owner's E and raises SHARD_EPOCH. -/
  | gatherEpoch
  /-- TILE (R347). A fabric-stream TILE packet feeds the receiving queue, or is discarded while the stream is not pitched. -/
  | tile
  /-- CREDIT (R347). A fabric CREDIT packet grants, returns or withdraws credits of a fabric stream. -/
  | credit
  /-- RED_SEG (R361). A reduction piece arriving at a rank is held, added to, forwarded, or delivered by bucket state. -/
  | redSeg
  /-- BUCKET_ISSUE (R361). A bucket issues once its CHN is accepted and the previous bucket is issued or forfeit, and it originates the rank's segment. -/
  | bucketIssue (queue : Fin 32768)
  /-- FORFEIT (R361). A bucket's deadline expiring while it is pending forfeits it and originates zeros with the rank's bit clear. -/
  | forfeit (queue : Fin 32768)
  /-- RED_SKIP (R364). A rank that still refuses after one deadline is skipped for the rest of the step. -/
  | redSkip (queue : Fin 32768) (rank : Fin 32)
  /-- RED_STALL (R372). A waiting channel with no progress for STALL_MS raises RED_STALL. -/
  | redStall (queue : Fin 32768)
  /-- REQUEST_TIMEOUT (R346). A remote request with no response for RTO ticks ends with cause UNREACHABLE. -/
  | requestTimeout
  /-- BARRIER_REPORT (R393). A ready device sends BARRIER toward the root once its children have reported, and the root decides commit. -/
  | barrierReport
  /-- BARRIER_RELEASE (R538). A replay release from the root is forwarded, the channels are armed and the schedule runs again. -/
  | barrierRelease
  /-- STEP_READY (R392). A device with no work of the step left becomes ready and starts its barrier report. -/
  | stepReady
  /-- BARRIER_TIMEOUT (R393). The root sends STEP_ABORT when BAR_MS passes after it became ready without the full count. -/
  | barrierTimeout
  /-- STEP_COMMIT (R395). On STEP_COMMIT a device commits scale tables and shards, writes CMD_COMMITTED and begins the next step. -/
  | stepCommit
  /-- STEP_ABORT (R396). On STEP_ABORT a device cuts its section, cancels fetches, discards scale maxima, restores shards and disarms channels. -/
  | stepAbort
  /-- STEP_STALL (R397). A device that reported and hears no step message within 2·BAR_MS raises STEP_STALL. -/
  | stepStall
  /-- REPLAY_TIMEOUT (R539). The root aborts with REPLAY_TIMEOUT when the replay count is short after BAR_MS. -/
  | replayTimeout
  /-- PEG_MESSAGE (R193). A PEG control message from another device enters its peg queue. -/
  | pegMessage
  /-- SECT_STRIKE (R347). A strike message from a fabric-stream peer makes CMD strike the peer section as a step-class event. -/
  | sectStrike
  /-- FAB_MGMT (R340). A management message between FAB processors is delivered to FAB. -/
  | fabMgmt
  /-- CHECKPOINT_PLAN_RECEIVE (R414). A device receives the planned checkpoint step and sets STO_PLAN. -/
  | checkpointPlanReceive
  /-- BUDDY_DONE (R415). The -Z neighbour's message ends the hold on the bank and staging area of the checkpoint. -/
  | buddyDone
  /-- SEC_MGMT (R351). A SEC_MGMT message carries key exchange and attestation between security processors. -/
  | secMgmt
  /-- CKPT_DONE (R415). When both commit headers are programmed STO posts CKPT_DONE. -/
  | ckptDone (neighbour : List Byte)
  /-- NAND_PROGRAM_FAIL (R408). A failed program or erase marks the block bad and repeats the program elsewhere. -/
  | nandProgramFail (blk : Nat) (erase : Bool)
  /-- RETENTION_SCRUB (R410). Retention scrubbing reads written blocks each period and rewrites those near their limit. -/
  | retentionScrub (blk : Nat) (cor : Nat) (need : Fin 19)
  /-- WEAR_LEVEL_MOVE (R409). STO moves data when erase counts in a region differ by more than 500. -/
  | wearLevelMove (inNative : Bool)
  /-- SNAPSHOT_COPY (R398). After step s commits, each device copies the bank of epoch s into its snapshot region. -/
  | snapshotCopy
  /-- SNAPSHOT_EXPORT (R400). Once the copy is complete the region is exported to the host or a fabric device. -/
  | snapshotExport
  /-- HSQ_FETCH (R441). CMD fetches a submission entry when its completion queue has a free slot. -/
  | hsqFetch (host : List Byte)
  /-- CREATE_Q (R435). CREATE_Q writes and activates a queue table entry after checking its fields. -/
  | createQ (sq : Nat) (cid : Nat) (host : Option (List Byte))
  /-- DELETE_Q (R435). DELETE_Q makes a queue inactive unless it is busy. -/
  | deleteQ (sq : Nat) (cid : Nat)
  /-- JOB_START (R438). JOB_START checks the data block and binds the job map, schedule, manifest and tables. -/
  | jobStart (sq : Nat) (cid : Nat) (host : Option (List Byte)) (cores : Fin 65536) (cls : Fin 256) (regs : List (Nat × Nat)) (attest : Fin 3)
  /-- STEP (R436). STEP runs the current step with its rate-table indices and completes when the step commits. -/
  | step (sq : Nat) (cid : Nat) (host : Option (List Byte))
  /-- JOB_RESTART (R418). JOB_RESTART rebinds the job map and restores the named step on each device. -/
  | jobRestart (sq : Nat) (cid : Nat) (list : Option (List Byte)) (maps : List (Fin 256 × Word)) (self : Option (Fin 32768)) (pull : Pull) (attest : Fin 3)
  /-- JOB_END (R460). JOB_END strikes, ends the job, returns S units to N, frees buffers and queues and clears LOCK. -/
  | jobEnd (sq : Nat) (cid : Nat)
  /-- SNAPSHOT (R398). SNAPSHOT requests a parameter snapshot of a committed step. -/
  | snapshot (sq : Nat) (cid : Nat)
  /-- COPY (R435). COPY moves LEN bytes between host memory and a local address. -/
  | copy (sq : Nat) (cid : Nat) (data : List Byte)
  /-- SET_QUOTA (R435). SET_QUOTA sets a new pool quota for the job's world, effective between sections. -/
  | setQuota (sq : Nat) (cid : Nat)
  /-- AGE_PROMOTION (R444). A request that has waited AGE_TICKS at one level moves up one priority level. -/
  | agePromotion
  /-- FSQ_SEND (R443). The fabric send arbiter fetches an FSQ entry and sends it as one WRITE to the target FRQ. -/
  | fsqSend (host : List Byte)
  /-- FUNCTION_LEVEL_RESET (R427). A function-level reset aborts the function's commands, ends its jobs, deactivates its queues and closes its windows. -/
  | functionLevelReset (f : Fin 64)
  /-- TDI_LEAVE_RUN (R426). A TDI leaving RUN errors its S queues, closes its S windows and ends its jobs. -/
  | tdiLeaveRun (f : Fin 64)
  /-- GET_VERSION (R457). SEC answers an SPDM GET_VERSION request. -/
  | getVersion (via : SpdmVia) (msg : List Byte)
  /-- GET_CAPABILITIES (R457). SEC answers an SPDM GET_CAPABILITIES request. -/
  | getCapabilities (via : SpdmVia) (msg : List Byte)
  /-- NEGOTIATE_ALGORITHMS (R457). SEC negotiates SM2, SM3 and SM4 algorithms. -/
  | negotiateAlgorithms (via : SpdmVia) (msg : List Byte)
  /-- GET_DIGESTS (R457). SEC returns the digest of certificate slot 0. -/
  | getDigests (via : SpdmVia) (msg : List Byte)
  /-- GET_CERTIFICATE (R454). SEC returns the root, issuing, identity and alias certificate chain. -/
  | getCertificate (via : SpdmVia) (msg : List Byte)
  /-- CHALLENGE (R457). SEC answers a CHALLENGE signed with the alias key. -/
  | challenge (via : SpdmVia) (msg : List Byte)
  /-- GET_MEASUREMENTS (R458). SEC returns measurement blocks 1 to 10 signed with the alias key. -/
  | getMeasurements (via : SpdmVia) (msg : List Byte)
  /-- KEY_EXCHANGE (R457). SEC runs SM2 key exchange to open a secured session. -/
  | keyExchange (via : SpdmVia) (msg : List Byte)
  /-- FINISH (R457). SEC completes the session handshake. -/
  | finish (via : SpdmVia) (sid : Nat) (msg : List Byte) (macOk : Bool)
  /-- HEARTBEAT (R457). SEC answers a session heartbeat. -/
  | heartbeat (via : SpdmVia) (sid : Nat) (msg : List Byte)
  /-- KEY_UPDATE (R457). SEC updates the session keys. -/
  | keyUpdate (via : SpdmVia) (sid : Nat) (msg : List Byte)
  /-- END_SESSION (R457). SEC ends a secured session. -/
  | endSession (via : SpdmVia) (sid : Nat) (msg : List Byte)
  /-- IDE_KM (R457). An IDE_KM message in a secured session sets IDE stream keys. -/
  | ideKm (via : SpdmVia) (sid : Nat) (link : Bool) (msg : List Byte)
  /-- TDISP (R457). A TDISP message in a secured session changes a VF's TDI state. -/
  | tdisp (via : SpdmVia) (sid : Nat) (f : Fin 64) (msg : List Byte)
  /-- WATCHDOG_EXPIRY (R467). A processor not kicked for WD_MS is held in reset, a CRASH record is written and PEER_DOWN fires. -/
  | watchdogExpiry (p : Proc)
  /-- WD_HALF (R482). Half of WD_MS without a kick fires source 0. -/
  | wdHalf (p : Proc)
  /-- PROCESSOR_FAULT (R467). An illegal instruction or access restarts the processor with cause 2. -/
  | processorFault (p : Proc)
  /-- PEER_UP (R468). A restarted image has initialised, and PEER_UP fires at the other gatherers. -/
  | peerUp (p : Proc)
  /-- STAGE (R474). STAGE writes an image to the processor's inactive bank and has SEC check it. -/
  | stage (host : List Byte) (img : List Byte)
  /-- ACTIVATE (R475). ACTIVATE flips each named processor's bank and restarts it, or defers during an emergency. -/
  | activate (host : List Byte)
  /-- RESTART (R477). RESTART restarts each named processor with cause 3. -/
  | restart (host : List Byte)
  /-- LOG_READ (R481). LOG_READ copies a lantern ring's records to a host buffer. -/
  | logRead (host : List Byte)
  /-- ACTIVATION_RELEASE (R476). A deferred activation is carried out once EMERG has read 0 for 100 ms. -/
  | activationRelease
  /-- EVENT_SOURCE_FIRE (R483). A firing sets the source's pending bit and increments its count. -/
  | eventSourceFire (p : Proc) (src : Fin 1023)
  /-- GATHERER_INTERRUPT (R484). The gatherer interrupts its processor when an enabled pending source outranks the active ones. -/
  | gathererInterrupt (p : Proc)
  /-- TIMER (R482). A gatherer timer TIMER0 to TIMER3 expires and fires its source. -/
  | timer (p : Proc) (i : Fin 4)
  /-- TRACE_POINT (R480). A trace point writes a lantern record when its class is enabled. -/
  | tracePoint (p : Proc) (cls : Fin 32) (point : Fin 65536) (args : List Word)
  /-- DOZE_ENTRY (R492). A cluster idle for DOZE_IDLE_US gates its clock. -/
  | dozeEntry (k : Fin 8)
  /-- DOZE_EXIT (R493). A wake request reopens a dozing cluster's clock in steps over 2 µs. -/
  | dozeExit (k : Fin 8)
  /-- BIVOUAC_ENTRY (R494). MGT powers off a cluster unbound for BIV_IDLE_MS with its pool evicted. -/
  | bivouacEntry (k : Fin 8)
  /-- BIVOUAC_EXIT (R495). MGT powers a cluster up, zeroes its SRAM, reloads ret fields and increments the wake epochs. -/
  | bivouacExit (k : Fin 8)
  /-- MGT_WINDOW (R505). At the end of each 1 ms window MGT sets each cluster's requested point. -/
  | mgtWindow
  /-- VF_CHANGE (R499). A change of effective point relocks a PLL, switches the clock and moves the voltage. -/
  | vfChange (k : Fin 8)
  /-- TELEMETRY_SAMPLE (R508). Every 10 µs the limit keeper samples sensors and updates telemetry. -/
  | telemetrySample (temps : List Nat) (amps : List Nat) (uj : Nat) (cl : List Nat)
  /-- THERMAL_THROTTLE_STEP (R500). Every 100 µs at or above 95 °C a ceiling moves one point slower. -/
  | thermalThrottleStep (c : Fin 9)
  /-- THERMAL_RELEASE_STEP (R500). Every 1 ms at or below 93 °C a ceiling moves one point faster. -/
  | thermalReleaseStep (c : Fin 9)
  /-- THERMAL_FAST (R500). A cluster sensor at 100 °C applies divider 2 to that cluster until below 98 °C. -/
  | thermalFast (k : Fin 8)
  /-- THERMAL_TRIP (R502). A sensor at 110 °C asserts THERMTRIP_N, turns off rails and latches TRIP. -/
  | thermalTrip
  /-- RAIL_CURRENT_LIMIT (R500). A VIN_CD rail above 400 A over 1 µs applies divider 2 to both clusters of its die. -/
  | railCurrentLimit (d : Fin 4) (amps : Nat)
  /-- RAIL_CURRENT_RELEASE (R500). After 100 µs below 360 A the current divider ends. -/
  | railCurrentRelease (d : Fin 4)
  /-- PACKAGE_POWER_WINDOW (R500). At each 1 ms window the package power moves ceilings down above 2,800 W, or up after 10 windows below 2,520 W. -/
  | packagePowerWindow
  /-- PWRBRK_N_ASSERT (R500). PWRBRK_N going low applies divider 4 to every cluster within 1 µs. -/
  | pwrbrkNAssert
  /-- PWRBRK_N_DEASSERT (R500). PWRBRK_N going high ends the brake division within 1 µs. -/
  | pwrbrkNDeassert
  /-- SELF_REFRESH_ENTRY (R507). With every cluster in bivouac and no HBM access for 1 ms, MGT puts the stacks into self-refresh. -/
  | selfRefreshEntry
  /-- SELF_REFRESH_EXIT (R507). An HBM access in self-refresh relocks the PLLs and brings the stacks out. -/
  | selfRefreshExit
  /-- ISLAND_POWER_UP (R451). VIN_AO coming up starts the counter, reads the PUF and samples the I3C straps. -/
  | islandPowerUp (asel : Fin 4)
  /-- PERST_N_DEASSERT (R519). PERST_N deassertion starts a cold or warm start-up through the stages of Table 20.5. -/
  | perstNDeassert (b : StartIn)
  /-- PERST_N_ASSERT (R526). PERST_N held low for 1 µs resets every domain but Base Camp and ends running jobs. -/
  | perstNAssert
  /-- READY (R520). The device raises READY once BIST has passed, the ports are settled and the PCIe link is up. -/
  | ready
  /-- FAB_WAIT_EXPIRY (R520). Ports still training after FAB_WAIT_MS are treated as down. -/
  | fabWaitExpiry
  /-- PCIE_LINK_UP (R522). The PCIe link coming up clears FAIL code 6. -/
  | pcieLinkUp (width : Fin 3) (rate : Fin 7) (flit : Bool)
  /-- PCIE_LINK_TIMEOUT (R522). A PCIe link not up 1 s after PERST_N sets FAIL code 6. -/
  | pcieLinkTimeout
  /-- RETAINED_BANK_WRITE (R516). MGT erases and programs the losing retained bank with the working image. -/
  | retainedBankWrite (err : Bool)
  /-- NOR_WRITE_RETRY (R517). A NOR error is retried once after 1 s, and a second error posts RET_WRITE_FAIL. -/
  | norWriteRetry (err : Bool)
  /-- RAIL_LOST (R556). A rail 5 % low for 2 µs resets the device as PERST_N would and asserts ALERT_N. -/
  | railLost (r : Fin 13)
  /-- SECTION_REPLAY (R532). CMD handles a section-class event by cutting and re-pitching the section, or escalates it to step class. -/
  | sectionReplay
  /-- CORE_TESTED (R535). A fenced core's BIST ends, and the core leaves the fence or is marked unavailable. -/
  | coreTested (n : Fin 16) (reps : List (Fin 2 × Bool × Fin 8 × Nat)) (un0 : Bool) (un1 : Bool) (hard : Bool)
  /-- I3C_PRIVATE_READ (R559). A private read returns the 16-byte status record, or NACK while MGT is away. -/
  | i3cPrivateRead
  /-- I3C_ADDRESS_ASSIGN (R558). ENTDAA or SETDASA assigns the target's dynamic address. -/
  | i3cAddressAssign (addr : Fin 128)
  /-- JTAG_TAP_ACCESS (R560). A TAP operation reaches what JTAG_MODE allows. -/
  | jtagTapAccess (op : TapOp)
  /-- TRST_N_ASSERT (R560). TRST_N low holds the TAP in reset. -/
  | trstNAssert
  /-- LOCAL_COUNTER_TICK (R32). On every cycle of the 25 MHz Base Camp clock the 64-bit local counter increments by 1. -/
  | localCounterTick
  /-- CLUSTER_CLOCK_CYCLE (R197). In each cycle of the cluster clock exactly one stall counter of every pitched station increments and the queue full and empty counters advance. -/
  | clusterClockCycle (k : Fin 8) (errs : List StoreErr)
  /-- ISLAND_POWER_LOSS (R34). VIN_AO leaves its limits, and Base Camp, the local counter, the SVN floors, keys and the trip latch are lost. -/
  | islandPowerLoss
  /-- RAIL_GOOD (R562). A supply rail other than VIN_AO comes within its limits and its BC_RAIL_GOOD bit becomes 1. -/
  | railGood (r : Fin 13)
  /-- PCIE_LINK_DOWN (R445). The PCIe link goes down after training, and HIF_ST.WIDTH reads 0. -/
  | pcieLinkDown
  /-- NAND_COMMAND_DONE (R482). A NAND program, read or erase on channel c completes and fires STO's command-done source 144 + c. -/
  | nandCommandDone (c : Fin 16)
  deriving DecidableEq, Repr

end Sys2Proof
end

