-- ==== Sys2Proof/Decode.lean ====
section
/-! DEFINITION. The commands that the table's words spell. The table of operations gives no row any bits: a command
reaches the block as its row and operands, not as a word. -/

namespace Sys2Proof

/-- The command that a word spells by the table's bits: none, as no row has any. Log entry 4 (DESIGN CHOICE). -/
def decodeTableWord (_nbits _w : Nat) : Option Instr := none

end Sys2Proof
end

