-- ==== Sys2Proof/Machine/Bits.lean ====
section
/-! DEFINITION. Bit fields and byte order: fields `[h:l]` of a value (Table 0.1), little-endian byte lists
(R572), alignment and the integer conventions of R4. -/

namespace Sys2Proof.Machine

/-- Bits `[h:l]` of a value, both ends inclusive (Table 0.1). -/
def bits (v h l : Nat) : Nat := v / 2 ^ l % 2 ^ (h + 1 - l)

/-- Bit `n` of a value. -/
def bit (v n : Nat) : Bool := v / 2 ^ n % 2 == 1

/-- A value with bits `[h:l]` replaced by the low bits of `x`. -/
def putBits (v h l x : Nat) : Nat :=
  v / 2 ^ (h + 1) * 2 ^ (h + 1) + x % 2 ^ (h + 1 - l) * 2 ^ l + v % 2 ^ l

/-- The number of ones among the low `n` bits of `v`. -/
def popcount : Nat → Nat → Nat
  | 0, _ => 0
  | n + 1, v => (if bit v n then 1 else 0) + popcount n v

/-- The lowest set bit of `v` at or above position `from`, looking at `n` positions. -/
def firstSet : Nat → Nat → Nat → Option Nat
  | 0, _, _ => none
  | n + 1, p, v => if bit v p then some p else firstSet n (p + 1) v

/-- `v` with bit `n` set. -/
def setBit (v n : Nat) : Nat := if bit v n then v else v + 2 ^ n

/-- `v` with bit `n` cleared. -/
def clrBit (v n : Nat) : Nat := if bit v n then v - 2 ^ n else v

/-- `v` with bit `n` made `b`. -/
def putBit (v n : Nat) (b : Bool) : Nat := if b then setBit v n else clrBit v n

/-- The signed integer that an `n`-bit field holds in two's complement. -/
def signed (n v : Nat) : Int :=
  let u := v % 2 ^ n
  if u < 2 ^ (n - 1) then Int.ofNat u else Int.ofNat u - Int.ofNat (2 ^ n)

/-- The `n`-bit two's complement encoding of an integer. -/
def encInt (n : Nat) (i : Int) : Nat := (i % (2 ^ n : Nat)).toNat

/-- Ceiling division (Table 0.1, ⌈a/b⌉). -/
def ceilDiv (a b : Nat) : Nat := (a + b - 1) / b

/-- `a` rounded up to a multiple of `b`. -/
def roundUp (a b : Nat) : Nat := ceilDiv a b * b

/-- The number a little-endian byte list holds (R572): the first byte is bits [7:0]. -/
def leNat : List Byte → Nat
  | [] => 0
  | b :: bs => b.toNat + 256 * leNat bs

/-- The little-endian bytes of a number, `n` of them (R572). -/
def leBytes : Nat → Nat → List Byte
  | 0, _ => []
  | n + 1, v => BitVec.ofNat 8 v :: leBytes n (v / 256)

/-- The number a most-significant-first byte string holds (SM4 blocks, R572). -/
def beNat (bs : List Byte) : Nat := leNat bs.reverse

/-- The most-significant-first bytes of a number. -/
def beBytes (n v : Nat) : List Byte := (leBytes n v).reverse

/-- The first byte of a list, or zero. -/
def byteAt (bs : List Byte) (n : Nat) : Nat :=
  match bs[n]? with
  | some b => b.toNat
  | none => 0

/-- The little-endian field of `w` bytes at offset `o` of a record (R572). -/
def fieldAt (bs : List Byte) (o w : Nat) : Nat := leNat ((bs.drop o).take w)

/-- A byte list brought to exactly `n` bytes: cut, or continued with zeros. -/
def padTo (n : Nat) (bs : List Byte) : List Byte := bs.take n ++ List.replicate (n - bs.length) 0

/-- A record with the `w`-byte little-endian field at offset `o` replaced. -/
def putField (bs : List Byte) (o w v : Nat) : List Byte :=
  bs.take o ++ leBytes w v ++ bs.drop (o + w)

/-- The integers `a, a+1, …, a+n-1`. -/
def upFrom (a n : Nat) : List Nat := (List.range n).map (a + ·)

/-- The least element satisfying `p` of a list, in list order. -/
def firstWhere {α : Type} (p : α → Bool) : List α → Option α
  | [] => none
  | x :: xs => if p x then some x else firstWhere p xs

/-- `f` folded over the indices `0 … n-1`. -/
def forN {σ : Type} (n : Nat) (f : Nat → σ → σ) (s : σ) : σ :=
  (List.range n).foldl (fun t k => f k t) s

/-- `f` folded over a list. Log entry 11 (DESIGN CHOICE). -/
def forEach {α σ : Type} (xs : List α) (f : α → σ → σ) (s : σ) : σ :=
  xs.foldl (fun t x => f x t) s

/-- A list with its element at `n` replaced (no change past its end). -/
def setAt {α : Type} : List α → Nat → α → List α
  | [], _, _ => []
  | _ :: xs, 0, y => y :: xs
  | x :: xs, n + 1, y => x :: setAt xs n y

/-- A value reduced to 32 bits. -/
def wrap32 (v : Nat) : Nat := v % 4294967296

end Sys2Proof.Machine
end

