-- ==== Sys2Proof/Machine/Crypto.lean ====
section
/-! DEFINITION. The functions the manual names by their standards: CRC-32C, SM3, SM4 as a block function, in XTS and in
GCM, and SM2 signatures (R120, R167, R182, R285, R350, R455). Their bit-level definitions are taken from those
standards (PRESUMED, in the assumption log). -/

namespace Sys2Proof.Machine

/-! ## CRC-32C -/

/-- One bit of the reflected CRC-32C register. -/
def crcBit (c : Nat) : Nat := if c % 2 = 1 then Nat.xor (c / 2) 0x82F63B78 else c / 2

/-- One byte into the register. -/
def crcByte (c : Nat) (b : Byte) : Nat := (List.range 8).foldl (fun c _ => crcBit c) (Nat.xor c b.toNat)

/-- CRC-32C of a byte list. Log entry 12 (PRESUMED). -/
def crc32c (bs : List Byte) : Nat := Nat.xor (bs.foldl crcByte 0xFFFFFFFF) 0xFFFFFFFF

/-! ## 32-bit words -/

/-- Rotate a 32-bit value left. -/
def rotl (v n : Nat) : Nat := (v * 2 ^ n) % 4294967296 + v / 2 ^ (32 - n)

/-- The 32-bit big-endian word `i` of a byte list. -/
def beWord (bs : List Byte) (i : Nat) : Nat := beNat ((bs.drop (4 * i)).take 4)

/-! ## SM4 -/

/-- The SM4 substitution box, entry `i` in bits [8i+7:8i]. -/
def sm4Box : Nat := 0x4839cbd73e5fee79204ddc3aec7df01884c66ec509f1b9657e77960c4a976989b0b4e5b812d0742dbd7bcda58831c10ad85a101f415cd9117fbcddbb92af1b8d515b6c6d726aff032f8efdde4537dbd56f4e530dab2329c060ca66822ee2f61de3b18cf5303293ad551a349ba45daee0a11561f9cef2f7a3b538c740d28abfea9ec8c4a0e702364c5227d39f574600d4877821013b7c2225a2d158635e0e241e359d56704b0febf88bda6471b2816b68a84f85e6193c5983ba1773f3fca70747a63f8f75fa94df8095e808c9a91cb3e462accfed430b54337a98ef91f450429c99068649261344aac304be2a769a672b052cfb28c214b616b73de1ccfee990d6

/-- The substitution of one byte. -/
def sm4Sub (x : Nat) : Nat := sm4Box / 2 ^ (8 * x) % 256

/-- The substitution of the four bytes of a word. -/
def sm4Tau (w : Nat) : Nat :=
  sm4Sub (w / 16777216 % 256) * 16777216 + sm4Sub (w / 65536 % 256) * 65536 + sm4Sub (w / 256 % 256) * 256
    + sm4Sub (w % 256)

/-- The linear map of a round, and that of the key schedule. -/
def sm4L (b : Nat) : Nat := Nat.xor b (Nat.xor (Nat.xor (rotl b 2) (rotl b 10)) (Nat.xor (rotl b 18) (rotl b 24)))
def sm4LK (b : Nat) : Nat := Nat.xor b (Nat.xor (rotl b 13) (rotl b 23))

/-- The constant CK of round `i`. -/
def sm4CK (i : Nat) : Nat :=
  (28 * i % 256) * 16777216 + ((28 * i + 7) % 256) * 65536 + ((28 * i + 14) % 256) * 256 + (28 * i + 21) % 256

/-- Round keys from four state words. -/
def sm4Keys : Nat → Nat → Nat → Nat → Nat → Nat → List Nat
  | 0, _, _, _, _, _ => []
  | n + 1, i, a, b, c, d =>
    let k := Nat.xor a (sm4LK (sm4Tau (Nat.xor (Nat.xor b c) (Nat.xor d (sm4CK i)))))
    k :: sm4Keys n (i + 1) b c d k

/-- The round keys of a 16-byte key. -/
def sm4Schedule (key : List Byte) : List Nat :=
  sm4Keys 32 0 (Nat.xor (beWord key 0) 0xA3B1BAC6) (Nat.xor (beWord key 1) 0x56AA3350)
    (Nat.xor (beWord key 2) 0x677D9197) (Nat.xor (beWord key 3) 0xB27022DC)

/-- The rounds under given round keys, and the final reversal. -/
def sm4Rounds : List Nat → Nat → Nat → Nat → Nat → List Byte
  | [], a, b, c, d => beBytes 4 d ++ beBytes 4 c ++ beBytes 4 b ++ beBytes 4 a
  | k :: ks, a, b, c, d =>
    sm4Rounds ks b c d (Nat.xor a (sm4L (sm4Tau (Nat.xor (Nat.xor b c) (Nat.xor d k)))))

/-- One SM4 encryption of a 16-byte block. Log entry 12 (PRESUMED). -/
def sm4Enc (key blk : List Byte) : List Byte :=
  sm4Rounds (sm4Schedule key) (beWord blk 0) (beWord blk 1) (beWord blk 2) (beWord blk 3)

/-- One SM4 decryption. -/
def sm4Dec (key blk : List Byte) : List Byte :=
  sm4Rounds (sm4Schedule key).reverse (beWord blk 0) (beWord blk 1) (beWord blk 2) (beWord blk 3)

/-- Bytewise exclusive or. -/
def xorBytes (a b : List Byte) : List Byte := List.zipWith (fun x y => x ^^^ y) a b

/-- A list cut into pieces of `n`. -/
def chunks {α : Type} (n : Nat) (xs : List α) : List (List α) :=
  (List.range ((xs.length + n - 1) / n)).map (fun i => (xs.drop (n * i)).take n)

/-- SM4 in counter mode from a 16-byte counter block whose last 4 bytes count, most significant first. -/
def sm4Ctr (key ctr : List Byte) (bs : List Byte) : List Byte :=
  ((chunks 16 bs).zipIdx.map (fun p =>
    xorBytes p.1 (sm4Enc key (ctr.take 12 ++ beBytes 4 (beNat (ctr.drop 12) + p.2))))).flatten

/-- Multiplication in the field of GHASH, 128 steps: `v` shifts right, most significant bit first. -/
def gfMulLoop : Nat → Nat → Nat → Nat → Nat
  | 0, _, _, z => z
  | n + 1, x, v, z =>
    let z := if bit x n then Nat.xor z v else z
    let v := if v % 2 = 1 then Nat.xor (v / 2) (0xE1 * 2 ^ 120) else v / 2
    gfMulLoop n x v z

/-- GHASH of whole blocks under the hash key `h`. -/
def ghash (h : Nat) (blocks : List Nat) : Nat := blocks.foldl (fun y b => gfMulLoop 128 (Nat.xor y b) h 0) 0

/-- A byte list continued with zeros to whole 16-byte blocks, as numbers. -/
def ghBlocks (bs : List Byte) : List Nat := (chunks 16 bs).map (fun c => beNat (padTo 16 c))

/-- The 16-byte SM4-GCM tag over additional data and ciphertext, for a 12-byte nonce. -/
def gcmTag (key nonce aad ct : List Byte) : List Byte :=
  let h := beNat (sm4Enc key (List.replicate 16 0))
  let s := ghash h (ghBlocks aad ++ ghBlocks ct ++ [8 * aad.length * 2 ^ 64 + 8 * ct.length])
  xorBytes (beBytes 16 s) (sm4Enc key (nonce ++ beBytes 4 1))

/-- SM4-GCM encryption (and decryption) of the data part. Log entry 12 (PRESUMED). -/
def gcmCrypt (key nonce bs : List Byte) : List Byte := sm4Ctr key (nonce ++ beBytes 4 2) bs

/-- One step of the XTS tweak: multiplication by x, little-endian. -/
def xtsDouble (t : Nat) : Nat :=
  let d := 2 * t
  if 2 ^ 128 ≤ d then Nat.xor (d % 2 ^ 128) 0x87 else d

/-- SM4-XTS encryption of a data unit of whole blocks: `k1` data key, `k2` tweak key, 128-bit unit number.
Log entry 12 (PRESUMED). -/
def xtsEnc (k1 k2 : List Byte) (unit : Nat) (bs : List Byte) : List Byte :=
  let t0 := leNat (sm4Enc k2 (leBytes 16 unit))
  ((chunks 16 bs).zipIdx.map (fun p =>
    let t := leBytes 16 ((List.range p.2).foldl (fun t _ => xtsDouble t) t0)
    xorBytes (sm4Enc k1 (xorBytes p.1 t)) t)).flatten

/-! ## SM3 -/

def sm3P0 (x : Nat) : Nat := Nat.xor x (Nat.xor (rotl x 9) (rotl x 17))
def sm3P1 (x : Nat) : Nat := Nat.xor x (Nat.xor (rotl x 15) (rotl x 23))

/-- Message expansion: the words W16… from the last 16, newest first. -/
def sm3Expand : Nat → List Nat → List Nat
  | 0, ws => ws
  | n + 1, ws =>
    let g := fun i => ws.getD (i - 1) 0
    let w := Nat.xor (sm3P1 (Nat.xor (Nat.xor (g 16) (g 9)) (rotl (g 3) 15))) (Nat.xor (rotl (g 13) 7) (g 6))
    sm3Expand n (w :: ws)

/-- The chaining value: eight words. -/
structure Sm3 where
  a : Nat
  b : Nat
  c : Nat
  d : Nat
  e : Nat
  f : Nat
  g : Nat
  h : Nat
  deriving DecidableEq, Repr

/-- One round of the compression with words W and W'. -/
def sm3Round (v : Sm3) (j w w4 : Nat) : Sm3 :=
  let t := rotl (if j < 16 then 0x79CC4519 else 0x7A879D8A) (j % 32)
  let ss1 := rotl (wrap32 (rotl v.a 12 + v.e + t)) 7
  let ss2 := Nat.xor ss1 (rotl v.a 12)
  let n := fun x => 4294967295 - x
  let ff := if j < 16 then Nat.xor v.a (Nat.xor v.b v.c)
    else Nat.lor (Nat.land v.a v.b) (Nat.lor (Nat.land v.a v.c) (Nat.land v.b v.c))
  let gg := if j < 16 then Nat.xor v.e (Nat.xor v.f v.g) else Nat.lor (Nat.land v.e v.f) (Nat.land (n v.e) v.g)
  let tt1 := wrap32 (ff + v.d + ss2 + Nat.xor w w4)
  let tt2 := wrap32 (gg + v.h + ss1 + w)
  ⟨tt1, v.a, rotl v.b 9, v.c, sm3P0 tt2, v.e, rotl v.f 19, v.g⟩

/-- The compression of one 64-byte block. -/
def sm3Block (v : Sm3) (blk : List Byte) : Sm3 :=
  let ws := (sm3Expand 52 ((List.range 16).map (beWord blk)).reverse).reverse
  let r := (List.range 64).foldl (fun x j => sm3Round x j (ws.getD j 0) (ws.getD (j + 4) 0)) v
  ⟨Nat.xor v.a r.a, Nat.xor v.b r.b, Nat.xor v.c r.c, Nat.xor v.d r.d, Nat.xor v.e r.e, Nat.xor v.f r.f,
   Nat.xor v.g r.g, Nat.xor v.h r.h⟩

/-- SM3 of a byte list: 32 bytes. Log entry 12 (PRESUMED). -/
def sm3 (bs : List Byte) : List Byte :=
  let pad := (120 - (bs.length + 1) % 64) % 64
  let m := bs ++ [0x80] ++ List.replicate pad 0 ++ beBytes 8 (8 * bs.length)
  let r := (chunks 64 m).foldl sm3Block
    ⟨0x7380166F, 0x4914B2B9, 0x172442D7, 0xDA8A0600, 0xA96F30BC, 0x163138AA, 0xE38DEE4D, 0xB0FB0E4E⟩
  [r.a, r.b, r.c, r.d, r.e, r.f, r.g, r.h].flatMap (beBytes 4)

/-! ## SM2 -/

def sm2P : Nat := 0xFFFFFFFEFFFFFFFFFFFFFFFFFFFFFFFFFFFFFFFF00000000FFFFFFFFFFFFFFFF
def sm2B : Nat := 0x28E9FA9E9D9F5E344D5A9E4BCF6509A7F39789F515AB8F92DDBCBD414D940E93
def sm2N : Nat := 0xFFFFFFFEFFFFFFFFFFFFFFFFFFFFFFFF7203DF6B21C6052B53BBF40939D54123
def sm2Gx : Nat := 0x32C4AE2C1F1981195F9904466A39C9948FE30BBFF2660BE1715A4589334C74C7
def sm2Gy : Nat := 0xBC3736A2F4F6779C59BDCEE36B692153D0A9877CC62A474002DF32E52139F0A0

/-- Powers modulo `m`, by the low `n` bits of the exponent. -/
def powMod (m : Nat) : Nat → Nat → Nat → Nat → Nat
  | 0, _, _, acc => acc
  | n + 1, b, e, acc => powMod m n (b * b % m) (e / 2) (if e % 2 = 1 then acc * b % m else acc)

/-- Inverse modulo a prime. -/
def invMod (m x : Nat) : Nat := powMod m 256 (x % m) (m - 2) 1

/-- Point addition on the SM2 curve; `none` is the point at infinity. -/
def sm2Add (p q : Option (Nat × Nat)) : Option (Nat × Nat) :=
  match p, q with
  | none, q => q
  | p, none => p
  | some (x1, y1), some (x2, y2) =>
    if x1 = x2 ∧ (y1 + y2) % sm2P = 0 then none
    else
      let l := if x1 = x2 then (3 * x1 * x1 + (sm2P - 3)) * invMod sm2P (2 * y1) % sm2P
        else (y2 + (sm2P - y1)) * invMod sm2P (x2 + (sm2P - x1)) % sm2P
      let x3 := (l * l + 2 * sm2P - x1 - x2) % sm2P
      some (x3, (l * (x1 + (sm2P - x3)) + (sm2P - y1)) % sm2P)

/-- Scalar multiples, by the low `n` bits. -/
def sm2MulLoop : Nat → Nat → Option (Nat × Nat) → Option (Nat × Nat) → Option (Nat × Nat)
  | 0, _, _, acc => acc
  | n + 1, k, p, acc => sm2MulLoop n (k / 2) (sm2Add p p) (if k % 2 = 1 then sm2Add acc p else acc)

/-- `k` times a point. -/
def sm2Mul (k : Nat) (p : Option (Nat × Nat)) : Option (Nat × Nat) := sm2MulLoop 256 k p none

/-- The public key of a private key: 64 bytes. -/
def sm2Public (d : Nat) : List Byte :=
  match sm2Mul d (some (sm2Gx, sm2Gy)) with
  | some (x, y) => beBytes 32 x ++ beBytes 32 y
  | none => List.replicate 64 0

/-- The default signer identity of the SM2 standard. -/
def sm2Id : List Byte := [0x31, 0x32, 0x33, 0x34, 0x35, 0x36, 0x37, 0x38, 0x31, 0x32, 0x33, 0x34, 0x35, 0x36, 0x37, 0x38]

/-- The digest that an SM2 signature covers, for a 64-byte public key and a message. -/
def sm2Digest (pub msg : List Byte) : Nat :=
  let z := sm3 ([0x00, 0x80] ++ sm2Id ++ beBytes 32 (sm2P - 3) ++ beBytes 32 sm2B ++ beBytes 32 sm2Gx ++ beBytes 32 sm2Gy
    ++ pub)
  beNat (sm3 (z ++ msg))

/-- Verify a 64-byte SM2 signature (r, s). Log entry 12 (PRESUMED). -/
def sm2Verify (pub msg sig : List Byte) : Bool :=
  let r := beNat (sig.take 32)
  let s := beNat ((sig.drop 32).take 32)
  let t := (r + s) % sm2N
  if r = 0 || s = 0 || decide (sm2N ≤ r) || decide (sm2N ≤ s) || t == 0 then false
  else
    match sm2Add (sm2Mul s (some (sm2Gx, sm2Gy))) (sm2Mul t (some (beNat (pub.take 32), beNat ((pub.drop 32).take 32)))) with
    | some (x, _) => (sm2Digest pub msg + x) % sm2N == r
    | none => false

/-- Sign with a private key and a nonce. -/
def sm2Sign (d k : Nat) (pub msg : List Byte) : List Byte :=
  match sm2Mul k (some (sm2Gx, sm2Gy)) with
  | some (x, _) =>
    let r := (sm2Digest pub msg + x) % sm2N
    let s := invMod sm2N (d + 1) * (k + (sm2N - r * d % sm2N)) % sm2N
    beBytes 32 r ++ beBytes 32 s
  | none => List.replicate 64 0

end Sys2Proof.Machine
end

