-- ==== Sys2Proof/Config.lean ====
section
/-! DEFINITION. The free values: what the manual leaves open is a constant without a body here, so that no proof can
see a value of it. Each is named by an entry of the assumption log. -/

namespace Sys2Proof.Config

/-- The keys, nonces and other bytes that SEC's random source gives (Table 17.2, R351): the `k`-th draw of the run.
Log entries 10 (DESIGN CHOICE), 216 (DESIGN CHOICE). -/
opaque randomBytes : Nat → List (BitVec 8)

/-- The contents of the boot store at manufacture (Table 20.1): one byte for each xSPI address. -/
opaque factoryNor : Nat → BitVec 8

/-- The SM3 digest of Asiervo's firmware-signing public key, held in SEC's ROM (R455).
Log entry 64 (DESIGN CHOICE). -/
opaque romKeyDigest : List (BitVec 8)

/-- The 4 KiB reading of the physical unclonable function on IO0 (R451), as corrected by SEC's ROM, and whether the
correction succeeds (R453). Log entry 66 (DESIGN CHOICE). -/
opaque pufReading : Option (List (BitVec 8))

/-- The code of a transcendental result whose correct rounding 8,192 bits have not decided, by operation, format and
operand code: a value that the model never settles. Log entry 124 (DESIGN CHOICE). -/
opaque hardCase : Nat → Nat → Nat → Nat

/-- The `k`-th byte that the manual leaves open: bytes of a drain's tile outside its valid extents (R168).
Log entries 10 (DESIGN CHOICE), 130 (DESIGN CHOICE). -/
opaque freeByte : Nat → BitVec 8

/-- The word that names a memory in the DETAIL of MEM_UE and MEM_UE_REPEAT (Table 21.3): the manual gives no encoding. By
kind (0 core store, 1 cluster store, 2 shared-cache slice, 3 HBM) and number. Log entry 172 (DESIGN CHOICE). -/
opaque memName : Nat → Nat → Nat

/-- The digest of a measurement block whose encoding before the SM3 the manual leaves open (Table 17.4): the block and its
content. Log entry 60 (DESIGN CHOICE). -/
opaque measure : Nat → List (BitVec 8) → List (BitVec 8)

/-- The fixed version of SEC's ROM (R456). Log entry 63 (DESIGN CHOICE). -/
opaque romVersion : BitVec 32

/-- The alias certificate that SEC issues (R454), for the identity and alias public keys and M: the manual names what it
carries and gives no encoding. Log entry 65 (DESIGN CHOICE). -/
opaque aliasCert : List (BitVec 8) → List (BitVec 8) → List (BitVec 8) → List (BitVec 8)

/-- The `k`-th run of `n` bytes of an SPDM, IDE_KM or TDISP message whose content the manual leaves open: session keys'
verification data, sizes and reports. Log entry 216 (DESIGN CHOICE). -/
opaque messageBytes : Nat → List (BitVec 8)

/-- The `k`-th count of data slots of a stack that one tick of the local counter brings to a slot counter of R310: it depends
on what the shared cache holds and on the controller's timing. Log entry 94 (DESIGN CHOICE). -/
opaque hbmSlots : Nat → Nat

end Sys2Proof.Config
end

