-- ==== Sys2Proof/Machine/Tab.lean ====
section
/-! DEFINITION. Sparse state by key: a list of key and value pairs with keys strictly rising and no entry
equal to what an unlisted key reads as, so that equal contents are equal data. Registers, memory bytes and
every numbered unit of the device are held in one. -/

namespace Sys2Proof.Machine

/-- Sparse contents by a natural key. -/
structure Tab (α : Type) where
  /-- The entries that differ from the default, keys strictly rising. -/
  ents : List (Nat × α)
  deriving DecidableEq, Repr

/-- The table with nothing listed. -/
def Tab.empty {α : Type} : Tab α := ⟨[]⟩

/-- The entry listed under a key. -/
def Tab.find {α : Type} : List (Nat × α) → Nat → Option α
  | [], _ => none
  | (k', v) :: es, k => if k' = k then some v else Tab.find es k

/-- What a key reads as: its entry, or the default `d` of the key. -/
def Tab.get {α : Type} (t : Tab α) (k : Nat) (d : α) : α := (Tab.find t.ents k).getD d

/-- The list without the entry of a key. -/
def Tab.drop {α : Type} : List (Nat × α) → Nat → List (Nat × α)
  | [], _ => []
  | (k', v) :: es, k => if k' = k then Tab.drop es k else (k', v) :: Tab.drop es k

/-- The list with the entry of a key put in its place. -/
def Tab.ins {α : Type} : List (Nat × α) → Nat → α → List (Nat × α)
  | [], k, v => [(k, v)]
  | (k', v') :: es, k, v =>
    if k' = k then (k, v) :: es
    else if k < k' then (k, v) :: (k', v') :: es
    else (k', v') :: Tab.ins es k v

/-- Write a key: writing its default removes its entry. -/
def Tab.set {α : Type} [DecidableEq α] (t : Tab α) (k : Nat) (d v : α) : Tab α :=
  if v = d then ⟨Tab.drop t.ents k⟩ else ⟨Tab.ins t.ents k v⟩

/-- Forget every entry whose key satisfies `p` (the key then reads as its default). -/
def Tab.clear {α : Type} (t : Tab α) (p : Nat → Bool) : Tab α := ⟨t.ents.filter (fun e => !p e.1)⟩

/-- Keep only keys satisfying the test on key and value. -/
def Tab.keep {α : Type} (t : Tab α) (p : Nat → α → Bool) : Tab α := ⟨t.ents.filter (fun e => p e.1 e.2)⟩

/-- The keys listed. -/
def Tab.keys {α : Type} (t : Tab α) : List Nat := t.ents.map (·.1)

/-- Keys strictly rising, each above `lo`. -/
def Tab.rising {α : Type} : Option Nat → List (Nat × α) → Bool
  | _, [] => true
  | none, (k, _) :: es => Tab.rising (some k) es
  | some p, (k, _) :: es => decide (p < k) && Tab.rising (some k) es

/-- The canonical form: keys strictly rising and no entry equal to its key's default. -/
def Tab.wf {α : Type} [DecidableEq α] (t : Tab α) (d : Nat → α) : Bool :=
  Tab.rising none t.ents && t.ents.all (fun e => decide (e.2 ≠ d e.1))

end Sys2Proof.Machine
end

