-- ==== Sys2Proof/Machine/RegMap.lean ====
section
/-! DEFINITION. The register map of BAR0 (R568, R570, Tables 23.3 and 23.4): every register by name, where its
instances lie, and its fields with their bits, access codes and reset values as the chapters' register tables give
them. A reset value "ret" (R8) stands here at its factory value. -/

namespace Sys2Proof.Machine

/-- Every register the manual names. A name with a trailing index in the manual is one constructor here; its
instances are numbered by the block instance and then by the index. -/
inductive RegId where
  | ME_STATUS
  | ME_LAT
  | ME_FILL
  | ME_FILL_X
  | ME_CHK
  | ME_CHK_X
  | ME_CHK_CNT
  | ME_CHK_LOG
  | ME_CYC_BEAT
  | ME_CYC_FLYWAIT
  | ME_CYC_FILL
  | ME_CNT_CLR
  | ME_REP_ROW
  | ME_REP_COL
  | DR_STATUS
  | DR_TALLY
  | DR_TALLY_X
  | DR_CYC_BUSY
  | DR_CYC_SIDEWAIT
  | DR_CYC_RELWAIT
  | DR_CNT_CLR
  | DR_FLT_LOG
  | VE_STATUS
  | VE_CYC_BUSY
  | VE_CYC_QTR
  | VE_CYC_FP64
  | VE_CNT_CLR
  | CO_NUM
  | CO_NUM_X
  | CO_NUM_STAT
  | CO_NUM_TBL_LO
  | CO_NUM_TBL_HI
  | CO_CYC_SCWAIT
  | CO_RESCALE_CNT
  | CO_NUM_CLR
  | CMD_NUMW
  | CMD_NUMW_X
  | CMD_NUMW_CNT
  | CO_SECT
  | CO_ROUND
  | CO_CNT
  | CO_CNT_X
  | CO_CNT_CLR
  | CO_DISCARD
  | CO_PROTO_LOG
  | CO_STN_BUSY
  | CO_STN_BLOCKED
  | CO_STN_STARVED
  | CO_STN_ASLEEP
  | CO_STN_FIRINGS
  | CO_Q_FULL
  | CO_Q_EMPTY
  | CO_Q_PEAK
  | CMD_PERR
  | CMD_PERR_LOC
  | CMD_PERR_SHORT
  | CMD_STRIKE
  | CMD_STRIKE_X
  | CMD_STRIKE_ST
  | CMD_SVC
  | CMD_SVC_X
  | CMD_WCLOST
  | CO_IFLT
  | CO_IFLT_PC
  | CO_IFLT_AUX
  | CO_IFLT_AUXH
  | CO_DONE
  | CO_INHAND
  | CO_STEP
  | CO_MVLOG
  | CO_MVLOG_DEV
  | CO_MVLOG_EP
  | CO_HOLDS
  | MD_SC
  | MD_SC_X
  | MD_SPLIT
  | MD_POOL_USED
  | MD_PF
  | MD_PF_X
  | MD_PF_ST
  | MD_EVICT
  | MD_SPILL
  | MD_ECC_CE
  | MD_ECC_UE
  | MD_ECC_LOG
  | MD_CNT_CLR
  | CL_POOL
  | CL_POOL_X
  | HBM_STATUS
  | HBM_BURST_RD
  | HBM_BURST_WR
  | HBM_BURST_RM
  | HBM_IDLE
  | HBM_UNLENT
  | HBM_ECC_CE
  | HBM_ECC_UE
  | HBM_ECC_LOG
  | HBM_SCRUB
  | HBM_SCRUB_X
  | HBM_CNT_CLR
  | CO_FQ_FETCHED
  | CO_FQ_WASTE
  | CO_FQ_MEMWAIT
  | CO_FQ_STAT
  | CL_NET
  | CL_NET_X
  | CL_NET_LINK
  | CL_NET_RETRY
  | CL_NET_FDROP
  | CL_NET_BAD
  | CL_NET_CLR
  | MD_MERGE
  | MD_MERGE_X
  | MD_MERGED
  | IKF_SELF
  | IKF_TORUS
  | IKF_ARB
  | IKF_ARB_X
  | IKF_RTO
  | IKF_RTO_X
  | IKF_MAP_CTL
  | IKF_REQ_OUT
  | IKF_UNREACH
  | IKF_AUTH_FAIL
  | IKF_DROP
  | IKF_TDROP
  | IKF_CLR
  | IKF_DEG
  | IKF_DEG_X
  | IKF_MAP
  | IKF_PST
  | IKF_PRETRY
  | IKF_PFEC_COR
  | IKF_PFEC_UNC
  | IKF_PDEG
  | IKF_PDETOUR
  | IKF_PCLR
  | IKF_RED
  | IKF_RED_X
  | IKF_RED_X2
  | IKF_RED_X3
  | IKF_RED_ACT
  | IKF_RED_LATE
  | IKF_RED_DROP
  | IKF_RED_SKIP
  | IKF_RED_ESC
  | IKF_RED_NF
  | IKF_RED_PART
  | IKF_RED_LOG
  | IKF_RED_LOGQ
  | IKF_RED_LOGP
  | IKF_RED_HOLD
  | IKF_RED_CLR
  | CMD_SHTAB_LO
  | CMD_SHTAB_HI
  | CMD_SHTAB_N
  | CMD_SHEP
  | CMD_JOB
  | CMD_STEP
  | CMD_COMMITTED
  | CMD_JOBMAP_LO
  | CMD_JOBMAP_HI
  | CMD_JERR
  | CMD_BAR
  | CMD_BAR_X
  | CMD_STEPCNT
  | CMD_ABORTCNT
  | CMD_SNAP
  | CMD_SNAP_STEP
  | STO_CKPT
  | STO_CKPT_X
  | STO_ST
  | STO_LAST_OWN
  | STO_LAST_BUD
  | STO_PLAN
  | STO_NSTEP
  | STO_CKCNT
  | STO_STALL
  | STO_RATE
  | STO_PE
  | STO_PSLC
  | STO_BAD
  | STO_REST
  | STO_CLR
  | STO_SCRUB
  | STO_SCRUB_X
  | NAND_IF
  | NAND_IF_X
  | NAND_CLR
  | NAND_ST
  | NAND_CW_COR
  | NAND_RETRY
  | NAND_SOFT
  | NAND_UNC
  | NAND_PEFAIL
  | HIF_ST
  | HIF_ERR
  | HIF_ERR_ADDR
  | HIF_AGE
  | HIF_AGE_X
  | HIF_Q_ACT
  | HIF_PROMO
  | HIF_FWQBASE
  | HIF_FN_QBASE
  | HIF_FN_CTL
  | HIF_FN_ASQ_LO
  | HIF_FN_ASQ_HI
  | HIF_FN_ACQ_LO
  | HIF_FN_ACQ_HI
  | HIF_FN_AEQ_LO
  | HIF_FN_AEQ_HI
  | HIF_FN_ST
  | HIF_FN_MSIX
  | HIF_FN_DBDROP
  | HIF_WIN_LO
  | HIF_WIN_HI
  | SEC_ST
  | SEC_ERR
  | SEC_WORLD_CORE
  | SEC_WORLD_CL
  | SEC_DBG
  | SEC_WV
  | SEC_WV_X
  | SEC_WV_CNT
  | SEC_WV_LOG
  | SEC_WV_ADDR_LO
  | SEC_WV_ADDR_HI
  | SEC_WV_CLR
  | SEC_IDPUB
  | SEC_MEAS
  | SEC_REG_LO
  | SEC_REG_HI
  | BC_FW_WD
  | BC_FW_WD_X
  | BC_FW_BANK
  | BC_FW_KICK
  | BC_FW_ST
  | BC_FW_VER
  | BC_FW_SVN
  | BC_FW_RST
  | BC_FW_CAUSE
  | EVG_CTL
  | EVG_BP
  | EVG_TOP
  | EVG_TAKE
  | EVG_RUN
  | EVG_EOI
  | EVG_PRIO
  | EVG_EN
  | EVG_PEND
  | EVG_PSET
  | EVG_PCLR
  | EVG_ACT
  | LNT_BASE_LO
  | LNT_BASE_HI
  | LNT_HEAD
  | LNT_SEQ
  | LNT_LVL
  | LNT_MASK
  | BC_PWR
  | BC_PWR_X
  | BC_LCNT_LO
  | BC_LCNT_HI
  | BC_SLEEP
  | BC_SLEEP_X
  | BC_PWR_ST
  | BC_LK_ST
  | BC_LK_CNT
  | BC_PKG_PWR
  | BC_ENERGY_LO
  | BC_ENERGY_HI
  | BC_TJ_MAX
  | BC_LK_CLR
  | BC_VF
  | BC_CL
  | BC_CL_F
  | BC_CL_T
  | BC_RAIL
  | CL_PST
  | CL_DOZES
  | CL_WEP0
  | CL_WEP1
  | BC_BOOT
  | BC_BOOT_X
  | BC_BOOT_ST
  | BC_BOOT_UNAV
  | BC_RET_SEQ_LO
  | BC_RET_SEQ_HI
  | BC_RET_WR
  | BC_READY_T
  | CMD_FLT
  | CMD_FLT_X
  | CMD_FLT_ST
  | CMD_FLT_SR
  | CMD_FLT_FEN
  | CMD_FLT_LOG
  | CMD_FLT_PEER
  | CMD_FLT_CLR
  | CL_ECC_CE
  | CL_ECC_UE
  | CL_ECC_LOG
  | CL_ECC_CLR
  | BC_RAIL_ST
  | BC_RAIL_GOOD
  | BC_I3C
  deriving DecidableEq, Repr

/-- The access codes of Table 0.2. -/
inductive Acc where
  | ro | rw | w1c | wo | sec
  deriving DecidableEq, Repr

/-- One field of a register table: bits `[hi:lo]`, access, reset value, and whether it is restored from retained
state (R8). -/
structure FieldDef where
  lo : Nat
  hi : Nat
  acc : Acc
  reset : Nat
  ret : Bool
  deriving DecidableEq, Repr

/-- Where a register lies: BAR0 offset `base + i*s0 + j*s1` for `i < n0`, `j < n1`. -/
structure RegLoc where
  base : Nat
  n0 : Nat
  s0 : Nat
  n1 : Nat
  s1 : Nat
  deriving DecidableEq, Repr

/-- The place of a register in BAR0 (Tables 23.3 and 23.4). -/
def RegId.loc : RegId → RegLoc
  | .ME_STATUS => ⟨0x300000, 32, 0x1000, 1, 0x4⟩
  | .ME_LAT => ⟨0x300004, 32, 0x1000, 1, 0x4⟩
  | .ME_FILL => ⟨0x300010, 32, 0x1000, 1, 0x4⟩
  | .ME_FILL_X => ⟨0x300014, 32, 0x1000, 1, 0x4⟩
  | .ME_CHK => ⟨0x300018, 32, 0x1000, 1, 0x4⟩
  | .ME_CHK_X => ⟨0x30001C, 32, 0x1000, 1, 0x4⟩
  | .ME_CHK_CNT => ⟨0x300020, 32, 0x1000, 1, 0x4⟩
  | .ME_CHK_LOG => ⟨0x300024, 32, 0x1000, 1, 0x4⟩
  | .ME_CYC_BEAT => ⟨0x300030, 32, 0x1000, 1, 0x4⟩
  | .ME_CYC_FLYWAIT => ⟨0x300034, 32, 0x1000, 1, 0x4⟩
  | .ME_CYC_FILL => ⟨0x300038, 32, 0x1000, 1, 0x4⟩
  | .ME_CNT_CLR => ⟨0x30003C, 32, 0x1000, 1, 0x4⟩
  | .ME_REP_ROW => ⟨0x300040, 32, 0x1000, 8, 0x4⟩
  | .ME_REP_COL => ⟨0x300060, 32, 0x1000, 8, 0x4⟩
  | .DR_STATUS => ⟨0x400000, 32, 0x1000, 1, 0x4⟩
  | .DR_TALLY => ⟨0x400010, 32, 0x1000, 1, 0x4⟩
  | .DR_TALLY_X => ⟨0x400014, 32, 0x1000, 1, 0x4⟩
  | .DR_CYC_BUSY => ⟨0x400020, 32, 0x1000, 1, 0x4⟩
  | .DR_CYC_SIDEWAIT => ⟨0x400024, 32, 0x1000, 1, 0x4⟩
  | .DR_CYC_RELWAIT => ⟨0x400028, 32, 0x1000, 1, 0x4⟩
  | .DR_CNT_CLR => ⟨0x40002C, 32, 0x1000, 1, 0x4⟩
  | .DR_FLT_LOG => ⟨0x400030, 32, 0x1000, 1, 0x4⟩
  | .VE_STATUS => ⟨0x500000, 16, 0x1000, 1, 0x4⟩
  | .VE_CYC_BUSY => ⟨0x500010, 16, 0x1000, 1, 0x4⟩
  | .VE_CYC_QTR => ⟨0x500014, 16, 0x1000, 1, 0x4⟩
  | .VE_CYC_FP64 => ⟨0x500018, 16, 0x1000, 1, 0x4⟩
  | .VE_CNT_CLR => ⟨0x50001C, 16, 0x1000, 1, 0x4⟩
  | .CO_NUM => ⟨0x200200, 16, 0x1000, 1, 0x4⟩
  | .CO_NUM_X => ⟨0x200204, 16, 0x1000, 1, 0x4⟩
  | .CO_NUM_STAT => ⟨0x200208, 16, 0x1000, 1, 0x4⟩
  | .CO_NUM_TBL_LO => ⟨0x20020C, 16, 0x1000, 1, 0x4⟩
  | .CO_NUM_TBL_HI => ⟨0x200210, 16, 0x1000, 1, 0x4⟩
  | .CO_CYC_SCWAIT => ⟨0x200214, 16, 0x1000, 1, 0x4⟩
  | .CO_RESCALE_CNT => ⟨0x200218, 16, 0x1000, 1, 0x4⟩
  | .CO_NUM_CLR => ⟨0x20021C, 16, 0x1000, 1, 0x4⟩
  | .CMD_NUMW => ⟨0x2300, 1, 0x4000000, 1, 0x4⟩
  | .CMD_NUMW_X => ⟨0x2304, 1, 0x4000000, 1, 0x4⟩
  | .CMD_NUMW_CNT => ⟨0x2308, 1, 0x4000000, 1, 0x4⟩
  | .CO_SECT => ⟨0x200000, 16, 0x1000, 1, 0x4⟩
  | .CO_ROUND => ⟨0x200004, 16, 0x1000, 1, 0x4⟩
  | .CO_CNT => ⟨0x200008, 16, 0x1000, 1, 0x4⟩
  | .CO_CNT_X => ⟨0x20000C, 16, 0x1000, 1, 0x4⟩
  | .CO_CNT_CLR => ⟨0x200010, 16, 0x1000, 1, 0x4⟩
  | .CO_DISCARD => ⟨0x200014, 16, 0x1000, 1, 0x4⟩
  | .CO_PROTO_LOG => ⟨0x200018, 16, 0x1000, 1, 0x4⟩
  | .CO_STN_BUSY => ⟨0x200400, 16, 0x1000, 6, 0x20⟩
  | .CO_STN_BLOCKED => ⟨0x200404, 16, 0x1000, 6, 0x20⟩
  | .CO_STN_STARVED => ⟨0x200408, 16, 0x1000, 6, 0x20⟩
  | .CO_STN_ASLEEP => ⟨0x20040C, 16, 0x1000, 6, 0x20⟩
  | .CO_STN_FIRINGS => ⟨0x200410, 16, 0x1000, 6, 0x20⟩
  | .CO_Q_FULL => ⟨0x200500, 16, 0x1000, 32, 0x10⟩
  | .CO_Q_EMPTY => ⟨0x200504, 16, 0x1000, 32, 0x10⟩
  | .CO_Q_PEAK => ⟨0x200508, 16, 0x1000, 32, 0x10⟩
  | .CMD_PERR => ⟨0x2100, 1, 0x4000000, 1, 0x4⟩
  | .CMD_PERR_LOC => ⟨0x2104, 1, 0x4000000, 1, 0x4⟩
  | .CMD_PERR_SHORT => ⟨0x2108, 1, 0x4000000, 1, 0x4⟩
  | .CMD_STRIKE => ⟨0x2110, 1, 0x4000000, 1, 0x4⟩
  | .CMD_STRIKE_X => ⟨0x2114, 1, 0x4000000, 1, 0x4⟩
  | .CMD_STRIKE_ST => ⟨0x2118, 1, 0x4000000, 1, 0x4⟩
  | .CMD_SVC => ⟨0x2120, 1, 0x4000000, 1, 0x4⟩
  | .CMD_SVC_X => ⟨0x2124, 1, 0x4000000, 1, 0x4⟩
  | .CMD_WCLOST => ⟨0x2140, 1, 0x4000000, 1, 0x4⟩
  | .CO_IFLT => ⟨0x200100, 16, 0x1000, 1, 0x4⟩
  | .CO_IFLT_PC => ⟨0x200104, 16, 0x1000, 1, 0x4⟩
  | .CO_IFLT_AUX => ⟨0x200108, 16, 0x1000, 1, 0x4⟩
  | .CO_IFLT_AUXH => ⟨0x20010C, 16, 0x1000, 1, 0x4⟩
  | .CO_DONE => ⟨0x200110, 16, 0x1000, 6, 0x4⟩
  | .CO_INHAND => ⟨0x200128, 16, 0x1000, 1, 0x4⟩
  | .CO_STEP => ⟨0x200130, 16, 0x1000, 1, 0x4⟩
  | .CO_MVLOG => ⟨0x200134, 16, 0x1000, 1, 0x4⟩
  | .CO_MVLOG_DEV => ⟨0x200138, 16, 0x1000, 1, 0x4⟩
  | .CO_MVLOG_EP => ⟨0x20013C, 16, 0x1000, 1, 0x4⟩
  | .CO_HOLDS => ⟨0x200140, 16, 0x1000, 6, 0x4⟩
  | .MD_SC => ⟨0x20000, 4, 0x1000, 1, 0x4⟩
  | .MD_SC_X => ⟨0x20004, 4, 0x1000, 1, 0x4⟩
  | .MD_SPLIT => ⟨0x20010, 4, 0x1000, 1, 0x4⟩
  | .MD_POOL_USED => ⟨0x20014, 4, 0x1000, 1, 0x4⟩
  | .MD_PF => ⟨0x20020, 4, 0x1000, 1, 0x4⟩
  | .MD_PF_X => ⟨0x20024, 4, 0x1000, 1, 0x4⟩
  | .MD_PF_ST => ⟨0x20028, 4, 0x1000, 1, 0x4⟩
  | .MD_EVICT => ⟨0x2002C, 4, 0x1000, 1, 0x4⟩
  | .MD_SPILL => ⟨0x20030, 4, 0x1000, 1, 0x4⟩
  | .MD_ECC_CE => ⟨0x20040, 4, 0x1000, 1, 0x4⟩
  | .MD_ECC_UE => ⟨0x20044, 4, 0x1000, 1, 0x4⟩
  | .MD_ECC_LOG => ⟨0x20048, 4, 0x1000, 1, 0x4⟩
  | .MD_CNT_CLR => ⟨0x2004C, 4, 0x1000, 1, 0x4⟩
  | .CL_POOL => ⟨0x100040, 8, 0x1000, 1, 0x4⟩
  | .CL_POOL_X => ⟨0x100044, 8, 0x1000, 1, 0x4⟩
  | .HBM_STATUS => ⟨0x28000, 8, 0x1000, 1, 0x4⟩
  | .HBM_BURST_RD => ⟨0x28010, 8, 0x1000, 1, 0x4⟩
  | .HBM_BURST_WR => ⟨0x28014, 8, 0x1000, 1, 0x4⟩
  | .HBM_BURST_RM => ⟨0x28018, 8, 0x1000, 1, 0x4⟩
  | .HBM_IDLE => ⟨0x2801C, 8, 0x1000, 1, 0x4⟩
  | .HBM_UNLENT => ⟨0x28020, 8, 0x1000, 1, 0x4⟩
  | .HBM_ECC_CE => ⟨0x28030, 8, 0x1000, 1, 0x4⟩
  | .HBM_ECC_UE => ⟨0x28034, 8, 0x1000, 1, 0x4⟩
  | .HBM_ECC_LOG => ⟨0x28038, 8, 0x1000, 1, 0x4⟩
  | .HBM_SCRUB => ⟨0x28040, 8, 0x1000, 1, 0x4⟩
  | .HBM_SCRUB_X => ⟨0x28044, 8, 0x1000, 1, 0x4⟩
  | .HBM_CNT_CLR => ⟨0x2804C, 8, 0x1000, 1, 0x4⟩
  | .CO_FQ_FETCHED => ⟨0x200700, 16, 0x1000, 32, 0x10⟩
  | .CO_FQ_WASTE => ⟨0x200704, 16, 0x1000, 32, 0x10⟩
  | .CO_FQ_MEMWAIT => ⟨0x200708, 16, 0x1000, 32, 0x10⟩
  | .CO_FQ_STAT => ⟨0x20070C, 16, 0x1000, 32, 0x10⟩
  | .CL_NET => ⟨0x100080, 8, 0x1000, 1, 0x4⟩
  | .CL_NET_X => ⟨0x100084, 8, 0x1000, 1, 0x4⟩
  | .CL_NET_LINK => ⟨0x100088, 8, 0x1000, 1, 0x4⟩
  | .CL_NET_RETRY => ⟨0x100090, 8, 0x1000, 1, 0x4⟩
  | .CL_NET_FDROP => ⟨0x100094, 8, 0x1000, 1, 0x4⟩
  | .CL_NET_BAD => ⟨0x100098, 8, 0x1000, 1, 0x4⟩
  | .CL_NET_CLR => ⟨0x10009C, 8, 0x1000, 1, 0x4⟩
  | .MD_MERGE => ⟨0x20060, 4, 0x1000, 1, 0x4⟩
  | .MD_MERGE_X => ⟨0x20064, 4, 0x1000, 1, 0x4⟩
  | .MD_MERGED => ⟨0x20068, 4, 0x1000, 1, 0x4⟩
  | .IKF_SELF => ⟨0x6000, 1, 0x4000000, 1, 0x4⟩
  | .IKF_TORUS => ⟨0x6004, 1, 0x4000000, 1, 0x4⟩
  | .IKF_ARB => ⟨0x6010, 1, 0x4000000, 1, 0x4⟩
  | .IKF_ARB_X => ⟨0x6014, 1, 0x4000000, 1, 0x4⟩
  | .IKF_RTO => ⟨0x6018, 1, 0x4000000, 1, 0x4⟩
  | .IKF_RTO_X => ⟨0x601C, 1, 0x4000000, 1, 0x4⟩
  | .IKF_MAP_CTL => ⟨0x6020, 1, 0x4000000, 1, 0x4⟩
  | .IKF_REQ_OUT => ⟨0x6030, 1, 0x4000000, 1, 0x4⟩
  | .IKF_UNREACH => ⟨0x6034, 1, 0x4000000, 1, 0x4⟩
  | .IKF_AUTH_FAIL => ⟨0x6038, 1, 0x4000000, 1, 0x4⟩
  | .IKF_DROP => ⟨0x603C, 1, 0x4000000, 1, 0x4⟩
  | .IKF_TDROP => ⟨0x6040, 1, 0x4000000, 1, 0x4⟩
  | .IKF_CLR => ⟨0x6044, 1, 0x4000000, 1, 0x4⟩
  | .IKF_DEG => ⟨0x6050, 1, 0x4000000, 1, 0x4⟩
  | .IKF_DEG_X => ⟨0x6054, 1, 0x4000000, 1, 0x4⟩
  | .IKF_MAP => ⟨0x6400, 256, 0x4, 1, 0x4⟩
  | .IKF_PST => ⟨0x6100, 6, 0x40, 1, 0x4⟩
  | .IKF_PRETRY => ⟨0x6104, 6, 0x40, 1, 0x4⟩
  | .IKF_PFEC_COR => ⟨0x6108, 6, 0x40, 1, 0x4⟩
  | .IKF_PFEC_UNC => ⟨0x610C, 6, 0x40, 1, 0x4⟩
  | .IKF_PDEG => ⟨0x6110, 6, 0x40, 1, 0x4⟩
  | .IKF_PDETOUR => ⟨0x6114, 6, 0x40, 1, 0x4⟩
  | .IKF_PCLR => ⟨0x6118, 6, 0x40, 1, 0x4⟩
  | .IKF_RED => ⟨0x6300, 1, 0x4000000, 1, 0x4⟩
  | .IKF_RED_X => ⟨0x6304, 1, 0x4000000, 1, 0x4⟩
  | .IKF_RED_X2 => ⟨0x6308, 1, 0x4000000, 1, 0x4⟩
  | .IKF_RED_X3 => ⟨0x630C, 1, 0x4000000, 1, 0x4⟩
  | .IKF_RED_ACT => ⟨0x6310, 1, 0x4000000, 1, 0x4⟩
  | .IKF_RED_LATE => ⟨0x6314, 1, 0x4000000, 1, 0x4⟩
  | .IKF_RED_DROP => ⟨0x6318, 1, 0x4000000, 1, 0x4⟩
  | .IKF_RED_SKIP => ⟨0x631C, 1, 0x4000000, 1, 0x4⟩
  | .IKF_RED_ESC => ⟨0x6320, 1, 0x4000000, 1, 0x4⟩
  | .IKF_RED_NF => ⟨0x6324, 1, 0x4000000, 1, 0x4⟩
  | .IKF_RED_PART => ⟨0x6328, 1, 0x4000000, 1, 0x4⟩
  | .IKF_RED_LOG => ⟨0x632C, 1, 0x4000000, 1, 0x4⟩
  | .IKF_RED_LOGQ => ⟨0x6330, 1, 0x4000000, 1, 0x4⟩
  | .IKF_RED_LOGP => ⟨0x6334, 1, 0x4000000, 1, 0x4⟩
  | .IKF_RED_HOLD => ⟨0x6338, 1, 0x4000000, 1, 0x4⟩
  | .IKF_RED_CLR => ⟨0x633C, 1, 0x4000000, 1, 0x4⟩
  | .CMD_SHTAB_LO => ⟨0x2150, 1, 0x4000000, 1, 0x4⟩
  | .CMD_SHTAB_HI => ⟨0x2154, 1, 0x4000000, 1, 0x4⟩
  | .CMD_SHTAB_N => ⟨0x2158, 1, 0x4000000, 1, 0x4⟩
  | .CMD_SHEP => ⟨0x215C, 1, 0x4000000, 1, 0x4⟩
  | .CMD_JOB => ⟨0x2160, 1, 0x4000000, 1, 0x4⟩
  | .CMD_STEP => ⟨0x2164, 1, 0x4000000, 1, 0x4⟩
  | .CMD_COMMITTED => ⟨0x2168, 1, 0x4000000, 1, 0x4⟩
  | .CMD_JOBMAP_LO => ⟨0x216C, 1, 0x4000000, 1, 0x4⟩
  | .CMD_JOBMAP_HI => ⟨0x2170, 1, 0x4000000, 1, 0x4⟩
  | .CMD_JERR => ⟨0x2174, 1, 0x4000000, 1, 0x4⟩
  | .CMD_BAR => ⟨0x2178, 1, 0x4000000, 1, 0x4⟩
  | .CMD_BAR_X => ⟨0x217C, 1, 0x4000000, 1, 0x4⟩
  | .CMD_STEPCNT => ⟨0x2180, 1, 0x4000000, 1, 0x4⟩
  | .CMD_ABORTCNT => ⟨0x2184, 1, 0x4000000, 1, 0x4⟩
  | .CMD_SNAP => ⟨0x2188, 1, 0x4000000, 1, 0x4⟩
  | .CMD_SNAP_STEP => ⟨0x218C, 1, 0x4000000, 1, 0x4⟩
  | .STO_CKPT => ⟨0x4000, 1, 0x4000000, 1, 0x4⟩
  | .STO_CKPT_X => ⟨0x4004, 1, 0x4000000, 1, 0x4⟩
  | .STO_ST => ⟨0x4010, 1, 0x4000000, 1, 0x4⟩
  | .STO_LAST_OWN => ⟨0x4014, 1, 0x4000000, 1, 0x4⟩
  | .STO_LAST_BUD => ⟨0x4018, 1, 0x4000000, 1, 0x4⟩
  | .STO_PLAN => ⟨0x401C, 1, 0x4000000, 1, 0x4⟩
  | .STO_NSTEP => ⟨0x4020, 1, 0x4000000, 1, 0x4⟩
  | .STO_CKCNT => ⟨0x4024, 1, 0x4000000, 1, 0x4⟩
  | .STO_STALL => ⟨0x4028, 1, 0x4000000, 1, 0x4⟩
  | .STO_RATE => ⟨0x402C, 1, 0x4000000, 1, 0x4⟩
  | .STO_PE => ⟨0x4030, 1, 0x4000000, 1, 0x4⟩
  | .STO_PSLC => ⟨0x4034, 1, 0x4000000, 1, 0x4⟩
  | .STO_BAD => ⟨0x4038, 1, 0x4000000, 1, 0x4⟩
  | .STO_REST => ⟨0x403C, 1, 0x4000000, 1, 0x4⟩
  | .STO_CLR => ⟨0x4040, 1, 0x4000000, 1, 0x4⟩
  | .STO_SCRUB => ⟨0x4050, 1, 0x4000000, 1, 0x4⟩
  | .STO_SCRUB_X => ⟨0x4054, 1, 0x4000000, 1, 0x4⟩
  | .NAND_IF => ⟨0x5000, 1, 0x4000000, 1, 0x4⟩
  | .NAND_IF_X => ⟨0x5004, 1, 0x4000000, 1, 0x4⟩
  | .NAND_CLR => ⟨0x5008, 1, 0x4000000, 1, 0x4⟩
  | .NAND_ST => ⟨0x5100, 16, 0x40, 1, 0x4⟩
  | .NAND_CW_COR => ⟨0x5104, 16, 0x40, 1, 0x4⟩
  | .NAND_RETRY => ⟨0x5108, 16, 0x40, 1, 0x4⟩
  | .NAND_SOFT => ⟨0x510C, 16, 0x40, 1, 0x4⟩
  | .NAND_UNC => ⟨0x5110, 16, 0x40, 1, 0x4⟩
  | .NAND_PEFAIL => ⟨0x5114, 16, 0x40, 1, 0x4⟩
  | .HIF_ST => ⟨0x10000, 1, 0x4000000, 1, 0x4⟩
  | .HIF_ERR => ⟨0x10004, 1, 0x4000000, 1, 0x4⟩
  | .HIF_ERR_ADDR => ⟨0x10008, 1, 0x4000000, 1, 0x4⟩
  | .HIF_AGE => ⟨0x10010, 1, 0x4000000, 1, 0x4⟩
  | .HIF_AGE_X => ⟨0x10014, 1, 0x4000000, 1, 0x4⟩
  | .HIF_Q_ACT => ⟨0x10018, 1, 0x4000000, 1, 0x4⟩
  | .HIF_PROMO => ⟨0x1001C, 1, 0x4000000, 1, 0x4⟩
  | .HIF_FWQBASE => ⟨0x10020, 1, 0x4000000, 1, 0x4⟩
  | .HIF_FN_QBASE => ⟨0x11000, 64, 0x100, 1, 0x4⟩
  | .HIF_FN_CTL => ⟨0x11004, 64, 0x100, 1, 0x4⟩
  | .HIF_FN_ASQ_LO => ⟨0x11008, 64, 0x100, 1, 0x4⟩
  | .HIF_FN_ASQ_HI => ⟨0x1100C, 64, 0x100, 1, 0x4⟩
  | .HIF_FN_ACQ_LO => ⟨0x11010, 64, 0x100, 1, 0x4⟩
  | .HIF_FN_ACQ_HI => ⟨0x11014, 64, 0x100, 1, 0x4⟩
  | .HIF_FN_AEQ_LO => ⟨0x11018, 64, 0x100, 1, 0x4⟩
  | .HIF_FN_AEQ_HI => ⟨0x1101C, 64, 0x100, 1, 0x4⟩
  | .HIF_FN_ST => ⟨0x11020, 64, 0x100, 1, 0x4⟩
  | .HIF_FN_MSIX => ⟨0x11024, 64, 0x100, 1, 0x4⟩
  | .HIF_FN_DBDROP => ⟨0x11028, 64, 0x100, 1, 0x4⟩
  | .HIF_WIN_LO => ⟨0x11040, 64, 0x100, 16, 0x8⟩
  | .HIF_WIN_HI => ⟨0x11044, 64, 0x100, 16, 0x8⟩
  | .SEC_ST => ⟨0x1000, 1, 0x4000000, 1, 0x4⟩
  | .SEC_ERR => ⟨0x1004, 1, 0x4000000, 1, 0x4⟩
  | .SEC_WORLD_CORE => ⟨0x1010, 1, 0x4000000, 1, 0x4⟩
  | .SEC_WORLD_CL => ⟨0x1014, 1, 0x4000000, 1, 0x4⟩
  | .SEC_DBG => ⟨0x1020, 1, 0x4000000, 1, 0x4⟩
  | .SEC_WV => ⟨0x1030, 1, 0x4000000, 1, 0x4⟩
  | .SEC_WV_X => ⟨0x1034, 1, 0x4000000, 1, 0x4⟩
  | .SEC_WV_CNT => ⟨0x1038, 1, 0x4000000, 1, 0x4⟩
  | .SEC_WV_LOG => ⟨0x103C, 1, 0x4000000, 1, 0x4⟩
  | .SEC_WV_ADDR_LO => ⟨0x1040, 1, 0x4000000, 1, 0x4⟩
  | .SEC_WV_ADDR_HI => ⟨0x1044, 1, 0x4000000, 1, 0x4⟩
  | .SEC_WV_CLR => ⟨0x1048, 1, 0x4000000, 1, 0x4⟩
  | .SEC_IDPUB => ⟨0x1100, 16, 0x4, 1, 0x4⟩
  | .SEC_MEAS => ⟨0x1220, 10, 0x20, 8, 0x4⟩
  | .SEC_REG_LO => ⟨0x1400, 64, 0x8, 1, 0x4⟩
  | .SEC_REG_HI => ⟨0x1404, 64, 0x8, 1, 0x4⟩
  | .BC_FW_WD => ⟨0x400, 1, 0x4000000, 1, 0x4⟩
  | .BC_FW_WD_X => ⟨0x404, 1, 0x4000000, 1, 0x4⟩
  | .BC_FW_BANK => ⟨0x408, 1, 0x4000000, 1, 0x4⟩
  | .BC_FW_KICK => ⟨0x40C, 1, 0x4000000, 1, 0x4⟩
  | .BC_FW_ST => ⟨0x410, 1, 0x4000000, 1, 0x4⟩
  | .BC_FW_VER => ⟨0x420, 5, 0x10, 1, 0x4⟩
  | .BC_FW_SVN => ⟨0x424, 5, 0x10, 1, 0x4⟩
  | .BC_FW_RST => ⟨0x428, 5, 0x10, 1, 0x4⟩
  | .BC_FW_CAUSE => ⟨0x42C, 5, 0x10, 1, 0x4⟩
  | .EVG_CTL => ⟨0x8000, 5, 0x1000, 1, 0x4⟩
  | .EVG_BP => ⟨0x8004, 5, 0x1000, 1, 0x4⟩
  | .EVG_TOP => ⟨0x8008, 5, 0x1000, 1, 0x4⟩
  | .EVG_TAKE => ⟨0x800C, 5, 0x1000, 1, 0x4⟩
  | .EVG_RUN => ⟨0x8010, 5, 0x1000, 1, 0x4⟩
  | .EVG_EOI => ⟨0x8014, 5, 0x1000, 1, 0x4⟩
  | .EVG_PRIO => ⟨0x8100, 5, 0x1000, 256, 0x4⟩
  | .EVG_EN => ⟨0x8500, 5, 0x1000, 32, 0x4⟩
  | .EVG_PEND => ⟨0x8580, 5, 0x1000, 32, 0x4⟩
  | .EVG_PSET => ⟨0x8600, 5, 0x1000, 32, 0x4⟩
  | .EVG_PCLR => ⟨0x8680, 5, 0x1000, 32, 0x4⟩
  | .EVG_ACT => ⟨0x8700, 5, 0x1000, 32, 0x4⟩
  | .LNT_BASE_LO => ⟨0x7000, 5, 0x40, 1, 0x4⟩
  | .LNT_BASE_HI => ⟨0x7004, 5, 0x40, 1, 0x4⟩
  | .LNT_HEAD => ⟨0x7008, 5, 0x40, 1, 0x4⟩
  | .LNT_SEQ => ⟨0x700C, 5, 0x40, 1, 0x4⟩
  | .LNT_LVL => ⟨0x7010, 5, 0x40, 1, 0x4⟩
  | .LNT_MASK => ⟨0x7014, 5, 0x40, 1, 0x4⟩
  | .BC_PWR => ⟨0x0, 1, 0x4000000, 1, 0x4⟩
  | .BC_PWR_X => ⟨0x4, 1, 0x4000000, 1, 0x4⟩
  | .BC_LCNT_LO => ⟨0x8, 1, 0x4000000, 1, 0x4⟩
  | .BC_LCNT_HI => ⟨0xC, 1, 0x4000000, 1, 0x4⟩
  | .BC_SLEEP => ⟨0x10, 1, 0x4000000, 1, 0x4⟩
  | .BC_SLEEP_X => ⟨0x14, 1, 0x4000000, 1, 0x4⟩
  | .BC_PWR_ST => ⟨0x18, 1, 0x4000000, 1, 0x4⟩
  | .BC_LK_ST => ⟨0x20, 1, 0x4000000, 1, 0x4⟩
  | .BC_LK_CNT => ⟨0x24, 1, 0x4000000, 1, 0x4⟩
  | .BC_PKG_PWR => ⟨0x28, 1, 0x4000000, 1, 0x4⟩
  | .BC_ENERGY_LO => ⟨0x2C, 1, 0x4000000, 1, 0x4⟩
  | .BC_ENERGY_HI => ⟨0x30, 1, 0x4000000, 1, 0x4⟩
  | .BC_TJ_MAX => ⟨0x34, 1, 0x4000000, 1, 0x4⟩
  | .BC_LK_CLR => ⟨0x38, 1, 0x4000000, 1, 0x4⟩
  | .BC_VF => ⟨0x40, 16, 0x4, 1, 0x4⟩
  | .BC_CL => ⟨0x100, 8, 0x10, 1, 0x4⟩
  | .BC_CL_F => ⟨0x104, 8, 0x10, 1, 0x4⟩
  | .BC_CL_T => ⟨0x108, 8, 0x10, 1, 0x4⟩
  | .BC_RAIL => ⟨0x200, 4, 0x4, 1, 0x4⟩
  | .CL_PST => ⟨0x100000, 8, 0x1000, 1, 0x4⟩
  | .CL_DOZES => ⟨0x100004, 8, 0x1000, 1, 0x4⟩
  | .CL_WEP0 => ⟨0x100010, 8, 0x1000, 1, 0x4⟩
  | .CL_WEP1 => ⟨0x100014, 8, 0x1000, 1, 0x4⟩
  | .BC_BOOT => ⟨0x300, 1, 0x4000000, 1, 0x4⟩
  | .BC_BOOT_X => ⟨0x304, 1, 0x4000000, 1, 0x4⟩
  | .BC_BOOT_ST => ⟨0x308, 1, 0x4000000, 1, 0x4⟩
  | .BC_BOOT_UNAV => ⟨0x30C, 1, 0x4000000, 1, 0x4⟩
  | .BC_RET_SEQ_LO => ⟨0x310, 1, 0x4000000, 1, 0x4⟩
  | .BC_RET_SEQ_HI => ⟨0x314, 1, 0x4000000, 1, 0x4⟩
  | .BC_RET_WR => ⟨0x318, 1, 0x4000000, 1, 0x4⟩
  | .BC_READY_T => ⟨0x31C, 1, 0x4000000, 1, 0x4⟩
  | .CMD_FLT => ⟨0x2190, 1, 0x4000000, 1, 0x4⟩
  | .CMD_FLT_X => ⟨0x2194, 1, 0x4000000, 1, 0x4⟩
  | .CMD_FLT_ST => ⟨0x2198, 1, 0x4000000, 1, 0x4⟩
  | .CMD_FLT_SR => ⟨0x219C, 1, 0x4000000, 1, 0x4⟩
  | .CMD_FLT_FEN => ⟨0x21A0, 1, 0x4000000, 1, 0x4⟩
  | .CMD_FLT_LOG => ⟨0x21A4, 1, 0x4000000, 1, 0x4⟩
  | .CMD_FLT_PEER => ⟨0x21A8, 1, 0x4000000, 1, 0x4⟩
  | .CMD_FLT_CLR => ⟨0x21AC, 1, 0x4000000, 1, 0x4⟩
  | .CL_ECC_CE => ⟨0x1000C0, 8, 0x1000, 1, 0x4⟩
  | .CL_ECC_UE => ⟨0x1000C4, 8, 0x1000, 1, 0x4⟩
  | .CL_ECC_LOG => ⟨0x1000C8, 8, 0x1000, 1, 0x4⟩
  | .CL_ECC_CLR => ⟨0x1000CC, 8, 0x1000, 1, 0x4⟩
  | .BC_RAIL_ST => ⟨0x500, 1, 0x4000000, 1, 0x4⟩
  | .BC_RAIL_GOOD => ⟨0x504, 1, 0x4000000, 1, 0x4⟩
  | .BC_I3C => ⟨0x508, 1, 0x4000000, 1, 0x4⟩

/-- The fields of a register, by its chapter's register table. -/
def RegId.fields : RegId → List FieldDef
  | .ME_STATUS => [⟨0, 0, .ro, 0x0, false⟩, ⟨1, 1, .ro, 0x0, false⟩, ⟨2, 3, .ro, 0x0, false⟩, ⟨4, 4, .ro, 0x0, false⟩, ⟨5, 5, .w1c, 0x0, false⟩, ⟨6, 6, .ro, 0x0, true⟩, ⟨7, 7, .ro, 0x0, false⟩, ⟨8, 8, .w1c, 0x0, false⟩, ⟨9, 9, .w1c, 0x0, false⟩, ⟨10, 10, .w1c, 0x0, false⟩]
  | .ME_LAT => [⟨0, 3, .ro, 0x6, false⟩, ⟨4, 7, .ro, 0x0, true⟩, ⟨8, 11, .ro, 0x0, true⟩]
  | .ME_FILL => [⟨0, 0, .rw, 0x1, true⟩]
  | .ME_FILL_X => [⟨0, 8, .rw, 0x40, true⟩, ⟨10, 15, .rw, 0x8, true⟩, ⟨16, 17, .rw, 0x0, true⟩]
  | .ME_CHK => [⟨0, 1, .rw, 0x0, true⟩]
  | .ME_CHK_X => [⟨0, 3, .rw, 0x4, true⟩, ⟨4, 6, .rw, 0x0, true⟩]
  | .ME_CHK_CNT => [⟨0, 15, .ro, 0x0, false⟩, ⟨16, 23, .ro, 0x0, false⟩, ⟨24, 31, .ro, 0x0, false⟩]
  | .ME_CHK_LOG => [⟨0, 9, .ro, 0x0, false⟩, ⟨10, 11, .ro, 0x0, false⟩, ⟨16, 31, .ro, 0x0, false⟩]
  | .ME_CYC_BEAT => [⟨0, 31, .ro, 0x0, false⟩]
  | .ME_CYC_FLYWAIT => [⟨0, 31, .ro, 0x0, false⟩]
  | .ME_CYC_FILL => [⟨0, 31, .ro, 0x0, false⟩]
  | .ME_CNT_CLR => [⟨0, 0, .wo, 0x0, false⟩, ⟨1, 1, .wo, 0x0, false⟩]
  | .ME_REP_ROW => [⟨0, 8, .sec, 0x0, true⟩, ⟨15, 15, .sec, 0x0, true⟩]
  | .ME_REP_COL => [⟨0, 9, .sec, 0x0, true⟩, ⟨15, 15, .sec, 0x0, true⟩]
  | .DR_STATUS => [⟨0, 0, .ro, 0x0, false⟩, ⟨1, 2, .ro, 0x0, false⟩, ⟨3, 3, .ro, 0x0, false⟩, ⟨4, 4, .w1c, 0x0, false⟩, ⟨5, 5, .w1c, 0x0, false⟩]
  | .DR_TALLY => [⟨0, 0, .rw, 0x0, true⟩]
  | .DR_TALLY_X => [⟨0, 0, .rw, 0x1, true⟩, ⟨1, 1, .rw, 0x1, true⟩, ⟨2, 2, .rw, 0x1, true⟩, ⟨3, 3, .rw, 0x0, true⟩]
  | .DR_CYC_BUSY => [⟨0, 31, .ro, 0x0, false⟩]
  | .DR_CYC_SIDEWAIT => [⟨0, 31, .ro, 0x0, false⟩]
  | .DR_CYC_RELWAIT => [⟨0, 31, .ro, 0x0, false⟩]
  | .DR_CNT_CLR => [⟨0, 0, .wo, 0x0, false⟩]
  | .DR_FLT_LOG => [⟨0, 3, .ro, 0x0, false⟩, ⟨4, 7, .ro, 0x0, false⟩]
  | .VE_STATUS => [⟨0, 0, .ro, 0x0, false⟩, ⟨1, 1, .ro, 0x0, false⟩]
  | .VE_CYC_BUSY => [⟨0, 31, .ro, 0x0, false⟩]
  | .VE_CYC_QTR => [⟨0, 31, .ro, 0x0, false⟩]
  | .VE_CYC_FP64 => [⟨0, 31, .ro, 0x0, false⟩]
  | .VE_CNT_CLR => [⟨0, 0, .wo, 0x0, false⟩]
  | .CO_NUM => [⟨0, 1, .rw, 0x0, true⟩, ⟨2, 2, .rw, 0x1, true⟩]
  | .CO_NUM_X => [⟨0, 4, .rw, 0x10, true⟩, ⟨5, 7, .rw, 0x1, true⟩, ⟨8, 15, .rw, 0xFF, true⟩, ⟨16, 20, .rw, 0x1F, true⟩, ⟨24, 24, .rw, 0x1, true⟩]
  | .CO_NUM_STAT => [⟨0, 0, .w1c, 0x0, false⟩, ⟨1, 1, .ro, 0x0, false⟩, ⟨2, 2, .ro, 0x0, false⟩]
  | .CO_NUM_TBL_LO => [⟨12, 31, .ro, 0x0, false⟩]
  | .CO_NUM_TBL_HI => [⟨0, 15, .ro, 0x0, false⟩]
  | .CO_CYC_SCWAIT => [⟨0, 31, .ro, 0x0, false⟩]
  | .CO_RESCALE_CNT => [⟨0, 15, .ro, 0x0, false⟩, ⟨16, 31, .ro, 0x0, false⟩]
  | .CO_NUM_CLR => [⟨0, 0, .wo, 0x0, false⟩]
  | .CMD_NUMW => [⟨0, 1, .rw, 0x1, true⟩, ⟨8, 8, .w1c, 0x0, false⟩]
  | .CMD_NUMW_X => [⟨0, 0, .rw, 0x1, true⟩, ⟨1, 1, .rw, 0x0, true⟩, ⟨2, 2, .rw, 0x0, true⟩, ⟨8, 15, .rw, 0xF0, true⟩, ⟨16, 31, .rw, 0x10, true⟩]
  | .CMD_NUMW_CNT => [⟨0, 31, .ro, 0x0, false⟩]
  | .CO_SECT => [⟨0, 15, .ro, 0x0, false⟩, ⟨16, 18, .ro, 0x0, false⟩, ⟨20, 21, .ro, 0x0, false⟩]
  | .CO_ROUND => [⟨0, 31, .ro, 0x0, false⟩]
  | .CO_CNT => [⟨0, 1, .rw, 0x2, true⟩, ⟨8, 8, .w1c, 0x0, false⟩]
  | .CO_CNT_X => [⟨0, 0, .rw, 0x1, true⟩, ⟨1, 1, .rw, 0x1, true⟩]
  | .CO_CNT_CLR => [⟨0, 0, .wo, 0x0, false⟩]
  | .CO_DISCARD => [⟨0, 31, .ro, 0x0, false⟩]
  | .CO_PROTO_LOG => [⟨0, 4, .ro, 0x0, false⟩, ⟨8, 10, .ro, 0x0, false⟩, ⟨16, 31, .ro, 0x0, false⟩]
  | .CO_STN_BUSY => [⟨0, 31, .ro, 0x0, false⟩]
  | .CO_STN_BLOCKED => [⟨0, 31, .ro, 0x0, false⟩]
  | .CO_STN_STARVED => [⟨0, 31, .ro, 0x0, false⟩]
  | .CO_STN_ASLEEP => [⟨0, 31, .ro, 0x0, false⟩]
  | .CO_STN_FIRINGS => [⟨0, 31, .ro, 0x0, false⟩]
  | .CO_Q_FULL => [⟨0, 31, .ro, 0x0, false⟩]
  | .CO_Q_EMPTY => [⟨0, 31, .ro, 0x0, false⟩]
  | .CO_Q_PEAK => [⟨0, 6, .ro, 0x0, false⟩]
  | .CMD_PERR => [⟨0, 3, .ro, 0x0, false⟩, ⟨16, 31, .ro, 0x0, false⟩]
  | .CMD_PERR_LOC => [⟨0, 15, .ro, 0x0, false⟩, ⟨16, 31, .ro, 0x0, false⟩]
  | .CMD_PERR_SHORT => [⟨0, 15, .ro, 0x0, false⟩, ⟨16, 31, .ro, 0x0, false⟩]
  | .CMD_STRIKE => [⟨0, 0, .rw, 0x0, true⟩, ⟨8, 8, .w1c, 0x0, false⟩]
  | .CMD_STRIKE_X => [⟨0, 5, .rw, 0x28, true⟩]
  | .CMD_STRIKE_ST => [⟨0, 0, .w1c, 0x0, false⟩, ⟨16, 31, .ro, 0x0, false⟩]
  | .CMD_SVC => [⟨0, 0, .rw, 0x1, true⟩, ⟨8, 8, .w1c, 0x0, false⟩]
  | .CMD_SVC_X => [⟨0, 15, .rw, 0x1, true⟩]
  | .CMD_WCLOST => [⟨0, 31, .ro, 0x0, false⟩]
  | .CO_IFLT => [⟨0, 3, .ro, 0x0, false⟩, ⟨8, 10, .ro, 0x0, false⟩, ⟨16, 23, .ro, 0x0, false⟩, ⟨31, 31, .w1c, 0x0, false⟩]
  | .CO_IFLT_PC => [⟨0, 15, .ro, 0x0, false⟩]
  | .CO_IFLT_AUX => [⟨0, 31, .ro, 0x0, false⟩]
  | .CO_IFLT_AUXH => [⟨0, 15, .ro, 0x0, false⟩]
  | .CO_DONE => [⟨0, 31, .ro, 0x0, false⟩]
  | .CO_INHAND => [⟨0, 1, .ro, 0x0, false⟩, ⟨2, 3, .ro, 0x0, false⟩, ⟨4, 5, .ro, 0x0, false⟩, ⟨6, 6, .ro, 0x0, false⟩, ⟨7, 7, .ro, 0x0, false⟩]
  | .CO_STEP => [⟨0, 31, .ro, 0x0, false⟩]
  | .CO_MVLOG => [⟨0, 3, .ro, 0x0, false⟩, ⟨8, 10, .ro, 0x0, false⟩, ⟨16, 23, .ro, 0x0, false⟩, ⟨31, 31, .w1c, 0x0, false⟩]
  | .CO_MVLOG_DEV => [⟨0, 14, .ro, 0x0, false⟩]
  | .CO_MVLOG_EP => [⟨0, 31, .ro, 0x0, false⟩]
  | .CO_HOLDS => [⟨0, 31, .ro, 0x0, false⟩]
  | .MD_SC => [⟨0, 1, .rw, 0x0, true⟩, ⟨8, 8, .w1c, 0x0, false⟩]
  | .MD_SC_X => [⟨0, 6, .rw, 0x40, true⟩]
  | .MD_SPLIT => [⟨0, 4, .ro, 0xC, false⟩, ⟨8, 12, .ro, 0x5, false⟩, ⟨16, 20, .ro, 0x3, false⟩]
  | .MD_POOL_USED => [⟨0, 15, .ro, 0x0, false⟩]
  | .MD_PF => [⟨0, 0, .rw, 0x1, true⟩, ⟨8, 8, .w1c, 0x0, false⟩]
  | .MD_PF_X => [⟨0, 0, .rw, 0x1, true⟩, ⟨1, 1, .rw, 0x1, true⟩, ⟨2, 2, .rw, 0x1, true⟩]
  | .MD_PF_ST => [⟨0, 15, .ro, 0x0, false⟩, ⟨16, 31, .ro, 0x0, false⟩]
  | .MD_EVICT => [⟨0, 31, .ro, 0x0, false⟩]
  | .MD_SPILL => [⟨0, 31, .ro, 0x0, false⟩]
  | .MD_ECC_CE => [⟨0, 31, .ro, 0x0, false⟩]
  | .MD_ECC_UE => [⟨0, 15, .ro, 0x0, false⟩]
  | .MD_ECC_LOG => [⟨0, 31, .ro, 0x0, false⟩]
  | .MD_CNT_CLR => [⟨0, 0, .wo, 0x0, false⟩]
  | .CL_POOL => [⟨0, 1, .rw, 0x0, true⟩, ⟨8, 8, .w1c, 0x0, false⟩]
  | .CL_POOL_X => [⟨0, 4, .rw, 0x10, true⟩]
  | .HBM_STATUS => [⟨0, 0, .ro, 0x0, false⟩, ⟨1, 1, .ro, 0x0, false⟩]
  | .HBM_BURST_RD => [⟨0, 31, .ro, 0x0, false⟩]
  | .HBM_BURST_WR => [⟨0, 31, .ro, 0x0, false⟩]
  | .HBM_BURST_RM => [⟨0, 31, .ro, 0x0, false⟩]
  | .HBM_IDLE => [⟨0, 31, .ro, 0x0, false⟩]
  | .HBM_UNLENT => [⟨0, 31, .ro, 0x0, false⟩]
  | .HBM_ECC_CE => [⟨0, 31, .ro, 0x0, false⟩]
  | .HBM_ECC_UE => [⟨0, 15, .ro, 0x0, false⟩]
  | .HBM_ECC_LOG => [⟨0, 31, .ro, 0x0, false⟩]
  | .HBM_SCRUB => [⟨0, 0, .rw, 0x1, true⟩, ⟨8, 8, .w1c, 0x0, false⟩]
  | .HBM_SCRUB_X => [⟨0, 7, .rw, 0x18, true⟩]
  | .HBM_CNT_CLR => [⟨0, 0, .wo, 0x0, false⟩]
  | .CO_FQ_FETCHED => [⟨0, 31, .ro, 0x0, false⟩]
  | .CO_FQ_WASTE => [⟨0, 31, .ro, 0x0, false⟩]
  | .CO_FQ_MEMWAIT => [⟨0, 31, .ro, 0x0, false⟩]
  | .CO_FQ_STAT => [⟨0, 3, .ro, 0x0, false⟩, ⟨4, 4, .ro, 0x0, false⟩, ⟨5, 5, .ro, 0x0, false⟩, ⟨16, 31, .ro, 0x0, false⟩]
  | .CL_NET => [⟨0, 1, .rw, 0x0, true⟩, ⟨8, 8, .w1c, 0x0, false⟩]
  | .CL_NET_X => [⟨0, 3, .rw, 0x4, true⟩, ⟨4, 7, .rw, 0x2, true⟩, ⟨8, 11, .rw, 0x2, true⟩]
  | .CL_NET_LINK => [⟨0, 3, .ro, 0x0, false⟩, ⟨4, 7, .ro, 0x0, false⟩, ⟨8, 11, .ro, 0x0, false⟩, ⟨12, 15, .ro, 0x0, false⟩]
  | .CL_NET_RETRY => [⟨0, 31, .ro, 0x0, false⟩]
  | .CL_NET_FDROP => [⟨0, 31, .ro, 0x0, false⟩]
  | .CL_NET_BAD => [⟨0, 15, .ro, 0x0, false⟩]
  | .CL_NET_CLR => [⟨0, 0, .wo, 0x0, false⟩]
  | .MD_MERGE => [⟨0, 0, .rw, 0x1, true⟩, ⟨8, 8, .w1c, 0x0, false⟩]
  | .MD_MERGE_X => [⟨0, 6, .rw, 0x40, true⟩]
  | .MD_MERGED => [⟨0, 31, .ro, 0x0, false⟩]
  | .IKF_SELF => [⟨0, 14, .sec, 0x0, true⟩, ⟨16, 30, .sec, 0x0, true⟩]
  | .IKF_TORUS => [⟨0, 5, .sec, 0x1, true⟩, ⟨8, 13, .sec, 0x1, true⟩, ⟨16, 21, .sec, 0x1, true⟩]
  | .IKF_ARB => [⟨0, 1, .rw, 0x0, true⟩, ⟨8, 8, .w1c, 0x0, false⟩]
  | .IKF_ARB_X => [⟨0, 3, .rw, 0x4, true⟩, ⟨4, 7, .rw, 0x2, true⟩, ⟨8, 11, .rw, 0x2, true⟩]
  | .IKF_RTO => [⟨0, 1, .rw, 0x0, true⟩, ⟨8, 8, .w1c, 0x0, false⟩]
  | .IKF_RTO_X => [⟨0, 23, .rw, 0x61A8, true⟩]
  | .IKF_MAP_CTL => [⟨0, 8, .ro, 0x0, true⟩, ⟨30, 30, .w1c, 0x0, false⟩, ⟨31, 31, .ro, 0x0, false⟩]
  | .IKF_REQ_OUT => [⟨0, 12, .ro, 0x0, false⟩]
  | .IKF_UNREACH => [⟨0, 31, .ro, 0x0, false⟩]
  | .IKF_AUTH_FAIL => [⟨0, 31, .ro, 0x0, false⟩]
  | .IKF_DROP => [⟨0, 31, .ro, 0x0, false⟩]
  | .IKF_TDROP => [⟨0, 31, .ro, 0x0, false⟩]
  | .IKF_CLR => [⟨0, 0, .wo, 0x0, false⟩]
  | .IKF_DEG => [⟨0, 1, .rw, 0x0, true⟩, ⟨8, 8, .w1c, 0x0, false⟩]
  | .IKF_DEG_X => [⟨0, 15, .rw, 0x1000, true⟩]
  | .IKF_MAP => [⟨0, 14, .sec, 0x0, true⟩, ⟨16, 30, .sec, 0x0, true⟩, ⟨31, 31, .sec, 0x0, true⟩]
  | .IKF_PST => [⟨0, 4, .ro, 0x0, false⟩, ⟨8, 10, .ro, 0x0, false⟩, ⟨16, 31, .ro, 0x0, false⟩]
  | .IKF_PRETRY => [⟨0, 31, .ro, 0x0, false⟩]
  | .IKF_PFEC_COR => [⟨0, 31, .ro, 0x0, false⟩]
  | .IKF_PFEC_UNC => [⟨0, 31, .ro, 0x0, false⟩]
  | .IKF_PDEG => [⟨0, 15, .ro, 0x0, false⟩, ⟨16, 31, .ro, 0x0, false⟩]
  | .IKF_PDETOUR => [⟨0, 2, .sec, 0x0, false⟩, ⟨3, 5, .sec, 0x0, false⟩, ⟨6, 8, .sec, 0x0, false⟩, ⟨9, 10, .sec, 0x0, false⟩, ⟨15, 15, .sec, 0x0, false⟩]
  | .IKF_PCLR => [⟨0, 0, .wo, 0x0, false⟩]
  | .IKF_RED => [⟨0, 1, .rw, 0x0, true⟩, ⟨8, 8, .w1c, 0x0, false⟩]
  | .IKF_RED_X => [⟨0, 19, .rw, 0x64, true⟩]
  | .IKF_RED_X2 => [⟨0, 19, .rw, 0x2710, true⟩]
  | .IKF_RED_X3 => [⟨0, 9, .rw, 0x64, true⟩]
  | .IKF_RED_ACT => [⟨0, 13, .ro, 0x0, false⟩]
  | .IKF_RED_LATE => [⟨0, 31, .ro, 0x0, false⟩]
  | .IKF_RED_DROP => [⟨0, 31, .ro, 0x0, false⟩]
  | .IKF_RED_SKIP => [⟨0, 31, .ro, 0x0, false⟩]
  | .IKF_RED_ESC => [⟨0, 31, .ro, 0x0, false⟩]
  | .IKF_RED_NF => [⟨0, 31, .ro, 0x0, false⟩]
  | .IKF_RED_PART => [⟨0, 31, .ro, 0x0, false⟩]
  | .IKF_RED_LOG => [⟨0, 14, .ro, 0x0, false⟩, ⟨16, 31, .ro, 0x0, false⟩]
  | .IKF_RED_LOGQ => [⟨0, 31, .ro, 0x0, false⟩]
  | .IKF_RED_LOGP => [⟨0, 31, .ro, 0x0, false⟩]
  | .IKF_RED_HOLD => [⟨0, 22, .ro, 0x0, false⟩]
  | .IKF_RED_CLR => [⟨0, 0, .wo, 0x0, false⟩]
  | .CMD_SHTAB_LO => [⟨6, 31, .ro, 0x0, false⟩]
  | .CMD_SHTAB_HI => [⟨0, 15, .ro, 0x0, false⟩]
  | .CMD_SHTAB_N => [⟨0, 16, .ro, 0x0, false⟩, ⟨31, 31, .ro, 0x0, false⟩]
  | .CMD_SHEP => [⟨0, 31, .ro, 0x0, false⟩]
  | .CMD_JOB => [⟨0, 0, .ro, 0x0, false⟩, ⟨8, 15, .ro, 0x0, false⟩, ⟨16, 18, .ro, 0x0, false⟩]
  | .CMD_STEP => [⟨0, 31, .ro, 0x0, false⟩]
  | .CMD_COMMITTED => [⟨0, 31, .ro, 0xFFFFFFFF, false⟩]
  | .CMD_JOBMAP_LO => [⟨6, 31, .ro, 0x0, false⟩]
  | .CMD_JOBMAP_HI => [⟨0, 15, .ro, 0x0, false⟩]
  | .CMD_JERR => [⟨0, 3, .ro, 0x0, false⟩]
  | .CMD_BAR => [⟨0, 1, .rw, 0x0, true⟩, ⟨8, 8, .w1c, 0x0, false⟩]
  | .CMD_BAR_X => [⟨0, 15, .rw, 0x3E8, true⟩]
  | .CMD_STEPCNT => [⟨0, 31, .ro, 0x0, false⟩]
  | .CMD_ABORTCNT => [⟨0, 15, .ro, 0x0, false⟩, ⟨16, 31, .ro, 0x0, false⟩]
  | .CMD_SNAP => [⟨0, 0, .ro, 0x0, false⟩, ⟨1, 1, .ro, 0x0, false⟩, ⟨2, 2, .ro, 0x0, false⟩, ⟨16, 31, .ro, 0x0, false⟩]
  | .CMD_SNAP_STEP => [⟨0, 31, .ro, 0x0, false⟩]
  | .STO_CKPT => [⟨0, 1, .rw, 0x0, true⟩, ⟨8, 8, .w1c, 0x0, false⟩]
  | .STO_CKPT_X => [⟨0, 0, .rw, 0x1, true⟩, ⟨1, 1, .rw, 0x0, true⟩, ⟨4, 15, .rw, 0x32, true⟩, ⟨16, 23, .rw, 0x18, true⟩]
  | .STO_ST => [⟨0, 0, .ro, 0x0, false⟩, ⟨1, 1, .ro, 0x0, false⟩, ⟨2, 2, .ro, 0x0, false⟩, ⟨3, 3, .w1c, 0x0, false⟩]
  | .STO_LAST_OWN => [⟨0, 31, .ro, 0xFFFFFFFF, false⟩]
  | .STO_LAST_BUD => [⟨0, 31, .ro, 0xFFFFFFFF, false⟩]
  | .STO_PLAN => [⟨0, 31, .ro, 0xFFFFFFFF, false⟩]
  | .STO_NSTEP => [⟨0, 15, .ro, 0x0, false⟩]
  | .STO_CKCNT => [⟨0, 15, .ro, 0x0, false⟩, ⟨16, 31, .ro, 0x0, false⟩]
  | .STO_STALL => [⟨0, 31, .ro, 0x0, false⟩]
  | .STO_RATE => [⟨0, 15, .ro, 0x0, false⟩]
  | .STO_PE => [⟨0, 15, .ro, 0x0, false⟩, ⟨16, 31, .ro, 0x0, false⟩]
  | .STO_PSLC => [⟨0, 15, .ro, 0x0, false⟩]
  | .STO_BAD => [⟨0, 15, .ro, 0x0, false⟩, ⟨16, 31, .ro, 0x0, false⟩]
  | .STO_REST => [⟨0, 3, .ro, 0x0, false⟩]
  | .STO_CLR => [⟨0, 0, .wo, 0x0, false⟩]
  | .STO_SCRUB => [⟨0, 0, .rw, 0x1, true⟩, ⟨8, 8, .w1c, 0x0, false⟩]
  | .STO_SCRUB_X => [⟨0, 7, .rw, 0x7, true⟩, ⟨8, 11, .rw, 0x4, true⟩]
  | .NAND_IF => [⟨0, 1, .rw, 0x0, true⟩, ⟨8, 8, .w1c, 0x0, false⟩]
  | .NAND_IF_X => [⟨0, 11, .rw, 0xE10, true⟩]
  | .NAND_CLR => [⟨0, 0, .wo, 0x0, false⟩]
  | .NAND_ST => [⟨0, 3, .ro, 0x0, false⟩, ⟨4, 6, .ro, 0x0, false⟩, ⟨8, 10, .ro, 0x0, false⟩, ⟨16, 27, .ro, 0x0, false⟩]
  | .NAND_CW_COR => [⟨0, 31, .ro, 0x0, false⟩]
  | .NAND_RETRY => [⟨0, 31, .ro, 0x0, false⟩]
  | .NAND_SOFT => [⟨0, 31, .ro, 0x0, false⟩]
  | .NAND_UNC => [⟨0, 15, .ro, 0x0, false⟩]
  | .NAND_PEFAIL => [⟨0, 15, .ro, 0x0, false⟩, ⟨16, 31, .ro, 0x0, false⟩]
  | .HIF_ST => [⟨0, 4, .ro, 0x0, false⟩, ⟨8, 10, .ro, 0x0, false⟩, ⟨11, 11, .ro, 0x0, false⟩, ⟨12, 12, .ro, 0x0, false⟩]
  | .HIF_ERR => [⟨0, 0, .w1c, 0x0, false⟩, ⟨1, 1, .w1c, 0x0, false⟩, ⟨2, 2, .w1c, 0x0, false⟩]
  | .HIF_ERR_ADDR => [⟨0, 25, .ro, 0x0, false⟩]
  | .HIF_AGE => [⟨0, 1, .rw, 0x0, true⟩, ⟨8, 8, .w1c, 0x0, false⟩]
  | .HIF_AGE_X => [⟨0, 23, .rw, 0x61A8, true⟩]
  | .HIF_Q_ACT => [⟨0, 15, .ro, 0x0, false⟩]
  | .HIF_PROMO => [⟨0, 31, .ro, 0x0, false⟩]
  | .HIF_FWQBASE => [⟨0, 14, .ro, 0x7C00, true⟩, ⟨16, 31, .ro, 0x400, true⟩]
  | .HIF_FN_QBASE => [⟨0, 14, .rw, 0x0, false⟩, ⟨16, 31, .rw, 0x0, false⟩]
  | .HIF_FN_CTL => [⟨0, 0, .rw, 0x0, false⟩, ⟨4, 7, .rw, 0x4, false⟩, ⟨8, 11, .rw, 0x4, false⟩, ⟨12, 15, .rw, 0x4, false⟩]
  | .HIF_FN_ASQ_LO => [⟨6, 31, .rw, 0x0, false⟩]
  | .HIF_FN_ASQ_HI => [⟨0, 31, .rw, 0x0, false⟩]
  | .HIF_FN_ACQ_LO => [⟨6, 31, .rw, 0x0, false⟩]
  | .HIF_FN_ACQ_HI => [⟨0, 31, .rw, 0x0, false⟩]
  | .HIF_FN_AEQ_LO => [⟨6, 31, .rw, 0x0, false⟩]
  | .HIF_FN_AEQ_HI => [⟨0, 31, .rw, 0x0, false⟩]
  | .HIF_FN_ST => [⟨0, 0, .ro, 0x0, false⟩, ⟨1, 1, .ro, 0x0, false⟩]
  | .HIF_FN_MSIX => [⟨0, 12, .rw, 0x0, false⟩]
  | .HIF_FN_DBDROP => [⟨0, 31, .ro, 0x0, false⟩]
  | .HIF_WIN_LO => [⟨0, 0, .rw, 0x0, false⟩, ⟨1, 1, .rw, 0x0, false⟩, ⟨16, 31, .rw, 0x0, false⟩]
  | .HIF_WIN_HI => [⟨0, 15, .rw, 0x0, false⟩]
  | .SEC_ST => [⟨0, 0, .ro, 0x0, false⟩, ⟨1, 1, .ro, 0x0, false⟩, ⟨2, 2, .ro, 0x0, false⟩, ⟨3, 3, .ro, 0x0, false⟩, ⟨4, 4, .ro, 0x0, false⟩, ⟨5, 7, .ro, 0x0, false⟩]
  | .SEC_ERR => [⟨0, 0, .w1c, 0x0, false⟩, ⟨1, 1, .w1c, 0x0, false⟩, ⟨2, 2, .w1c, 0x0, false⟩]
  | .SEC_WORLD_CORE => [⟨0, 15, .sec, 0x0, false⟩]
  | .SEC_WORLD_CL => [⟨0, 7, .sec, 0x0, false⟩]
  | .SEC_DBG => [⟨0, 1, .sec, 0x0, false⟩]
  | .SEC_WV => [⟨0, 0, .sec, 0x1, true⟩, ⟨8, 8, .w1c, 0x0, false⟩]
  | .SEC_WV_X => [⟨0, 0, .sec, 0x1, true⟩]
  | .SEC_WV_CNT => [⟨0, 31, .ro, 0x0, false⟩]
  | .SEC_WV_LOG => [⟨0, 3, .ro, 0x0, false⟩, ⟨8, 15, .ro, 0x0, false⟩]
  | .SEC_WV_ADDR_LO => [⟨0, 31, .ro, 0x0, false⟩]
  | .SEC_WV_ADDR_HI => [⟨0, 15, .ro, 0x0, false⟩]
  | .SEC_WV_CLR => [⟨0, 0, .wo, 0x0, false⟩]
  | .SEC_IDPUB => [⟨0, 31, .ro, 0x0, false⟩]
  | .SEC_MEAS => [⟨0, 31, .ro, 0x0, false⟩]
  | .SEC_REG_LO => [⟨0, 26, .sec, 0x0, false⟩, ⟨29, 29, .ro, 0x0, false⟩, ⟨30, 30, .sec, 0x0, false⟩, ⟨31, 31, .sec, 0x0, false⟩]
  | .SEC_REG_HI => [⟨0, 26, .sec, 0x0, false⟩]
  | .BC_FW_WD => [⟨0, 1, .sec, 0x0, true⟩, ⟨8, 8, .w1c, 0x0, false⟩]
  | .BC_FW_WD_X => [⟨0, 7, .sec, 0x14, true⟩, ⟨8, 11, .sec, 0x4, true⟩]
  | .BC_FW_BANK => [⟨0, 4, .sec, 0x0, true⟩]
  | .BC_FW_KICK => [⟨0, 4, .sec, 0x0, false⟩]
  | .BC_FW_ST => [⟨0, 0, .ro, 0x0, false⟩, ⟨5, 9, .ro, 0x0, false⟩, ⟨10, 14, .ro, 0x0, false⟩, ⟨15, 19, .ro, 0x0, false⟩]
  | .BC_FW_VER => [⟨0, 31, .ro, 0x0, false⟩]
  | .BC_FW_SVN => [⟨0, 15, .ro, 0x0, false⟩, ⟨16, 31, .ro, 0x0, false⟩]
  | .BC_FW_RST => [⟨0, 15, .ro, 0x0, false⟩, ⟨16, 31, .ro, 0x0, false⟩]
  | .BC_FW_CAUSE => [⟨0, 2, .ro, 0x0, false⟩]
  | .EVG_CTL => [⟨0, 0, .sec, 0x0, false⟩, ⟨1, 1, .w1c, 0x0, false⟩]
  | .EVG_BP => [⟨0, 3, .sec, 0x0, false⟩]
  | .EVG_TOP => [⟨0, 9, .ro, 0x3FF, false⟩, ⟨16, 23, .ro, 0x0, false⟩, ⟨24, 31, .ro, 0x0, false⟩]
  | .EVG_TAKE => [⟨0, 9, .sec, 0x3FF, false⟩]
  | .EVG_RUN => [⟨0, 7, .ro, 0x0, false⟩, ⟨8, 8, .ro, 0x1, false⟩, ⟨9, 12, .ro, 0x0, false⟩, ⟨13, 13, .ro, 0x0, false⟩, ⟨24, 31, .ro, 0x0, false⟩]
  | .EVG_EOI => [⟨0, 9, .sec, 0x3FF, false⟩]
  | .EVG_PRIO => [⟨0, 7, .sec, 0xFF, false⟩, ⟨8, 15, .sec, 0xFF, false⟩, ⟨16, 23, .sec, 0xFF, false⟩, ⟨24, 31, .sec, 0xFF, false⟩]
  | .EVG_EN => [⟨0, 31, .sec, 0x0, false⟩]
  | .EVG_PEND => [⟨0, 31, .ro, 0x0, false⟩]
  | .EVG_PSET => [⟨0, 31, .sec, 0x0, false⟩]
  | .EVG_PCLR => [⟨0, 31, .sec, 0x0, false⟩]
  | .EVG_ACT => [⟨0, 31, .ro, 0x0, false⟩]
  | .LNT_BASE_LO => [⟨20, 31, .ro, 0x0, false⟩]
  | .LNT_BASE_HI => [⟨0, 15, .ro, 0x0, false⟩]
  | .LNT_HEAD => [⟨0, 13, .ro, 0x0, false⟩]
  | .LNT_SEQ => [⟨0, 31, .ro, 0x0, false⟩]
  | .LNT_LVL => [⟨0, 1, .rw, 0x1, true⟩, ⟨8, 8, .w1c, 0x0, false⟩]
  | .LNT_MASK => [⟨0, 31, .rw, 0x1F, true⟩]
  | .BC_PWR => [⟨0, 1, .rw, 0x0, true⟩, ⟨8, 8, .w1c, 0x0, false⟩]
  | .BC_PWR_X => [⟨0, 11, .rw, 0xAF0, true⟩, ⟨16, 19, .rw, 0x0, true⟩, ⟨24, 24, .rw, 0x1, true⟩]
  | .BC_LCNT_LO => [⟨0, 31, .ro, 0x0, false⟩]
  | .BC_LCNT_HI => [⟨0, 31, .ro, 0x0, false⟩]
  | .BC_SLEEP => [⟨0, 1, .rw, 0x0, true⟩, ⟨8, 8, .w1c, 0x0, false⟩]
  | .BC_SLEEP_X => [⟨0, 0, .rw, 0x1, true⟩, ⟨1, 1, .rw, 0x1, true⟩, ⟨2, 2, .rw, 0x1, true⟩, ⟨8, 15, .rw, 0xA, true⟩, ⟨16, 31, .rw, 0x64, true⟩]
  | .BC_PWR_ST => [⟨0, 0, .w1c, 0x0, false⟩, ⟨1, 1, .ro, 0x0, false⟩]
  | .BC_LK_ST => [⟨0, 7, .ro, 0x0, false⟩, ⟨8, 11, .ro, 0x0, false⟩, ⟨12, 12, .ro, 0x0, false⟩, ⟨13, 13, .ro, 0x0, false⟩, ⟨14, 14, .ro, 0x0, false⟩]
  | .BC_LK_CNT => [⟨0, 7, .ro, 0x0, false⟩, ⟨8, 15, .ro, 0x0, false⟩, ⟨16, 23, .ro, 0x0, false⟩, ⟨24, 31, .ro, 0x0, false⟩]
  | .BC_PKG_PWR => [⟨0, 15, .ro, 0x0, false⟩]
  | .BC_ENERGY_LO => [⟨0, 31, .ro, 0x0, false⟩]
  | .BC_ENERGY_HI => [⟨0, 31, .ro, 0x0, false⟩]
  | .BC_TJ_MAX => [⟨0, 7, .ro, 0x0, false⟩, ⟨8, 11, .ro, 0x0, false⟩]
  | .BC_LK_CLR => [⟨0, 0, .wo, 0x0, false⟩]
  | .BC_VF => [⟨0, 11, .rw, 0x0, true⟩, ⟨16, 27, .rw, 0x0, true⟩, ⟨31, 31, .rw, 0x0, true⟩]
  | .BC_CL => [⟨0, 3, .rw, 0x7, false⟩, ⟨4, 7, .ro, 0x7, false⟩, ⟨8, 11, .ro, 0x0, false⟩, ⟨12, 14, .ro, 0x1, false⟩, ⟨16, 17, .ro, 0x2, false⟩, ⟨24, 24, .wo, 0x0, false⟩]
  | .BC_CL_F => [⟨0, 11, .ro, 0x0, false⟩, ⟨16, 27, .ro, 0x0, false⟩]
  | .BC_CL_T => [⟨0, 7, .ro, 0x0, false⟩, ⟨16, 31, .ro, 0x0, false⟩]
  | .BC_RAIL => [⟨0, 9, .ro, 0x0, false⟩, ⟨16, 25, .ro, 0x0, false⟩]
  | .CL_PST => [⟨0, 1, .ro, 0x0, false⟩, ⟨2, 2, .ro, 0x0, false⟩]
  | .CL_DOZES => [⟨0, 31, .ro, 0x0, false⟩]
  | .CL_WEP0 => [⟨0, 31, .ro, 0x0, false⟩]
  | .CL_WEP1 => [⟨0, 31, .ro, 0x0, false⟩]
  | .BC_BOOT => [⟨0, 1, .sec, 0x0, true⟩, ⟨8, 8, .w1c, 0x0, false⟩]
  | .BC_BOOT_X => [⟨0, 0, .sec, 0x1, true⟩, ⟨1, 1, .sec, 0x0, true⟩, ⟨2, 2, .sec, 0x0, true⟩, ⟨8, 15, .sec, 0x3C, true⟩, ⟨16, 27, .sec, 0x12C, true⟩]
  | .BC_BOOT_ST => [⟨0, 3, .ro, 0x0, false⟩, ⟨4, 4, .ro, 0x0, false⟩, ⟨8, 11, .ro, 0x0, false⟩, ⟨12, 13, .ro, 0x0, false⟩, ⟨14, 14, .w1c, 0x0, false⟩, ⟨15, 15, .w1c, 0x0, false⟩]
  | .BC_BOOT_UNAV => [⟨0, 15, .ro, 0x0, false⟩]
  | .BC_RET_SEQ_LO => [⟨0, 31, .ro, 0x0, false⟩]
  | .BC_RET_SEQ_HI => [⟨0, 31, .ro, 0x0, false⟩]
  | .BC_RET_WR => [⟨0, 15, .ro, 0x0, false⟩]
  | .BC_READY_T => [⟨0, 31, .ro, 0x0, false⟩]
  | .CMD_FLT => [⟨0, 1, .rw, 0x0, true⟩, ⟨8, 8, .w1c, 0x0, false⟩]
  | .CMD_FLT_X => [⟨0, 3, .rw, 0x2, true⟩, ⟨4, 7, .rw, 0x4, true⟩, ⟨8, 15, .rw, 0x3C, true⟩]
  | .CMD_FLT_ST => [⟨0, 0, .ro, 0x0, false⟩, ⟨1, 2, .ro, 0x0, false⟩]
  | .CMD_FLT_SR => [⟨0, 31, .ro, 0x0, false⟩]
  | .CMD_FLT_FEN => [⟨0, 15, .ro, 0x0, false⟩, ⟨16, 31, .ro, 0x0, false⟩]
  | .CMD_FLT_LOG => [⟨0, 7, .ro, 0x0, false⟩, ⟨8, 15, .ro, 0x0, false⟩, ⟨16, 31, .ro, 0x0, false⟩]
  | .CMD_FLT_PEER => [⟨0, 14, .ro, 0x0, false⟩, ⟨31, 31, .w1c, 0x0, false⟩]
  | .CMD_FLT_CLR => [⟨0, 0, .wo, 0x0, false⟩]
  | .CL_ECC_CE => [⟨0, 31, .ro, 0x0, false⟩]
  | .CL_ECC_UE => [⟨0, 15, .ro, 0x0, false⟩]
  | .CL_ECC_LOG => [⟨0, 1, .ro, 0x0, false⟩, ⟨8, 26, .ro, 0x0, false⟩]
  | .CL_ECC_CLR => [⟨0, 0, .wo, 0x0, false⟩]
  | .BC_RAIL_ST => [⟨0, 3, .w1c, 0x0, false⟩, ⟨4, 4, .w1c, 0x0, false⟩, ⟨5, 7, .w1c, 0x0, false⟩, ⟨8, 8, .w1c, 0x0, false⟩, ⟨9, 10, .w1c, 0x0, false⟩, ⟨11, 11, .w1c, 0x0, false⟩, ⟨12, 12, .w1c, 0x0, false⟩]
  | .BC_RAIL_GOOD => [⟨0, 12, .ro, 0x0, false⟩]
  | .BC_I3C => [⟨0, 1, .ro, 0x0, false⟩, ⟨8, 14, .ro, 0x54, false⟩, ⟨15, 15, .ro, 0x0, false⟩, ⟨16, 22, .ro, 0x0, false⟩]

/-- A register field by name: its register and its bits `[hi:lo]`. -/
structure Fld where
  reg : RegId
  lo : Nat
  hi : Nat
  deriving DecidableEq, Repr

namespace F

/-- ME_STATUS.BUSY (Table 2.9, R74). -/
def ME_STATUS_BUSY : Fld := ⟨.ME_STATUS, 0, 0⟩
/-- ME_STATUS.PLANE (Table 2.9, R74). -/
def ME_STATUS_PLANE : Fld := ⟨.ME_STATUS, 1, 1⟩
/-- ME_STATUS.MODE (Table 2.9, R74). -/
def ME_STATUS_MODE : Fld := ⟨.ME_STATUS, 2, 3⟩
/-- ME_STATUS.FLY_READY (Table 2.9, R74). -/
def ME_STATUS_FLY_READY : Fld := ⟨.ME_STATUS, 4, 4⟩
/-- ME_STATUS.SUSPECT (Table 2.9, R74). -/
def ME_STATUS_SUSPECT : Fld := ⟨.ME_STATUS, 5, 5⟩
/-- ME_STATUS.UNAVAIL (Table 2.9, R74). -/
def ME_STATUS_UNAVAIL : Fld := ⟨.ME_STATUS, 6, 6⟩
/-- ME_STATUS.CORE_FENCED (Table 2.9, R74). -/
def ME_STATUS_CORE_FENCED : Fld := ⟨.ME_STATUS, 7, 7⟩
/-- ME_STATUS.REP_REJ (Table 2.9, R74). -/
def ME_STATUS_REP_REJ : Fld := ⟨.ME_STATUS, 8, 8⟩
/-- ME_STATUS.FILL_HELD (Table 2.9, R74). -/
def ME_STATUS_FILL_HELD : Fld := ⟨.ME_STATUS, 9, 9⟩
/-- ME_STATUS.CHK_HELD (Table 2.9, R74). -/
def ME_STATUS_CHK_HELD : Fld := ⟨.ME_STATUS, 10, 10⟩
/-- ME_LAT.LAT (Table 2.9, R74). -/
def ME_LAT_LAT : Fld := ⟨.ME_LAT, 0, 3⟩
/-- ME_LAT.SPROWS (Table 2.9, R74). -/
def ME_LAT_SPROWS : Fld := ⟨.ME_LAT, 4, 7⟩
/-- ME_LAT.SPCOLS (Table 2.9, R74). -/
def ME_LAT_SPCOLS : Fld := ⟨.ME_LAT, 8, 11⟩
/-- ME_FILL.FILL_EN (Table 2.10, R75). -/
def ME_FILL_FILL_EN : Fld := ⟨.ME_FILL, 0, 0⟩
/-- ME_FILL_X.GAP_THR (Table 2.10, R75). -/
def ME_FILL_X_GAP_THR : Fld := ⟨.ME_FILL_X, 0, 8⟩
/-- ME_FILL_X.RAMP (Table 2.10, R75). -/
def ME_FILL_X_RAMP : Fld := ⟨.ME_FILL_X, 10, 15⟩
/-- ME_FILL_X.PROFILE (Table 2.10, R75). -/
def ME_FILL_X_PROFILE : Fld := ⟨.ME_FILL_X, 16, 17⟩
/-- ME_CHK.CHK_POLICY (Table 2.10, R75). -/
def ME_CHK_CHK_POLICY : Fld := ⟨.ME_CHK, 0, 1⟩
/-- ME_CHK_X.SUSPECT_LIM (Table 2.10, R75). -/
def ME_CHK_X_SUSPECT_LIM : Fld := ⟨.ME_CHK_X, 0, 3⟩
/-- ME_CHK_X.TOL_SHIFT (Table 2.10, R75). -/
def ME_CHK_X_TOL_SHIFT : Fld := ⟨.ME_CHK_X, 4, 6⟩
/-- ME_CHK_CNT.RECOV (Table 2.10, R75). -/
def ME_CHK_CNT_RECOV : Fld := ⟨.ME_CHK_CNT, 0, 15⟩
/-- ME_CHK_CNT.ESC (Table 2.10, R75). -/
def ME_CHK_CNT_ESC : Fld := ⟨.ME_CHK_CNT, 16, 23⟩
/-- ME_CHK_CNT.SKIP (Table 2.10, R75). -/
def ME_CHK_CNT_SKIP : Fld := ⟨.ME_CHK_CNT, 24, 31⟩
/-- ME_CHK_LOG.PSB_ROW (Table 2.10, R75). -/
def ME_CHK_LOG_PSB_ROW : Fld := ⟨.ME_CHK_LOG, 0, 9⟩
/-- ME_CHK_LOG.HALF (Table 2.10, R75). -/
def ME_CHK_LOG_HALF : Fld := ⟨.ME_CHK_LOG, 10, 11⟩
/-- ME_CHK_LOG.SEQ (Table 2.10, R75). -/
def ME_CHK_LOG_SEQ : Fld := ⟨.ME_CHK_LOG, 16, 31⟩
/-- ME_CYC_BEAT.COUNT (Table 2.8, R73). -/
def ME_CYC_BEAT_COUNT : Fld := ⟨.ME_CYC_BEAT, 0, 31⟩
/-- ME_CYC_FLYWAIT.COUNT (Table 2.8, R73). -/
def ME_CYC_FLYWAIT_COUNT : Fld := ⟨.ME_CYC_FLYWAIT, 0, 31⟩
/-- ME_CYC_FILL.COUNT (Table 2.8, R73). -/
def ME_CYC_FILL_COUNT : Fld := ⟨.ME_CYC_FILL, 0, 31⟩
/-- ME_CNT_CLR.CLR_CYC (Table 2.10, R75). -/
def ME_CNT_CLR_CLR_CYC : Fld := ⟨.ME_CNT_CLR, 0, 0⟩
/-- ME_CNT_CLR.CLR_CHK (Table 2.10, R75). -/
def ME_CNT_CLR_CLR_CHK : Fld := ⟨.ME_CNT_CLR, 1, 1⟩
/-- ME_REP_ROW.LROW (Table 2.11, R76). -/
def ME_REP_ROW_LROW : Fld := ⟨.ME_REP_ROW, 0, 8⟩
/-- ME_REP_ROW.VALID (Table 2.11, R76). -/
def ME_REP_ROW_VALID : Fld := ⟨.ME_REP_ROW, 15, 15⟩
/-- ME_REP_COL.LCOL (Table 2.11, R76). -/
def ME_REP_COL_LCOL : Fld := ⟨.ME_REP_COL, 0, 9⟩
/-- ME_REP_COL.VALID (Table 2.11, R76). -/
def ME_REP_COL_VALID : Fld := ⟨.ME_REP_COL, 15, 15⟩
/-- DR_STATUS.BUSY (Table 4.5, R138). -/
def DR_STATUS_BUSY : Fld := ⟨.DR_STATUS, 0, 0⟩
/-- DR_STATUS.SLOTS (Table 4.5, R138). -/
def DR_STATUS_SLOTS : Fld := ⟨.DR_STATUS, 1, 2⟩
/-- DR_STATUS.TQ_WAIT (Table 4.5, R138). -/
def DR_STATUS_TQ_WAIT : Fld := ⟨.DR_STATUS, 3, 3⟩
/-- DR_STATUS.TALLY_HELD (Table 4.5, R138). -/
def DR_STATUS_TALLY_HELD : Fld := ⟨.DR_STATUS, 4, 4⟩
/-- DR_STATUS.CHAIN_FLT (Table 4.5, R138). -/
def DR_STATUS_CHAIN_FLT : Fld := ⟨.DR_STATUS, 5, 5⟩
/-- DR_TALLY.TALLY_LEVEL (Table 4.5, R138). -/
def DR_TALLY_TALLY_LEVEL : Fld := ⟨.DR_TALLY, 0, 0⟩
/-- DR_TALLY_X.ZERO_EN (Table 4.5, R138). -/
def DR_TALLY_X_ZERO_EN : Fld := ⟨.DR_TALLY_X, 0, 0⟩
/-- DR_TALLY_X.NF_EN (Table 4.5, R138). -/
def DR_TALLY_X_NF_EN : Fld := ⟨.DR_TALLY_X, 1, 1⟩
/-- DR_TALLY_X.AMAX_EN (Table 4.5, R138). -/
def DR_TALLY_X_AMAX_EN : Fld := ⟨.DR_TALLY_X, 2, 2⟩
/-- DR_TALLY_X.SUMSQ_EN (Table 4.5, R138). -/
def DR_TALLY_X_SUMSQ_EN : Fld := ⟨.DR_TALLY_X, 3, 3⟩
/-- DR_CYC_BUSY.COUNT (Table 4.4, R137). -/
def DR_CYC_BUSY_COUNT : Fld := ⟨.DR_CYC_BUSY, 0, 31⟩
/-- DR_CYC_SIDEWAIT.COUNT (Table 4.4, R137). -/
def DR_CYC_SIDEWAIT_COUNT : Fld := ⟨.DR_CYC_SIDEWAIT, 0, 31⟩
/-- DR_CYC_RELWAIT.COUNT (Table 4.4, R137). -/
def DR_CYC_RELWAIT_COUNT : Fld := ⟨.DR_CYC_RELWAIT, 0, 31⟩
/-- DR_CNT_CLR.CLR_CYC (Table 4.5, R138). -/
def DR_CNT_CLR_CLR_CYC : Fld := ⟨.DR_CNT_CLR, 0, 0⟩
/-- DR_FLT_LOG.STAGE (Table 4.5, R138). -/
def DR_FLT_LOG_STAGE : Fld := ⟨.DR_FLT_LOG, 0, 3⟩
/-- DR_FLT_LOG.CODE (Table 4.5, R138). -/
def DR_FLT_LOG_CODE : Fld := ⟨.DR_FLT_LOG, 4, 7⟩
/-- VE_STATUS.BUSY (Table 4.6, R139). -/
def VE_STATUS_BUSY : Fld := ⟨.VE_STATUS, 0, 0⟩
/-- VE_STATUS.FP64_ACT (Table 4.6, R139). -/
def VE_STATUS_FP64_ACT : Fld := ⟨.VE_STATUS, 1, 1⟩
/-- VE_CYC_BUSY.COUNT (Table 4.6, R139). -/
def VE_CYC_BUSY_COUNT : Fld := ⟨.VE_CYC_BUSY, 0, 31⟩
/-- VE_CYC_QTR.COUNT (Table 4.6, R139). -/
def VE_CYC_QTR_COUNT : Fld := ⟨.VE_CYC_QTR, 0, 31⟩
/-- VE_CYC_FP64.COUNT (Table 4.6, R139). -/
def VE_CYC_FP64_COUNT : Fld := ⟨.VE_CYC_FP64, 0, 31⟩
/-- VE_CNT_CLR.CLR_CYC (Table 4.6, R139). -/
def VE_CNT_CLR_CLR_CYC : Fld := ⟨.VE_CNT_CLR, 0, 0⟩
/-- CO_NUM.NUM_POLICY (Table 5.6, R162). -/
def CO_NUM_NUM_POLICY : Fld := ⟨.CO_NUM, 0, 1⟩
/-- CO_NUM.UPD_GUARD (Table 5.6, R162). -/
def CO_NUM_UPD_GUARD : Fld := ⟨.CO_NUM, 2, 2⟩
/-- CO_NUM_X.HIST_LEN (Table 5.6, R162). -/
def CO_NUM_X_HIST_LEN : Fld := ⟨.CO_NUM_X, 0, 4⟩
/-- CO_NUM_X.MARGIN (Table 5.6, R162). -/
def CO_NUM_X_MARGIN : Fld := ⟨.CO_NUM_X, 5, 7⟩
/-- CO_NUM_X.RS_LIMIT (Table 5.6, R162). -/
def CO_NUM_X_RS_LIMIT : Fld := ⟨.CO_NUM_X, 8, 15⟩
/-- CO_NUM_X.RS_MAXD (Table 5.6, R162). -/
def CO_NUM_X_RS_MAXD : Fld := ⟨.CO_NUM_X, 16, 20⟩
/-- CO_NUM_X.AUTO_EN (Table 5.6, R162). -/
def CO_NUM_X_AUTO_EN : Fld := ⟨.CO_NUM_X, 24, 24⟩
/-- CO_NUM_STAT.NUM_HELD (Table 5.6, R162). -/
def CO_NUM_STAT_NUM_HELD : Fld := ⟨.CO_NUM_STAT, 0, 0⟩
/-- CO_NUM_STAT.SC_WAIT (Table 5.6, R162). -/
def CO_NUM_STAT_SC_WAIT : Fld := ⟨.CO_NUM_STAT, 1, 1⟩
/-- CO_NUM_STAT.TBL_BOUND (Table 5.6, R162). -/
def CO_NUM_STAT_TBL_BOUND : Fld := ⟨.CO_NUM_STAT, 2, 2⟩
/-- CO_NUM_TBL_LO.ADDR_LO (Table 5.6, R162). -/
def CO_NUM_TBL_LO_ADDR_LO : Fld := ⟨.CO_NUM_TBL_LO, 12, 31⟩
/-- CO_NUM_TBL_HI.ADDR_HI (Table 5.6, R162). -/
def CO_NUM_TBL_HI_ADDR_HI : Fld := ⟨.CO_NUM_TBL_HI, 0, 15⟩
/-- CO_CYC_SCWAIT.COUNT (Table 5.6, R162). -/
def CO_CYC_SCWAIT_COUNT : Fld := ⟨.CO_CYC_SCWAIT, 0, 31⟩
/-- CO_RESCALE_CNT.RESCALED (Table 5.6, R162). -/
def CO_RESCALE_CNT_RESCALED : Fld := ⟨.CO_RESCALE_CNT, 0, 15⟩
/-- CO_RESCALE_CNT.LIMITED (Table 5.6, R162). -/
def CO_RESCALE_CNT_LIMITED : Fld := ⟨.CO_RESCALE_CNT, 16, 31⟩
/-- CO_NUM_CLR.CLR (Table 5.6, R162). -/
def CO_NUM_CLR_CLR : Fld := ⟨.CO_NUM_CLR, 0, 0⟩
/-- CMD_NUMW.WATCH_LEVEL (Table 5.7, R163). -/
def CMD_NUMW_WATCH_LEVEL : Fld := ⟨.CMD_NUMW, 0, 1⟩
/-- CMD_NUMW.WATCH_HELD (Table 5.7, R163). -/
def CMD_NUMW_WATCH_HELD : Fld := ⟨.CMD_NUMW, 8, 8⟩
/-- CMD_NUMW_X.NF_EN (Table 5.7, R163). -/
def CMD_NUMW_X_NF_EN : Fld := ⟨.CMD_NUMW_X, 0, 0⟩
/-- CMD_NUMW_X.SAT_EN (Table 5.7, R163). -/
def CMD_NUMW_X_SAT_EN : Fld := ⟨.CMD_NUMW_X, 1, 1⟩
/-- CMD_NUMW_X.ZERO_EN (Table 5.7, R163). -/
def CMD_NUMW_X_ZERO_EN : Fld := ⟨.CMD_NUMW_X, 2, 2⟩
/-- CMD_NUMW_X.ZERO_FRAC (Table 5.7, R163). -/
def CMD_NUMW_X_ZERO_FRAC : Fld := ⟨.CMD_NUMW_X, 8, 15⟩
/-- CMD_NUMW_X.SAT_FRAC (Table 5.7, R163). -/
def CMD_NUMW_X_SAT_FRAC : Fld := ⟨.CMD_NUMW_X, 16, 31⟩
/-- CMD_NUMW_CNT.ALERTS (Table 5.7, R163). -/
def CMD_NUMW_CNT_ALERTS : Fld := ⟨.CMD_NUMW_CNT, 0, 31⟩
/-- CO_SECT.SECTION (Table 6.11, R201). -/
def CO_SECT_SECTION : Fld := ⟨.CO_SECT, 0, 15⟩
/-- CO_SECT.STATE (Table 6.11, R201). -/
def CO_SECT_STATE : Fld := ⟨.CO_SECT, 16, 18⟩
/-- CO_SECT.MODE (Table 6.11, R201). -/
def CO_SECT_MODE : Fld := ⟨.CO_SECT, 20, 21⟩
/-- CO_ROUND.ROUNDS (Table 6.11, R201). -/
def CO_ROUND_ROUNDS : Fld := ⟨.CO_ROUND, 0, 31⟩
/-- CO_CNT.CNT_LEVEL (Table 6.11, R201). -/
def CO_CNT_CNT_LEVEL : Fld := ⟨.CO_CNT, 0, 1⟩
/-- CO_CNT.CNT_HELD (Table 6.11, R201). -/
def CO_CNT_CNT_HELD : Fld := ⟨.CO_CNT, 8, 8⟩
/-- CO_CNT_X.STN_EN (Table 6.11, R201). -/
def CO_CNT_X_STN_EN : Fld := ⟨.CO_CNT_X, 0, 0⟩
/-- CO_CNT_X.Q_EN (Table 6.11, R201). -/
def CO_CNT_X_Q_EN : Fld := ⟨.CO_CNT_X, 1, 1⟩
/-- CO_CNT_CLR.CLR (Table 6.11, R201). -/
def CO_CNT_CLR_CLR : Fld := ⟨.CO_CNT_CLR, 0, 0⟩
/-- CO_DISCARD.COUNT (Table 6.11, R201). -/
def CO_DISCARD_COUNT : Fld := ⟨.CO_DISCARD, 0, 31⟩
/-- CO_PROTO_LOG.QUEUE (Table 6.11, R201). -/
def CO_PROTO_LOG_QUEUE : Fld := ⟨.CO_PROTO_LOG, 0, 4⟩
/-- CO_PROTO_LOG.SUBCODE (Table 6.11, R201). -/
def CO_PROTO_LOG_SUBCODE : Fld := ⟨.CO_PROTO_LOG, 8, 10⟩
/-- CO_PROTO_LOG.STREAM (Table 6.11, R201). -/
def CO_PROTO_LOG_STREAM : Fld := ⟨.CO_PROTO_LOG, 16, 31⟩
/-- CO_STN_BUSY.COUNT (Table 6.11, R201). -/
def CO_STN_BUSY_COUNT : Fld := ⟨.CO_STN_BUSY, 0, 31⟩
/-- CO_STN_BLOCKED.COUNT (Table 6.11, R201). -/
def CO_STN_BLOCKED_COUNT : Fld := ⟨.CO_STN_BLOCKED, 0, 31⟩
/-- CO_STN_STARVED.COUNT (Table 6.11, R201). -/
def CO_STN_STARVED_COUNT : Fld := ⟨.CO_STN_STARVED, 0, 31⟩
/-- CO_STN_ASLEEP.COUNT (Table 6.11, R201). -/
def CO_STN_ASLEEP_COUNT : Fld := ⟨.CO_STN_ASLEEP, 0, 31⟩
/-- CO_STN_FIRINGS.COUNT (Table 6.11, R201). -/
def CO_STN_FIRINGS_COUNT : Fld := ⟨.CO_STN_FIRINGS, 0, 31⟩
/-- CO_Q_FULL.COUNT (Table 6.11, R201). -/
def CO_Q_FULL_COUNT : Fld := ⟨.CO_Q_FULL, 0, 31⟩
/-- CO_Q_EMPTY.COUNT (Table 6.11, R201). -/
def CO_Q_EMPTY_COUNT : Fld := ⟨.CO_Q_EMPTY, 0, 31⟩
/-- CO_Q_PEAK.PEAK (Table 6.11, R201). -/
def CO_Q_PEAK_PEAK : Fld := ⟨.CO_Q_PEAK, 0, 6⟩
/-- CMD_PERR.CODE (Table 6.12, R202). -/
def CMD_PERR_CODE : Fld := ⟨.CMD_PERR, 0, 3⟩
/-- CMD_PERR.SECTION (Table 6.12, R202). -/
def CMD_PERR_SECTION : Fld := ⟨.CMD_PERR, 16, 31⟩
/-- CMD_PERR_LOC.STN (Table 6.12, R202). -/
def CMD_PERR_LOC_STN : Fld := ⟨.CMD_PERR_LOC, 0, 15⟩
/-- CMD_PERR_LOC.AUX (Table 6.12, R202). -/
def CMD_PERR_LOC_AUX : Fld := ⟨.CMD_PERR_LOC, 16, 31⟩
/-- CMD_PERR_SHORT.STREAM (Table 6.12, R202). -/
def CMD_PERR_SHORT_STREAM : Fld := ⟨.CMD_PERR_SHORT, 0, 15⟩
/-- CMD_PERR_SHORT.TILES (Table 6.12, R202). -/
def CMD_PERR_SHORT_TILES : Fld := ⟨.CMD_PERR_SHORT, 16, 31⟩
/-- CMD_STRIKE.STRIKE_MODE (Table 6.12, R202). -/
def CMD_STRIKE_STRIKE_MODE : Fld := ⟨.CMD_STRIKE, 0, 0⟩
/-- CMD_STRIKE.STRIKE_HELD (Table 6.12, R202). -/
def CMD_STRIKE_STRIKE_HELD : Fld := ⟨.CMD_STRIKE, 8, 8⟩
/-- CMD_STRIKE_X.DRAIN_US (Table 6.12, R202). -/
def CMD_STRIKE_X_DRAIN_US : Fld := ⟨.CMD_STRIKE_X, 0, 5⟩
/-- CMD_STRIKE_ST.UNSAFE (Table 6.12, R202). -/
def CMD_STRIKE_ST_UNSAFE : Fld := ⟨.CMD_STRIKE_ST, 0, 0⟩
/-- CMD_STRIKE_ST.CUTS (Table 6.12, R202). -/
def CMD_STRIKE_ST_CUTS : Fld := ⟨.CMD_STRIKE_ST, 16, 31⟩
/-- CMD_SVC.WATCH_EN (Table 6.12, R202). -/
def CMD_SVC_WATCH_EN : Fld := ⟨.CMD_SVC, 0, 0⟩
/-- CMD_SVC.SVC_HELD (Table 6.12, R202). -/
def CMD_SVC_SVC_HELD : Fld := ⟨.CMD_SVC, 8, 8⟩
/-- CMD_SVC_X.STALL_MS (Table 6.12, R202). -/
def CMD_SVC_X_STALL_MS : Fld := ⟨.CMD_SVC_X, 0, 15⟩
/-- CMD_WCLOST.TILES (Table -, R312). -/
def CMD_WCLOST_TILES : Fld := ⟨.CMD_WCLOST, 0, 31⟩
/-- CO_IFLT.CODE (Table 7.10, R241). -/
def CO_IFLT_CODE : Fld := ⟨.CO_IFLT, 0, 3⟩
/-- CO_IFLT.SLOT (Table 7.10, R241). -/
def CO_IFLT_SLOT : Fld := ⟨.CO_IFLT, 8, 10⟩
/-- CO_IFLT.OPCODE (Table 7.10, R241). -/
def CO_IFLT_OPCODE : Fld := ⟨.CO_IFLT, 16, 23⟩
/-- CO_IFLT.VALID (Table 7.10, R241). -/
def CO_IFLT_VALID : Fld := ⟨.CO_IFLT, 31, 31⟩
/-- CO_IFLT_PC.PC (Table 7.10, R241). -/
def CO_IFLT_PC_PC : Fld := ⟨.CO_IFLT_PC, 0, 15⟩
/-- CO_IFLT_AUX.ADDR_LO (Table 7.10, R241). -/
def CO_IFLT_AUX_ADDR_LO : Fld := ⟨.CO_IFLT_AUX, 0, 31⟩
/-- CO_IFLT_AUXH.ADDR_HI (Table 7.10, R241). -/
def CO_IFLT_AUXH_ADDR_HI : Fld := ⟨.CO_IFLT_AUXH, 0, 15⟩
/-- CO_DONE.COUNT (Table 7.10, R241). -/
def CO_DONE_COUNT : Fld := ⟨.CO_DONE, 0, 31⟩
/-- CO_INHAND.ME0 (Table 7.10, R241). -/
def CO_INHAND_ME0 : Fld := ⟨.CO_INHAND, 0, 1⟩
/-- CO_INHAND.ME1 (Table 7.10, R241). -/
def CO_INHAND_ME1 : Fld := ⟨.CO_INHAND, 2, 3⟩
/-- CO_INHAND.VE (Table 7.10, R241). -/
def CO_INHAND_VE : Fld := ⟨.CO_INHAND, 4, 5⟩
/-- CO_INHAND.DR0_PEND (Table 7.10, R241). -/
def CO_INHAND_DR0_PEND : Fld := ⟨.CO_INHAND, 6, 6⟩
/-- CO_INHAND.DR1_PEND (Table 7.10, R241). -/
def CO_INHAND_DR1_PEND : Fld := ⟨.CO_INHAND, 7, 7⟩
/-- CO_STEP.STEP (Table 8.7, R271). -/
def CO_STEP_STEP : Fld := ⟨.CO_STEP, 0, 31⟩
/-- CO_MVLOG.CAUSE (Table 8.7, R271). -/
def CO_MVLOG_CAUSE : Fld := ⟨.CO_MVLOG, 0, 3⟩
/-- CO_MVLOG.SLOT (Table 8.7, R271). -/
def CO_MVLOG_SLOT : Fld := ⟨.CO_MVLOG, 8, 10⟩
/-- CO_MVLOG.OPCODE (Table 8.7, R271). -/
def CO_MVLOG_OPCODE : Fld := ⟨.CO_MVLOG, 16, 23⟩
/-- CO_MVLOG.VALID (Table 8.7, R271). -/
def CO_MVLOG_VALID : Fld := ⟨.CO_MVLOG, 31, 31⟩
/-- CO_MVLOG_DEV.DEVICE (Table 8.7, R271). -/
def CO_MVLOG_DEV_DEVICE : Fld := ⟨.CO_MVLOG_DEV, 0, 14⟩
/-- CO_MVLOG_EP.EPOCH (Table 8.7, R271). -/
def CO_MVLOG_EP_EPOCH : Fld := ⟨.CO_MVLOG_EP, 0, 31⟩
/-- CO_HOLDS.COUNT (Table 8.7, R271). -/
def CO_HOLDS_COUNT : Fld := ⟨.CO_HOLDS, 0, 31⟩
/-- MD_SC.SC_PROFILE (Table 10.9, R309). -/
def MD_SC_SC_PROFILE : Fld := ⟨.MD_SC, 0, 1⟩
/-- MD_SC.SC_HELD (Table 10.9, R309). -/
def MD_SC_SC_HELD : Fld := ⟨.MD_SC, 8, 8⟩
/-- MD_SC_X.POOL_MIB (Table 10.9, R309). -/
def MD_SC_X_POOL_MIB : Fld := ⟨.MD_SC_X, 0, 6⟩
/-- MD_SPLIT.RD (Table 10.9, R309). -/
def MD_SPLIT_RD : Fld := ⟨.MD_SPLIT, 0, 4⟩
/-- MD_SPLIT.WR (Table 10.9, R309). -/
def MD_SPLIT_WR : Fld := ⟨.MD_SPLIT, 8, 12⟩
/-- MD_SPLIT.RM (Table 10.9, R309). -/
def MD_SPLIT_RM : Fld := ⟨.MD_SPLIT, 16, 20⟩
/-- MD_POOL_USED.MIB (Table 10.9, R309). -/
def MD_POOL_USED_MIB : Fld := ⟨.MD_POOL_USED, 0, 15⟩
/-- MD_PF.PF_EN (Table 10.9, R309). -/
def MD_PF_PF_EN : Fld := ⟨.MD_PF, 0, 0⟩
/-- MD_PF.PF_HELD (Table 10.9, R309). -/
def MD_PF_PF_HELD : Fld := ⟨.MD_PF, 8, 8⟩
/-- MD_PF_X.IMAGE_EN (Table 10.9, R309). -/
def MD_PF_X_IMAGE_EN : Fld := ⟨.MD_PF_X, 0, 0⟩
/-- MD_PF_X.BUF_EN (Table 10.9, R309). -/
def MD_PF_X_BUF_EN : Fld := ⟨.MD_PF_X, 1, 1⟩
/-- MD_PF_X.RANGE_EN (Table 10.9, R309). -/
def MD_PF_X_RANGE_EN : Fld := ⟨.MD_PF_X, 2, 2⟩
/-- MD_PF_ST.PF_SHORT (Table 10.9, R309). -/
def MD_PF_ST_PF_SHORT : Fld := ⟨.MD_PF_ST, 0, 15⟩
/-- MD_PF_ST.PF_LATE (Table 10.9, R309). -/
def MD_PF_ST_PF_LATE : Fld := ⟨.MD_PF_ST, 16, 31⟩
/-- MD_EVICT.COUNT (Table 10.9, R309). -/
def MD_EVICT_COUNT : Fld := ⟨.MD_EVICT, 0, 31⟩
/-- MD_SPILL.COUNT (Table 10.9, R309). -/
def MD_SPILL_COUNT : Fld := ⟨.MD_SPILL, 0, 31⟩
/-- MD_ECC_CE.COUNT (Table 10.9, R309). -/
def MD_ECC_CE_COUNT : Fld := ⟨.MD_ECC_CE, 0, 31⟩
/-- MD_ECC_UE.COUNT (Table 10.9, R309). -/
def MD_ECC_UE_COUNT : Fld := ⟨.MD_ECC_UE, 0, 15⟩
/-- MD_ECC_LOG.LINE (Table 10.9, R309). -/
def MD_ECC_LOG_LINE : Fld := ⟨.MD_ECC_LOG, 0, 31⟩
/-- MD_CNT_CLR.CLR (Table 10.9, R309). -/
def MD_CNT_CLR_CLR : Fld := ⟨.MD_CNT_CLR, 0, 0⟩
/-- CL_POOL.CLP_PROFILE (Table 10.9, R309). -/
def CL_POOL_CLP_PROFILE : Fld := ⟨.CL_POOL, 0, 1⟩
/-- CL_POOL.CLP_HELD (Table 10.9, R309). -/
def CL_POOL_CLP_HELD : Fld := ⟨.CL_POOL, 8, 8⟩
/-- CL_POOL_X.CL_POOL_MIB (Table 10.9, R309). -/
def CL_POOL_X_CL_POOL_MIB : Fld := ⟨.CL_POOL_X, 0, 4⟩
/-- HBM_STATUS.READY (Table 10.10, R310). -/
def HBM_STATUS_READY : Fld := ⟨.HBM_STATUS, 0, 0⟩
/-- HBM_STATUS.SELFREF (Table 10.10, R310). -/
def HBM_STATUS_SELFREF : Fld := ⟨.HBM_STATUS, 1, 1⟩
/-- HBM_BURST_RD.COUNT (Table 10.10, R310). -/
def HBM_BURST_RD_COUNT : Fld := ⟨.HBM_BURST_RD, 0, 31⟩
/-- HBM_BURST_WR.COUNT (Table 10.10, R310). -/
def HBM_BURST_WR_COUNT : Fld := ⟨.HBM_BURST_WR, 0, 31⟩
/-- HBM_BURST_RM.COUNT (Table 10.10, R310). -/
def HBM_BURST_RM_COUNT : Fld := ⟨.HBM_BURST_RM, 0, 31⟩
/-- HBM_IDLE.COUNT (Table 10.10, R310). -/
def HBM_IDLE_COUNT : Fld := ⟨.HBM_IDLE, 0, 31⟩
/-- HBM_UNLENT.COUNT (Table 10.10, R310). -/
def HBM_UNLENT_COUNT : Fld := ⟨.HBM_UNLENT, 0, 31⟩
/-- HBM_ECC_CE.COUNT (Table 10.10, R310). -/
def HBM_ECC_CE_COUNT : Fld := ⟨.HBM_ECC_CE, 0, 31⟩
/-- HBM_ECC_UE.COUNT (Table 10.10, R310). -/
def HBM_ECC_UE_COUNT : Fld := ⟨.HBM_ECC_UE, 0, 15⟩
/-- HBM_ECC_LOG.BURST (Table 10.10, R310). -/
def HBM_ECC_LOG_BURST : Fld := ⟨.HBM_ECC_LOG, 0, 31⟩
/-- HBM_SCRUB.SCRUB_EN (Table 10.10, R310). -/
def HBM_SCRUB_SCRUB_EN : Fld := ⟨.HBM_SCRUB, 0, 0⟩
/-- HBM_SCRUB.SCRUB_HELD (Table 10.10, R310). -/
def HBM_SCRUB_SCRUB_HELD : Fld := ⟨.HBM_SCRUB, 8, 8⟩
/-- HBM_SCRUB_X.SCRUB_H (Table 10.10, R310). -/
def HBM_SCRUB_X_SCRUB_H : Fld := ⟨.HBM_SCRUB_X, 0, 7⟩
/-- HBM_CNT_CLR.CLR (Table 10.10, R310). -/
def HBM_CNT_CLR_CLR : Fld := ⟨.HBM_CNT_CLR, 0, 0⟩
/-- CO_FQ_FETCHED.COUNT (Table 10.11, R311). -/
def CO_FQ_FETCHED_COUNT : Fld := ⟨.CO_FQ_FETCHED, 0, 31⟩
/-- CO_FQ_WASTE.COUNT (Table 10.11, R311). -/
def CO_FQ_WASTE_COUNT : Fld := ⟨.CO_FQ_WASTE, 0, 31⟩
/-- CO_FQ_MEMWAIT.COUNT (Table 10.11, R311). -/
def CO_FQ_MEMWAIT_COUNT : Fld := ⟨.CO_FQ_MEMWAIT, 0, 31⟩
/-- CO_FQ_STAT.OUTST (Table 10.11, R311). -/
def CO_FQ_STAT_OUTST : Fld := ⟨.CO_FQ_STAT, 0, 3⟩
/-- CO_FQ_STAT.FALLBACK (Table 10.11, R311). -/
def CO_FQ_STAT_FALLBACK : Fld := ⟨.CO_FQ_STAT, 4, 4⟩
/-- CO_FQ_STAT.LISTEND (Table 10.11, R311). -/
def CO_FQ_STAT_LISTEND : Fld := ⟨.CO_FQ_STAT, 5, 5⟩
/-- CO_FQ_STAT.GEN (Table 10.11, R311). -/
def CO_FQ_STAT_GEN : Fld := ⟨.CO_FQ_STAT, 16, 31⟩
/-- CL_NET.ARB_PROFILE (Table 11.7, R329). -/
def CL_NET_ARB_PROFILE : Fld := ⟨.CL_NET, 0, 1⟩
/-- CL_NET.NET_HELD (Table 11.7, R329). -/
def CL_NET_NET_HELD : Fld := ⟨.CL_NET, 8, 8⟩
/-- CL_NET_X.W_RSP (Table 11.7, R329). -/
def CL_NET_X_W_RSP : Fld := ⟨.CL_NET_X, 0, 3⟩
/-- CL_NET_X.W_RED (Table 11.7, R329). -/
def CL_NET_X_W_RED : Fld := ⟨.CL_NET_X, 4, 7⟩
/-- CL_NET_X.W_BLK (Table 11.7, R329). -/
def CL_NET_X_W_BLK : Fld := ⟨.CL_NET_X, 8, 11⟩
/-- CL_NET_LINK.MOD_X (Table 11.7, R329). -/
def CL_NET_LINK_MOD_X : Fld := ⟨.CL_NET_LINK, 0, 3⟩
/-- CL_NET_LINK.MOD_Y (Table 11.7, R329). -/
def CL_NET_LINK_MOD_Y : Fld := ⟨.CL_NET_LINK, 4, 7⟩
/-- CL_NET_LINK.MOD_MD (Table 11.7, R329). -/
def CL_NET_LINK_MOD_MD : Fld := ⟨.CL_NET_LINK, 8, 11⟩
/-- CL_NET_LINK.MOD_IO (Table 11.7, R329). -/
def CL_NET_LINK_MOD_IO : Fld := ⟨.CL_NET_LINK, 12, 15⟩
/-- CL_NET_RETRY.COUNT (Table 11.7, R329). -/
def CL_NET_RETRY_COUNT : Fld := ⟨.CL_NET_RETRY, 0, 31⟩
/-- CL_NET_FDROP.COUNT (Table 11.7, R329). -/
def CL_NET_FDROP_COUNT : Fld := ⟨.CL_NET_FDROP, 0, 31⟩
/-- CL_NET_BAD.COUNT (Table 11.7, R329). -/
def CL_NET_BAD_COUNT : Fld := ⟨.CL_NET_BAD, 0, 15⟩
/-- CL_NET_CLR.CLR (Table 11.7, R329). -/
def CL_NET_CLR_CLR : Fld := ⟨.CL_NET_CLR, 0, 0⟩
/-- MD_MERGE.MERGE_EN (Table 11.7, R329). -/
def MD_MERGE_MERGE_EN : Fld := ⟨.MD_MERGE, 0, 0⟩
/-- MD_MERGE.MERGE_HELD (Table 11.7, R329). -/
def MD_MERGE_MERGE_HELD : Fld := ⟨.MD_MERGE, 8, 8⟩
/-- MD_MERGE_X.WINDOW (Table 11.7, R329). -/
def MD_MERGE_X_WINDOW : Fld := ⟨.MD_MERGE_X, 0, 6⟩
/-- MD_MERGED.COUNT (Table 11.7, R329). -/
def MD_MERGED_COUNT : Fld := ⟨.MD_MERGED, 0, 31⟩
/-- IKF_SELF.LOG_ID (Table 12.8, R353). -/
def IKF_SELF_LOG_ID : Fld := ⟨.IKF_SELF, 0, 14⟩
/-- IKF_SELF.PHYS_ID (Table 12.8, R353). -/
def IKF_SELF_PHYS_ID : Fld := ⟨.IKF_SELF, 16, 30⟩
/-- IKF_TORUS.DX (Table 12.8, R353). -/
def IKF_TORUS_DX : Fld := ⟨.IKF_TORUS, 0, 5⟩
/-- IKF_TORUS.DY (Table 12.8, R353). -/
def IKF_TORUS_DY : Fld := ⟨.IKF_TORUS, 8, 13⟩
/-- IKF_TORUS.DZ (Table 12.8, R353). -/
def IKF_TORUS_DZ : Fld := ⟨.IKF_TORUS, 16, 21⟩
/-- IKF_ARB.ARB_PROFILE (Table 12.8, R353). -/
def IKF_ARB_ARB_PROFILE : Fld := ⟨.IKF_ARB, 0, 1⟩
/-- IKF_ARB.ARB_HELD (Table 12.8, R353). -/
def IKF_ARB_ARB_HELD : Fld := ⟨.IKF_ARB, 8, 8⟩
/-- IKF_ARB_X.W_VC3 (Table 12.8, R353). -/
def IKF_ARB_X_W_VC3 : Fld := ⟨.IKF_ARB_X, 0, 3⟩
/-- IKF_ARB_X.W_VC1 (Table 12.8, R353). -/
def IKF_ARB_X_W_VC1 : Fld := ⟨.IKF_ARB_X, 4, 7⟩
/-- IKF_ARB_X.W_VC2 (Table 12.8, R353). -/
def IKF_ARB_X_W_VC2 : Fld := ⟨.IKF_ARB_X, 8, 11⟩
/-- IKF_RTO.RTO_LEVEL (Table 12.8, R353). -/
def IKF_RTO_RTO_LEVEL : Fld := ⟨.IKF_RTO, 0, 1⟩
/-- IKF_RTO.RTO_HELD (Table 12.8, R353). -/
def IKF_RTO_RTO_HELD : Fld := ⟨.IKF_RTO, 8, 8⟩
/-- IKF_RTO_X.TICKS (Table 12.8, R353). -/
def IKF_RTO_X_TICKS : Fld := ⟨.IKF_RTO_X, 0, 23⟩
/-- IKF_MAP_CTL.NENT (Table 12.8, R353). -/
def IKF_MAP_CTL_NENT : Fld := ⟨.IKF_MAP_CTL, 0, 8⟩
/-- IKF_MAP_CTL.MAP_REJ (Table 12.8, R353). -/
def IKF_MAP_CTL_MAP_REJ : Fld := ⟨.IKF_MAP_CTL, 30, 30⟩
/-- IKF_MAP_CTL.LOCK (Table 12.8, R353). -/
def IKF_MAP_CTL_LOCK : Fld := ⟨.IKF_MAP_CTL, 31, 31⟩
/-- IKF_REQ_OUT.COUNT (Table 12.8, R353). -/
def IKF_REQ_OUT_COUNT : Fld := ⟨.IKF_REQ_OUT, 0, 12⟩
/-- IKF_UNREACH.COUNT (Table 12.8, R353). -/
def IKF_UNREACH_COUNT : Fld := ⟨.IKF_UNREACH, 0, 31⟩
/-- IKF_AUTH_FAIL.COUNT (Table 12.8, R353). -/
def IKF_AUTH_FAIL_COUNT : Fld := ⟨.IKF_AUTH_FAIL, 0, 31⟩
/-- IKF_DROP.COUNT (Table 12.8, R353). -/
def IKF_DROP_COUNT : Fld := ⟨.IKF_DROP, 0, 31⟩
/-- IKF_TDROP.COUNT (Table 12.8, R353). -/
def IKF_TDROP_COUNT : Fld := ⟨.IKF_TDROP, 0, 31⟩
/-- IKF_CLR.CLR (Table 12.8, R353). -/
def IKF_CLR_CLR : Fld := ⟨.IKF_CLR, 0, 0⟩
/-- IKF_DEG.DEG_POLICY (Table 12.8, R353). -/
def IKF_DEG_DEG_POLICY : Fld := ⟨.IKF_DEG, 0, 1⟩
/-- IKF_DEG.DEG_HELD (Table 12.8, R353). -/
def IKF_DEG_DEG_HELD : Fld := ⟨.IKF_DEG, 8, 8⟩
/-- IKF_DEG_X.SYM_LIM (Table 12.8, R353). -/
def IKF_DEG_X_SYM_LIM : Fld := ⟨.IKF_DEG_X, 0, 15⟩
/-- IKF_MAP.LOG (Table 12.8, R353). -/
def IKF_MAP_LOG : Fld := ⟨.IKF_MAP, 0, 14⟩
/-- IKF_MAP.PHYS (Table 12.8, R353). -/
def IKF_MAP_PHYS : Fld := ⟨.IKF_MAP, 16, 30⟩
/-- IKF_MAP.VALID (Table 12.8, R353). -/
def IKF_MAP_VALID : Fld := ⟨.IKF_MAP, 31, 31⟩
/-- IKF_PST.LANES (Table 12.9, R354). -/
def IKF_PST_LANES : Fld := ⟨.IKF_PST, 0, 4⟩
/-- IKF_PST.STATE (Table 12.9, R354). -/
def IKF_PST_STATE : Fld := ⟨.IKF_PST, 8, 10⟩
/-- IKF_PST.LANEMASK (Table 12.9, R354). -/
def IKF_PST_LANEMASK : Fld := ⟨.IKF_PST, 16, 31⟩
/-- IKF_PRETRY.COUNT (Table 12.9, R354). -/
def IKF_PRETRY_COUNT : Fld := ⟨.IKF_PRETRY, 0, 31⟩
/-- IKF_PFEC_COR.COUNT (Table 12.9, R354). -/
def IKF_PFEC_COR_COUNT : Fld := ⟨.IKF_PFEC_COR, 0, 31⟩
/-- IKF_PFEC_UNC.COUNT (Table 12.9, R354). -/
def IKF_PFEC_UNC_COUNT : Fld := ⟨.IKF_PFEC_UNC, 0, 31⟩
/-- IKF_PDEG.DEGRADES (Table 12.9, R354). -/
def IKF_PDEG_DEGRADES : Fld := ⟨.IKF_PDEG, 0, 15⟩
/-- IKF_PDEG.RETRAINS (Table 12.9, R354). -/
def IKF_PDEG_RETRAINS : Fld := ⟨.IKF_PDEG, 16, 31⟩
/-- IKF_PDETOUR.HOP0 (Table 12.9, R354). -/
def IKF_PDETOUR_HOP0 : Fld := ⟨.IKF_PDETOUR, 0, 2⟩
/-- IKF_PDETOUR.HOP1 (Table 12.9, R354). -/
def IKF_PDETOUR_HOP1 : Fld := ⟨.IKF_PDETOUR, 3, 5⟩
/-- IKF_PDETOUR.HOP2 (Table 12.9, R354). -/
def IKF_PDETOUR_HOP2 : Fld := ⟨.IKF_PDETOUR, 6, 8⟩
/-- IKF_PDETOUR.NHOP (Table 12.9, R354). -/
def IKF_PDETOUR_NHOP : Fld := ⟨.IKF_PDETOUR, 9, 10⟩
/-- IKF_PDETOUR.VALID (Table 12.9, R354). -/
def IKF_PDETOUR_VALID : Fld := ⟨.IKF_PDETOUR, 15, 15⟩
/-- IKF_PCLR.CLR (Table 12.9, R354). -/
def IKF_PCLR_CLR : Fld := ⟨.IKF_PCLR, 0, 0⟩
/-- IKF_RED.RED_POLICY (Table 13.7, R377). -/
def IKF_RED_RED_POLICY : Fld := ⟨.IKF_RED, 0, 1⟩
/-- IKF_RED.RED_HELD (Table 13.7, R377). -/
def IKF_RED_RED_HELD : Fld := ⟨.IKF_RED, 8, 8⟩
/-- IKF_RED_X.DL_EARLY_US (Table 13.7, R377). -/
def IKF_RED_X_DL_EARLY_US : Fld := ⟨.IKF_RED_X, 0, 19⟩
/-- IKF_RED_X2.DL_LATE_US (Table 13.7, R377). -/
def IKF_RED_X2_DL_LATE_US : Fld := ⟨.IKF_RED_X2, 0, 19⟩
/-- IKF_RED_X3.STALL_MS (Table 13.7, R377). -/
def IKF_RED_X3_STALL_MS : Fld := ⟨.IKF_RED_X3, 0, 9⟩
/-- IKF_RED_ACT.ACTIVE (Table 13.7, R377). -/
def IKF_RED_ACT_ACTIVE : Fld := ⟨.IKF_RED_ACT, 0, 13⟩
/-- IKF_RED_LATE.COUNT (Table 13.7, R377). -/
def IKF_RED_LATE_COUNT : Fld := ⟨.IKF_RED_LATE, 0, 31⟩
/-- IKF_RED_DROP.COUNT (Table 13.7, R377). -/
def IKF_RED_DROP_COUNT : Fld := ⟨.IKF_RED_DROP, 0, 31⟩
/-- IKF_RED_SKIP.COUNT (Table 13.7, R377). -/
def IKF_RED_SKIP_COUNT : Fld := ⟨.IKF_RED_SKIP, 0, 31⟩
/-- IKF_RED_ESC.COUNT (Table 13.7, R377). -/
def IKF_RED_ESC_COUNT : Fld := ⟨.IKF_RED_ESC, 0, 31⟩
/-- IKF_RED_NF.COUNT (Table 13.7, R377). -/
def IKF_RED_NF_COUNT : Fld := ⟨.IKF_RED_NF, 0, 31⟩
/-- IKF_RED_PART.COUNT (Table 13.7, R377). -/
def IKF_RED_PART_COUNT : Fld := ⟨.IKF_RED_PART, 0, 31⟩
/-- IKF_RED_LOG.QUEUE (Table 13.7, R377). -/
def IKF_RED_LOG_QUEUE : Fld := ⟨.IKF_RED_LOG, 0, 14⟩
/-- IKF_RED_LOG.STEP_LO (Table 13.7, R377). -/
def IKF_RED_LOG_STEP_LO : Fld := ⟨.IKF_RED_LOG, 16, 31⟩
/-- IKF_RED_LOGQ.BUCKET (Table 13.7, R377). -/
def IKF_RED_LOGQ_BUCKET : Fld := ⟨.IKF_RED_LOGQ, 0, 31⟩
/-- IKF_RED_LOGP.PRESENT (Table 13.7, R377). -/
def IKF_RED_LOGP_PRESENT : Fld := ⟨.IKF_RED_LOGP, 0, 31⟩
/-- IKF_RED_HOLD.BYTES (Table 13.7, R377). -/
def IKF_RED_HOLD_BYTES : Fld := ⟨.IKF_RED_HOLD, 0, 22⟩
/-- IKF_RED_CLR.CLR (Table 13.7, R377). -/
def IKF_RED_CLR_CLR : Fld := ⟨.IKF_RED_CLR, 0, 0⟩
/-- CMD_SHTAB_LO.ADDR_LO (Table 13.8, R378). -/
def CMD_SHTAB_LO_ADDR_LO : Fld := ⟨.CMD_SHTAB_LO, 6, 31⟩
/-- CMD_SHTAB_HI.ADDR_HI (Table 13.8, R378). -/
def CMD_SHTAB_HI_ADDR_HI : Fld := ⟨.CMD_SHTAB_HI, 0, 15⟩
/-- CMD_SHTAB_N.NSH (Table 13.8, R378). -/
def CMD_SHTAB_N_NSH : Fld := ⟨.CMD_SHTAB_N, 0, 16⟩
/-- CMD_SHTAB_N.BOUND (Table 13.8, R378). -/
def CMD_SHTAB_N_BOUND : Fld := ⟨.CMD_SHTAB_N, 31, 31⟩
/-- CMD_SHEP.COUNT (Table 13.8, R378). -/
def CMD_SHEP_COUNT : Fld := ⟨.CMD_SHEP, 0, 31⟩
/-- CMD_JOB.BOUND (Table 14.9, R402). -/
def CMD_JOB_BOUND : Fld := ⟨.CMD_JOB, 0, 0⟩
/-- CMD_JOB.ATTEMPT (Table 14.9, R402). -/
def CMD_JOB_ATTEMPT : Fld := ⟨.CMD_JOB, 8, 15⟩
/-- CMD_JOB.PHASE (Table 14.9, R402). -/
def CMD_JOB_PHASE : Fld := ⟨.CMD_JOB, 16, 18⟩
/-- CMD_STEP.STEP (Table 14.9, R402). -/
def CMD_STEP_STEP : Fld := ⟨.CMD_STEP, 0, 31⟩
/-- CMD_COMMITTED.STEP (Table 14.9, R402). -/
def CMD_COMMITTED_STEP : Fld := ⟨.CMD_COMMITTED, 0, 31⟩
/-- CMD_JOBMAP_LO.ADDR_LO (Table 14.9, R402). -/
def CMD_JOBMAP_LO_ADDR_LO : Fld := ⟨.CMD_JOBMAP_LO, 6, 31⟩
/-- CMD_JOBMAP_HI.ADDR_HI (Table 14.9, R402). -/
def CMD_JOBMAP_HI_ADDR_HI : Fld := ⟨.CMD_JOBMAP_HI, 0, 15⟩
/-- CMD_JERR.CODE (Table 14.9, R402). -/
def CMD_JERR_CODE : Fld := ⟨.CMD_JERR, 0, 3⟩
/-- CMD_BAR.BAR_LEVEL (Table 14.9, R402). -/
def CMD_BAR_BAR_LEVEL : Fld := ⟨.CMD_BAR, 0, 1⟩
/-- CMD_BAR.BAR_HELD (Table 14.9, R402). -/
def CMD_BAR_BAR_HELD : Fld := ⟨.CMD_BAR, 8, 8⟩
/-- CMD_BAR_X.BAR_MS (Table 14.9, R402). -/
def CMD_BAR_X_BAR_MS : Fld := ⟨.CMD_BAR_X, 0, 15⟩
/-- CMD_STEPCNT.COMMITS (Table 14.9, R402). -/
def CMD_STEPCNT_COMMITS : Fld := ⟨.CMD_STEPCNT, 0, 31⟩
/-- CMD_ABORTCNT.ABORTS (Table 14.9, R402). -/
def CMD_ABORTCNT_ABORTS : Fld := ⟨.CMD_ABORTCNT, 0, 15⟩
/-- CMD_ABORTCNT.STALE (Table 14.9, R402). -/
def CMD_ABORTCNT_STALE : Fld := ⟨.CMD_ABORTCNT, 16, 31⟩
/-- CMD_SNAP.ACTIVE (Table 14.9, R402). -/
def CMD_SNAP_ACTIVE : Fld := ⟨.CMD_SNAP, 0, 0⟩
/-- CMD_SNAP.COPIED (Table 14.9, R402). -/
def CMD_SNAP_COPIED : Fld := ⟨.CMD_SNAP, 1, 1⟩
/-- CMD_SNAP.EXPORTED (Table 14.9, R402). -/
def CMD_SNAP_EXPORTED : Fld := ⟨.CMD_SNAP, 2, 2⟩
/-- CMD_SNAP.UPDWAIT (Table 14.9, R402). -/
def CMD_SNAP_UPDWAIT : Fld := ⟨.CMD_SNAP, 16, 31⟩
/-- CMD_SNAP_STEP.STEP (Table 14.9, R402). -/
def CMD_SNAP_STEP_STEP : Fld := ⟨.CMD_SNAP_STEP, 0, 31⟩
/-- STO_CKPT.CK_POLICY (Table 15.6, R421). -/
def STO_CKPT_CK_POLICY : Fld := ⟨.STO_CKPT, 0, 1⟩
/-- STO_CKPT.CK_HELD (Table 15.6, R421). -/
def STO_CKPT_CK_HELD : Fld := ⟨.STO_CKPT, 8, 8⟩
/-- STO_CKPT_X.ADAPT (Table 15.6, R421). -/
def STO_CKPT_X_ADAPT : Fld := ⟨.STO_CKPT_X, 0, 0⟩
/-- STO_CKPT_X.FIX_SEL (Table 15.6, R421). -/
def STO_CKPT_X_FIX_SEL : Fld := ⟨.STO_CKPT_X, 1, 1⟩
/-- STO_CKPT_X.CFLOOR_MS (Table 15.6, R421). -/
def STO_CKPT_X_CFLOOR_MS : Fld := ⟨.STO_CKPT_X, 4, 15⟩
/-- STO_CKPT_X.EV_WIN_H (Table 15.6, R421). -/
def STO_CKPT_X_EV_WIN_H : Fld := ⟨.STO_CKPT_X, 16, 23⟩
/-- STO_ST.READY (Table 15.6, R421). -/
def STO_ST_READY : Fld := ⟨.STO_ST, 0, 0⟩
/-- STO_ST.WRITING (Table 15.6, R421). -/
def STO_ST_WRITING : Fld := ⟨.STO_ST, 1, 1⟩
/-- STO_ST.RESTORING (Table 15.6, R421). -/
def STO_ST_RESTORING : Fld := ⟨.STO_ST, 2, 2⟩
/-- STO_ST.WEAR_OVER (Table 15.6, R421). -/
def STO_ST_WEAR_OVER : Fld := ⟨.STO_ST, 3, 3⟩
/-- STO_LAST_OWN.STEP (Table 15.6, R421). -/
def STO_LAST_OWN_STEP : Fld := ⟨.STO_LAST_OWN, 0, 31⟩
/-- STO_LAST_BUD.STEP (Table 15.6, R421). -/
def STO_LAST_BUD_STEP : Fld := ⟨.STO_LAST_BUD, 0, 31⟩
/-- STO_PLAN.STEP (Table 15.6, R421). -/
def STO_PLAN_STEP : Fld := ⟨.STO_PLAN, 0, 31⟩
/-- STO_NSTEP.N (Table 15.6, R421). -/
def STO_NSTEP_N : Fld := ⟨.STO_NSTEP, 0, 15⟩
/-- STO_CKCNT.DONE (Table 15.6, R421). -/
def STO_CKCNT_DONE : Fld := ⟨.STO_CKCNT, 0, 15⟩
/-- STO_CKCNT.SKIPPED (Table 15.6, R421). -/
def STO_CKCNT_SKIPPED : Fld := ⟨.STO_CKCNT, 16, 31⟩
/-- STO_STALL.TICKS (Table 15.6, R421). -/
def STO_STALL_TICKS : Fld := ⟨.STO_STALL, 0, 31⟩
/-- STO_RATE.MBPS (Table 15.6, R421). -/
def STO_RATE_MBPS : Fld := ⟨.STO_RATE, 0, 15⟩
/-- STO_PE.AVG (Table 15.6, R421). -/
def STO_PE_AVG : Fld := ⟨.STO_PE, 0, 15⟩
/-- STO_PE.MAX (Table 15.6, R421). -/
def STO_PE_MAX : Fld := ⟨.STO_PE, 16, 31⟩
/-- STO_PSLC.GIB (Table 15.6, R421). -/
def STO_PSLC_GIB : Fld := ⟨.STO_PSLC, 0, 15⟩
/-- STO_BAD.GROWN (Table 15.6, R421). -/
def STO_BAD_GROWN : Fld := ⟨.STO_BAD, 0, 15⟩
/-- STO_BAD.FACTORY (Table 15.6, R421). -/
def STO_BAD_FACTORY : Fld := ⟨.STO_BAD, 16, 31⟩
/-- STO_REST.CODE (Table 15.6, R421). -/
def STO_REST_CODE : Fld := ⟨.STO_REST, 0, 3⟩
/-- STO_CLR.CLR (Table 15.6, R421). -/
def STO_CLR_CLR : Fld := ⟨.STO_CLR, 0, 0⟩
/-- STO_SCRUB.SCRUB_EN (Table 15.6, R421). -/
def STO_SCRUB_SCRUB_EN : Fld := ⟨.STO_SCRUB, 0, 0⟩
/-- STO_SCRUB.SCRUB_HELD (Table 15.6, R421). -/
def STO_SCRUB_SCRUB_HELD : Fld := ⟨.STO_SCRUB, 8, 8⟩
/-- STO_SCRUB_X.SCRUB_D (Table 15.6, R421). -/
def STO_SCRUB_X_SCRUB_D : Fld := ⟨.STO_SCRUB_X, 0, 7⟩
/-- STO_SCRUB_X.REFRESH_LVL (Table 15.6, R421). -/
def STO_SCRUB_X_REFRESH_LVL : Fld := ⟨.STO_SCRUB_X, 8, 11⟩
/-- NAND_IF.RATE_PROFILE (Table 15.8, R422). -/
def NAND_IF_RATE_PROFILE : Fld := ⟨.NAND_IF, 0, 1⟩
/-- NAND_IF.RATE_HELD (Table 15.8, R422). -/
def NAND_IF_RATE_HELD : Fld := ⟨.NAND_IF, 8, 8⟩
/-- NAND_IF_X.MTS (Table 15.8, R422). -/
def NAND_IF_X_MTS : Fld := ⟨.NAND_IF_X, 0, 11⟩
/-- NAND_CLR.CLR (Table 15.8, R422). -/
def NAND_CLR_CLR : Fld := ⟨.NAND_CLR, 0, 0⟩
/-- NAND_ST.TGTS (Table 15.8, R422). -/
def NAND_ST_TGTS : Fld := ⟨.NAND_ST, 0, 3⟩
/-- NAND_ST.LUNS (Table 15.8, R422). -/
def NAND_ST_LUNS : Fld := ⟨.NAND_ST, 4, 6⟩
/-- NAND_ST.STATE (Table 15.8, R422). -/
def NAND_ST_STATE : Fld := ⟨.NAND_ST, 8, 10⟩
/-- NAND_ST.MTS (Table 15.8, R422). -/
def NAND_ST_MTS : Fld := ⟨.NAND_ST, 16, 27⟩
/-- NAND_CW_COR.COUNT (Table 15.8, R422). -/
def NAND_CW_COR_COUNT : Fld := ⟨.NAND_CW_COR, 0, 31⟩
/-- NAND_RETRY.COUNT (Table 15.8, R422). -/
def NAND_RETRY_COUNT : Fld := ⟨.NAND_RETRY, 0, 31⟩
/-- NAND_SOFT.COUNT (Table 15.8, R422). -/
def NAND_SOFT_COUNT : Fld := ⟨.NAND_SOFT, 0, 31⟩
/-- NAND_UNC.COUNT (Table 15.8, R422). -/
def NAND_UNC_COUNT : Fld := ⟨.NAND_UNC, 0, 15⟩
/-- NAND_PEFAIL.PROG (Table 15.8, R422). -/
def NAND_PEFAIL_PROG : Fld := ⟨.NAND_PEFAIL, 0, 15⟩
/-- NAND_PEFAIL.ERASE (Table 15.8, R422). -/
def NAND_PEFAIL_ERASE : Fld := ⟨.NAND_PEFAIL, 16, 31⟩
/-- HIF_ST.WIDTH (Table 16.10, R445). -/
def HIF_ST_WIDTH : Fld := ⟨.HIF_ST, 0, 4⟩
/-- HIF_ST.RATE (Table 16.10, R445). -/
def HIF_ST_RATE : Fld := ⟨.HIF_ST, 8, 10⟩
/-- HIF_ST.FLIT (Table 16.10, R445). -/
def HIF_ST_FLIT : Fld := ⟨.HIF_ST, 11, 11⟩
/-- HIF_ST.IDE_LINK (Table 16.10, R445). -/
def HIF_ST_IDE_LINK : Fld := ⟨.HIF_ST, 12, 12⟩
/-- HIF_ERR.NARROW (Table 16.10, R445). -/
def HIF_ERR_NARROW : Fld := ⟨.HIF_ERR, 0, 0⟩
/-- HIF_ERR.RANGE (Table 16.10, R445). -/
def HIF_ERR_RANGE : Fld := ⟨.HIF_ERR, 1, 1⟩
/-- HIF_ERR.WIN (Table 16.10, R445). -/
def HIF_ERR_WIN : Fld := ⟨.HIF_ERR, 2, 2⟩
/-- HIF_ERR_ADDR.OFFSET (Table 16.10, R445). -/
def HIF_ERR_ADDR_OFFSET : Fld := ⟨.HIF_ERR_ADDR, 0, 25⟩
/-- HIF_AGE.AGE_PROFILE (Table 16.10, R445). -/
def HIF_AGE_AGE_PROFILE : Fld := ⟨.HIF_AGE, 0, 1⟩
/-- HIF_AGE.AGE_HELD (Table 16.10, R445). -/
def HIF_AGE_AGE_HELD : Fld := ⟨.HIF_AGE, 8, 8⟩
/-- HIF_AGE_X.AGE_TICKS (Table 16.10, R445). -/
def HIF_AGE_X_AGE_TICKS : Fld := ⟨.HIF_AGE_X, 0, 23⟩
/-- HIF_Q_ACT.COUNT (Table 16.10, R445). -/
def HIF_Q_ACT_COUNT : Fld := ⟨.HIF_Q_ACT, 0, 15⟩
/-- HIF_PROMO.COUNT (Table 16.10, R445). -/
def HIF_PROMO_COUNT : Fld := ⟨.HIF_PROMO, 0, 31⟩
/-- HIF_FWQBASE.QBASE (Table 16.10, R445). -/
def HIF_FWQBASE_QBASE : Fld := ⟨.HIF_FWQBASE, 0, 14⟩
/-- HIF_FWQBASE.QCNT (Table 16.10, R445). -/
def HIF_FWQBASE_QCNT : Fld := ⟨.HIF_FWQBASE, 16, 31⟩
/-- HIF_FN_QBASE.QBASE (Table 16.10, R445). -/
def HIF_FN_QBASE_QBASE : Fld := ⟨.HIF_FN_QBASE, 0, 14⟩
/-- HIF_FN_QBASE.QCNT (Table 16.10, R445). -/
def HIF_FN_QBASE_QCNT : Fld := ⟨.HIF_FN_QBASE, 16, 31⟩
/-- HIF_FN_CTL.ADM_EN (Table 16.10, R445). -/
def HIF_FN_CTL_ADM_EN : Fld := ⟨.HIF_FN_CTL, 0, 0⟩
/-- HIF_FN_CTL.ASQ_LOG (Table 16.10, R445). -/
def HIF_FN_CTL_ASQ_LOG : Fld := ⟨.HIF_FN_CTL, 4, 7⟩
/-- HIF_FN_CTL.ACQ_LOG (Table 16.10, R445). -/
def HIF_FN_CTL_ACQ_LOG : Fld := ⟨.HIF_FN_CTL, 8, 11⟩
/-- HIF_FN_CTL.AEQ_LOG (Table 16.10, R445). -/
def HIF_FN_CTL_AEQ_LOG : Fld := ⟨.HIF_FN_CTL, 12, 15⟩
/-- HIF_FN_ASQ_LO.BASE_LO (Table 16.10, R445). -/
def HIF_FN_ASQ_LO_BASE_LO : Fld := ⟨.HIF_FN_ASQ_LO, 6, 31⟩
/-- HIF_FN_ASQ_HI.BASE_HI (Table 16.10, R445). -/
def HIF_FN_ASQ_HI_BASE_HI : Fld := ⟨.HIF_FN_ASQ_HI, 0, 31⟩
/-- HIF_FN_ACQ_LO.BASE_LO (Table 16.10, R445). -/
def HIF_FN_ACQ_LO_BASE_LO : Fld := ⟨.HIF_FN_ACQ_LO, 6, 31⟩
/-- HIF_FN_ACQ_HI.BASE_HI (Table 16.10, R445). -/
def HIF_FN_ACQ_HI_BASE_HI : Fld := ⟨.HIF_FN_ACQ_HI, 0, 31⟩
/-- HIF_FN_AEQ_LO.BASE_LO (Table 16.10, R445). -/
def HIF_FN_AEQ_LO_BASE_LO : Fld := ⟨.HIF_FN_AEQ_LO, 6, 31⟩
/-- HIF_FN_AEQ_HI.BASE_HI (Table 16.10, R445). -/
def HIF_FN_AEQ_HI_BASE_HI : Fld := ⟨.HIF_FN_AEQ_HI, 0, 31⟩
/-- HIF_FN_ST.TDI_RUN (Table 16.10, R445). -/
def HIF_FN_ST_TDI_RUN : Fld := ⟨.HIF_FN_ST, 0, 0⟩
/-- HIF_FN_ST.ADM_ACT (Table 16.10, R445). -/
def HIF_FN_ST_ADM_ACT : Fld := ⟨.HIF_FN_ST, 1, 1⟩
/-- HIF_FN_MSIX.SIZE (Table 16.10, R445). -/
def HIF_FN_MSIX_SIZE : Fld := ⟨.HIF_FN_MSIX, 0, 12⟩
/-- HIF_FN_DBDROP.COUNT (Table 16.10, R445). -/
def HIF_FN_DBDROP_COUNT : Fld := ⟨.HIF_FN_DBDROP, 0, 31⟩
/-- HIF_WIN_LO.EN (Table 16.10, R445). -/
def HIF_WIN_LO_EN : Fld := ⟨.HIF_WIN_LO, 0, 0⟩
/-- HIF_WIN_LO.WORLD (Table 16.10, R445). -/
def HIF_WIN_LO_WORLD : Fld := ⟨.HIF_WIN_LO, 1, 1⟩
/-- HIF_WIN_LO.ADDR_LO (Table 16.10, R445). -/
def HIF_WIN_LO_ADDR_LO : Fld := ⟨.HIF_WIN_LO, 16, 31⟩
/-- HIF_WIN_HI.ADDR_HI (Table 16.10, R445). -/
def HIF_WIN_HI_ADDR_HI : Fld := ⟨.HIF_WIN_HI, 0, 15⟩
/-- SEC_ST.ID_OK (Table 17.6, R464). -/
def SEC_ST_ID_OK : Fld := ⟨.SEC_ST, 0, 0⟩
/-- SEC_ST.ID_FAIL (Table 17.6, R464). -/
def SEC_ST_ID_FAIL : Fld := ⟨.SEC_ST, 1, 1⟩
/-- SEC_ST.BOOT_FAIL (Table 17.6, R464). -/
def SEC_ST_BOOT_FAIL : Fld := ⟨.SEC_ST, 2, 2⟩
/-- SEC_ST.S_ACTIVE (Table 17.6, R464). -/
def SEC_ST_S_ACTIVE : Fld := ⟨.SEC_ST, 3, 3⟩
/-- SEC_ST.SEALED (Table 17.6, R464). -/
def SEC_ST_SEALED : Fld := ⟨.SEC_ST, 4, 4⟩
/-- SEC_ST.KSLOTS (Table 17.6, R464). -/
def SEC_ST_KSLOTS : Fld := ⟨.SEC_ST, 5, 7⟩
/-- SEC_ERR.OVERLAP (Table 17.6, R464). -/
def SEC_ERR_OVERLAP : Fld := ⟨.SEC_ERR, 0, 0⟩
/-- SEC_ERR.BUSY (Table 17.6, R464). -/
def SEC_ERR_BUSY : Fld := ⟨.SEC_ERR, 1, 1⟩
/-- SEC_ERR.DBG_REJ (Table 17.6, R464). -/
def SEC_ERR_DBG_REJ : Fld := ⟨.SEC_ERR, 2, 2⟩
/-- SEC_WORLD_CORE.CORE (Table 17.6, R464). -/
def SEC_WORLD_CORE_CORE : Fld := ⟨.SEC_WORLD_CORE, 0, 15⟩
/-- SEC_WORLD_CL.CL (Table 17.6, R464). -/
def SEC_WORLD_CL_CL : Fld := ⟨.SEC_WORLD_CL, 0, 7⟩
/-- SEC_DBG.JTAG_MODE (Table 17.6, R464). -/
def SEC_DBG_JTAG_MODE : Fld := ⟨.SEC_DBG, 0, 1⟩
/-- SEC_WV.WV_LEVEL (Table 17.6, R464). -/
def SEC_WV_WV_LEVEL : Fld := ⟨.SEC_WV, 0, 0⟩
/-- SEC_WV.WV_HELD (Table 17.6, R464). -/
def SEC_WV_WV_HELD : Fld := ⟨.SEC_WV, 8, 8⟩
/-- SEC_WV_X.EVT_EN (Table 17.6, R464). -/
def SEC_WV_X_EVT_EN : Fld := ⟨.SEC_WV_X, 0, 0⟩
/-- SEC_WV_CNT.COUNT (Table 17.6, R464). -/
def SEC_WV_CNT_COUNT : Fld := ⟨.SEC_WV_CNT, 0, 31⟩
/-- SEC_WV_LOG.KIND (Table 17.6, R464). -/
def SEC_WV_LOG_KIND : Fld := ⟨.SEC_WV_LOG, 0, 3⟩
/-- SEC_WV_LOG.SOURCE (Table 17.6, R464). -/
def SEC_WV_LOG_SOURCE : Fld := ⟨.SEC_WV_LOG, 8, 15⟩
/-- SEC_WV_ADDR_LO.ADDR_LO (Table 17.6, R464). -/
def SEC_WV_ADDR_LO_ADDR_LO : Fld := ⟨.SEC_WV_ADDR_LO, 0, 31⟩
/-- SEC_WV_ADDR_HI.ADDR_HI (Table 17.6, R464). -/
def SEC_WV_ADDR_HI_ADDR_HI : Fld := ⟨.SEC_WV_ADDR_HI, 0, 15⟩
/-- SEC_WV_CLR.CLR (Table 17.6, R464). -/
def SEC_WV_CLR_CLR : Fld := ⟨.SEC_WV_CLR, 0, 0⟩
/-- SEC_IDPUB.KEY (Table 17.6, R464). -/
def SEC_IDPUB_KEY : Fld := ⟨.SEC_IDPUB, 0, 31⟩
/-- SEC_MEAS.DIGEST (Table 17.6, R464). -/
def SEC_MEAS_DIGEST : Fld := ⟨.SEC_MEAS, 0, 31⟩
/-- SEC_REG_LO.BASE (Table 17.6, R464). -/
def SEC_REG_LO_BASE : Fld := ⟨.SEC_REG_LO, 0, 26⟩
/-- SEC_REG_LO.ZEROING (Table 17.6, R464). -/
def SEC_REG_LO_ZEROING : Fld := ⟨.SEC_REG_LO, 29, 29⟩
/-- SEC_REG_LO.WORLD (Table 17.6, R464). -/
def SEC_REG_LO_WORLD : Fld := ⟨.SEC_REG_LO, 30, 30⟩
/-- SEC_REG_LO.VALID (Table 17.6, R464). -/
def SEC_REG_LO_VALID : Fld := ⟨.SEC_REG_LO, 31, 31⟩
/-- SEC_REG_HI.LIMIT (Table 17.6, R464). -/
def SEC_REG_HI_LIMIT : Fld := ⟨.SEC_REG_HI, 0, 26⟩
/-- BC_FW_WD.WD_PROFILE (Table 18.10, R487). -/
def BC_FW_WD_WD_PROFILE : Fld := ⟨.BC_FW_WD, 0, 1⟩
/-- BC_FW_WD.WD_HELD (Table 18.10, R487). -/
def BC_FW_WD_WD_HELD : Fld := ⟨.BC_FW_WD, 8, 8⟩
/-- BC_FW_WD_X.WD_MS (Table 18.10, R487). -/
def BC_FW_WD_X_WD_MS : Fld := ⟨.BC_FW_WD_X, 0, 7⟩
/-- BC_FW_WD_X.CRASH_LIM (Table 18.10, R487). -/
def BC_FW_WD_X_CRASH_LIM : Fld := ⟨.BC_FW_WD_X, 8, 11⟩
/-- BC_FW_BANK.ACTIVE (Table 18.10, R487). -/
def BC_FW_BANK_ACTIVE : Fld := ⟨.BC_FW_BANK, 0, 4⟩
/-- BC_FW_KICK.KICK (Table 18.10, R487). -/
def BC_FW_KICK_KICK : Fld := ⟨.BC_FW_KICK, 0, 4⟩
/-- BC_FW_ST.EMERG (Table 18.10, R487). -/
def BC_FW_ST_EMERG : Fld := ⟨.BC_FW_ST, 0, 0⟩
/-- BC_FW_ST.DEFER (Table 18.10, R487). -/
def BC_FW_ST_DEFER : Fld := ⟨.BC_FW_ST, 5, 9⟩
/-- BC_FW_ST.RESTARTING (Table 18.10, R487). -/
def BC_FW_ST_RESTARTING : Fld := ⟨.BC_FW_ST, 10, 14⟩
/-- BC_FW_ST.DEAD (Table 18.10, R487). -/
def BC_FW_ST_DEAD : Fld := ⟨.BC_FW_ST, 15, 19⟩
/-- BC_FW_VER.VERSION (Table 18.10, R487). -/
def BC_FW_VER_VERSION : Fld := ⟨.BC_FW_VER, 0, 31⟩
/-- BC_FW_SVN.SVN (Table 18.10, R487). -/
def BC_FW_SVN_SVN : Fld := ⟨.BC_FW_SVN, 0, 15⟩
/-- BC_FW_SVN.FLOOR (Table 18.10, R487). -/
def BC_FW_SVN_FLOOR : Fld := ⟨.BC_FW_SVN, 16, 31⟩
/-- BC_FW_RST.RESTARTS (Table 18.10, R487). -/
def BC_FW_RST_RESTARTS : Fld := ⟨.BC_FW_RST, 0, 15⟩
/-- BC_FW_RST.CRASHES (Table 18.10, R487). -/
def BC_FW_RST_CRASHES : Fld := ⟨.BC_FW_RST, 16, 31⟩
/-- BC_FW_CAUSE.CAUSE (Table 18.10, R487). -/
def BC_FW_CAUSE_CAUSE : Fld := ⟨.BC_FW_CAUSE, 0, 2⟩
/-- EVG_CTL.EN (Table 18.11, R488). -/
def EVG_CTL_EN : Fld := ⟨.EVG_CTL, 0, 0⟩
/-- EVG_CTL.EOI_ERR (Table 18.11, R488). -/
def EVG_CTL_EOI_ERR : Fld := ⟨.EVG_CTL, 1, 1⟩
/-- EVG_BP.BP (Table 18.11, R488). -/
def EVG_BP_BP : Fld := ⟨.EVG_BP, 0, 3⟩
/-- EVG_TOP.SRC (Table 18.11, R488). -/
def EVG_TOP_SRC : Fld := ⟨.EVG_TOP, 0, 9⟩
/-- EVG_TOP.PRIO (Table 18.11, R488). -/
def EVG_TOP_PRIO : Fld := ⟨.EVG_TOP, 16, 23⟩
/-- EVG_TOP.COUNT (Table 18.11, R488). -/
def EVG_TOP_COUNT : Fld := ⟨.EVG_TOP, 24, 31⟩
/-- EVG_TAKE.SRC (Table 18.11, R488). -/
def EVG_TAKE_SRC : Fld := ⟨.EVG_TAKE, 0, 9⟩
/-- EVG_RUN.PRIO (Table 18.11, R488). -/
def EVG_RUN_PRIO : Fld := ⟨.EVG_RUN, 0, 7⟩
/-- EVG_RUN.IDLE (Table 18.11, R488). -/
def EVG_RUN_IDLE : Fld := ⟨.EVG_RUN, 8, 8⟩
/-- EVG_RUN.DEPTH (Table 18.11, R488). -/
def EVG_RUN_DEPTH : Fld := ⟨.EVG_RUN, 9, 12⟩
/-- EVG_RUN.FULL (Table 18.11, R488). -/
def EVG_RUN_FULL : Fld := ⟨.EVG_RUN, 13, 13⟩
/-- EVG_RUN.COUNT (Table 18.11, R488). -/
def EVG_RUN_COUNT : Fld := ⟨.EVG_RUN, 24, 31⟩
/-- EVG_EOI.SRC (Table 18.11, R488). -/
def EVG_EOI_SRC : Fld := ⟨.EVG_EOI, 0, 9⟩
/-- EVG_PRIO.PRIO0 (Table 18.11, R488). -/
def EVG_PRIO_PRIO0 : Fld := ⟨.EVG_PRIO, 0, 7⟩
/-- EVG_PRIO.PRIO1 (Table 18.11, R488). -/
def EVG_PRIO_PRIO1 : Fld := ⟨.EVG_PRIO, 8, 15⟩
/-- EVG_PRIO.PRIO2 (Table 18.11, R488). -/
def EVG_PRIO_PRIO2 : Fld := ⟨.EVG_PRIO, 16, 23⟩
/-- EVG_PRIO.PRIO3 (Table 18.11, R488). -/
def EVG_PRIO_PRIO3 : Fld := ⟨.EVG_PRIO, 24, 31⟩
/-- EVG_EN.EN (Table 18.11, R488). -/
def EVG_EN_EN : Fld := ⟨.EVG_EN, 0, 31⟩
/-- EVG_PEND.PEND (Table 18.11, R488). -/
def EVG_PEND_PEND : Fld := ⟨.EVG_PEND, 0, 31⟩
/-- EVG_PSET.PSET (Table 18.11, R488). -/
def EVG_PSET_PSET : Fld := ⟨.EVG_PSET, 0, 31⟩
/-- EVG_PCLR.PCLR (Table 18.11, R488). -/
def EVG_PCLR_PCLR : Fld := ⟨.EVG_PCLR, 0, 31⟩
/-- EVG_ACT.ACT (Table 18.11, R488). -/
def EVG_ACT_ACT : Fld := ⟨.EVG_ACT, 0, 31⟩
/-- LNT_BASE_LO.ADDR_LO (Table 18.12, R489). -/
def LNT_BASE_LO_ADDR_LO : Fld := ⟨.LNT_BASE_LO, 20, 31⟩
/-- LNT_BASE_HI.ADDR_HI (Table 18.12, R489). -/
def LNT_BASE_HI_ADDR_HI : Fld := ⟨.LNT_BASE_HI, 0, 15⟩
/-- LNT_HEAD.HEAD (Table 18.12, R489). -/
def LNT_HEAD_HEAD : Fld := ⟨.LNT_HEAD, 0, 13⟩
/-- LNT_SEQ.SEQ (Table 18.12, R489). -/
def LNT_SEQ_SEQ : Fld := ⟨.LNT_SEQ, 0, 31⟩
/-- LNT_LVL.LNT_LEVEL (Table 18.12, R489). -/
def LNT_LVL_LNT_LEVEL : Fld := ⟨.LNT_LVL, 0, 1⟩
/-- LNT_LVL.LNT_HELD (Table 18.12, R489). -/
def LNT_LVL_LNT_HELD : Fld := ⟨.LNT_LVL, 8, 8⟩
/-- LNT_MASK.MASK (Table 18.12, R489). -/
def LNT_MASK_MASK : Fld := ⟨.LNT_MASK, 0, 31⟩
/-- BC_PWR.PROFILE (Table 19.7, R509). -/
def BC_PWR_PROFILE : Fld := ⟨.BC_PWR, 0, 1⟩
/-- BC_PWR.PWR_HELD (Table 19.7, R509). -/
def BC_PWR_PWR_HELD : Fld := ⟨.BC_PWR, 8, 8⟩
/-- BC_PWR_X.BUDGET_W (Table 19.7, R509). -/
def BC_PWR_X_BUDGET_W : Fld := ⟨.BC_PWR_X, 0, 11⟩
/-- BC_PWR_X.CEIL_PT (Table 19.7, R509). -/
def BC_PWR_X_CEIL_PT : Fld := ⟨.BC_PWR_X, 16, 19⟩
/-- BC_PWR_X.ADAPT (Table 19.7, R509). -/
def BC_PWR_X_ADAPT : Fld := ⟨.BC_PWR_X, 24, 24⟩
/-- BC_LCNT_LO.COUNT (Table 19.7, R509). -/
def BC_LCNT_LO_COUNT : Fld := ⟨.BC_LCNT_LO, 0, 31⟩
/-- BC_LCNT_HI.COUNT (Table 19.7, R509). -/
def BC_LCNT_HI_COUNT : Fld := ⟨.BC_LCNT_HI, 0, 31⟩
/-- BC_SLEEP.SLEEP_POLICY (Table 19.7, R509). -/
def BC_SLEEP_SLEEP_POLICY : Fld := ⟨.BC_SLEEP, 0, 1⟩
/-- BC_SLEEP.SLEEP_HELD (Table 19.7, R509). -/
def BC_SLEEP_SLEEP_HELD : Fld := ⟨.BC_SLEEP, 8, 8⟩
/-- BC_SLEEP_X.DOZE_EN (Table 19.7, R509). -/
def BC_SLEEP_X_DOZE_EN : Fld := ⟨.BC_SLEEP_X, 0, 0⟩
/-- BC_SLEEP_X.BIV_EN (Table 19.7, R509). -/
def BC_SLEEP_X_BIV_EN : Fld := ⟨.BC_SLEEP_X, 1, 1⟩
/-- BC_SLEEP_X.SR_EN (Table 19.7, R509). -/
def BC_SLEEP_X_SR_EN : Fld := ⟨.BC_SLEEP_X, 2, 2⟩
/-- BC_SLEEP_X.DOZE_IDLE_US (Table 19.7, R509). -/
def BC_SLEEP_X_DOZE_IDLE_US : Fld := ⟨.BC_SLEEP_X, 8, 15⟩
/-- BC_SLEEP_X.BIV_IDLE_MS (Table 19.7, R509). -/
def BC_SLEEP_X_BIV_IDLE_MS : Fld := ⟨.BC_SLEEP_X, 16, 31⟩
/-- BC_PWR_ST.VF_BAD (Table 19.7, R509). -/
def BC_PWR_ST_VF_BAD : Fld := ⟨.BC_PWR_ST, 0, 0⟩
/-- BC_PWR_ST.HBM_SR (Table 19.7, R509). -/
def BC_PWR_ST_HBM_SR : Fld := ⟨.BC_PWR_ST, 1, 1⟩
/-- BC_LK_ST.THROT (Table 19.7, R509). -/
def BC_LK_ST_THROT : Fld := ⟨.BC_LK_ST, 0, 7⟩
/-- BC_LK_ST.OC (Table 19.7, R509). -/
def BC_LK_ST_OC : Fld := ⟨.BC_LK_ST, 8, 11⟩
/-- BC_LK_ST.PCAP (Table 19.7, R509). -/
def BC_LK_ST_PCAP : Fld := ⟨.BC_LK_ST, 12, 12⟩
/-- BC_LK_ST.PWRBRK (Table 19.7, R509). -/
def BC_LK_ST_PWRBRK : Fld := ⟨.BC_LK_ST, 13, 13⟩
/-- BC_LK_ST.TRIP (Table 19.7, R509). -/
def BC_LK_ST_TRIP : Fld := ⟨.BC_LK_ST, 14, 14⟩
/-- BC_LK_CNT.THERM (Table 19.7, R509). -/
def BC_LK_CNT_THERM : Fld := ⟨.BC_LK_CNT, 0, 7⟩
/-- BC_LK_CNT.OC (Table 19.7, R509). -/
def BC_LK_CNT_OC : Fld := ⟨.BC_LK_CNT, 8, 15⟩
/-- BC_LK_CNT.PCAP (Table 19.7, R509). -/
def BC_LK_CNT_PCAP : Fld := ⟨.BC_LK_CNT, 16, 23⟩
/-- BC_LK_CNT.BRAKE (Table 19.7, R509). -/
def BC_LK_CNT_BRAKE : Fld := ⟨.BC_LK_CNT, 24, 31⟩
/-- BC_PKG_PWR.WATTS (Table 19.7, R509). -/
def BC_PKG_PWR_WATTS : Fld := ⟨.BC_PKG_PWR, 0, 15⟩
/-- BC_ENERGY_LO.MJ (Table 19.7, R509). -/
def BC_ENERGY_LO_MJ : Fld := ⟨.BC_ENERGY_LO, 0, 31⟩
/-- BC_ENERGY_HI.MJ (Table 19.7, R509). -/
def BC_ENERGY_HI_MJ : Fld := ⟨.BC_ENERGY_HI, 0, 31⟩
/-- BC_TJ_MAX.TEMP (Table 19.7, R509). -/
def BC_TJ_MAX_TEMP : Fld := ⟨.BC_TJ_MAX, 0, 7⟩
/-- BC_TJ_MAX.DIE (Table 19.7, R509). -/
def BC_TJ_MAX_DIE : Fld := ⟨.BC_TJ_MAX, 8, 11⟩
/-- BC_LK_CLR.CLR (Table 19.7, R509). -/
def BC_LK_CLR_CLR : Fld := ⟨.BC_LK_CLR, 0, 0⟩
/-- BC_VF.FREQ_MHZ (Table 19.7, R509). -/
def BC_VF_FREQ_MHZ : Fld := ⟨.BC_VF, 0, 11⟩
/-- BC_VF.VOLT_MV (Table 19.7, R509). -/
def BC_VF_VOLT_MV : Fld := ⟨.BC_VF, 16, 27⟩
/-- BC_VF.VALID (Table 19.7, R509). -/
def BC_VF_VALID : Fld := ⟨.BC_VF, 31, 31⟩
/-- BC_CL.REQ (Table 19.7, R509). -/
def BC_CL_REQ : Fld := ⟨.BC_CL, 0, 3⟩
/-- BC_CL.EFF (Table 19.7, R509). -/
def BC_CL_EFF : Fld := ⟨.BC_CL, 4, 7⟩
/-- BC_CL.CEIL (Table 19.7, R509). -/
def BC_CL_CEIL : Fld := ⟨.BC_CL, 8, 11⟩
/-- BC_CL.DIV (Table 19.7, R509). -/
def BC_CL_DIV : Fld := ⟨.BC_CL, 12, 14⟩
/-- BC_CL.STATE (Table 19.7, R509). -/
def BC_CL_STATE : Fld := ⟨.BC_CL, 16, 17⟩
/-- BC_CL.WAKE (Table 19.7, R509). -/
def BC_CL_WAKE : Fld := ⟨.BC_CL, 24, 24⟩
/-- BC_CL_F.FREQ_MHZ (Table 19.7, R509). -/
def BC_CL_F_FREQ_MHZ : Fld := ⟨.BC_CL_F, 0, 11⟩
/-- BC_CL_F.VOLT_MV (Table 19.7, R509). -/
def BC_CL_F_VOLT_MV : Fld := ⟨.BC_CL_F, 16, 27⟩
/-- BC_CL_T.TEMP (Table 19.7, R509). -/
def BC_CL_T_TEMP : Fld := ⟨.BC_CL_T, 0, 7⟩
/-- BC_CL_T.WATTS (Table 19.7, R509). -/
def BC_CL_T_WATTS : Fld := ⟨.BC_CL_T, 16, 31⟩
/-- BC_RAIL.AMPS (Table 19.7, R509). -/
def BC_RAIL_AMPS : Fld := ⟨.BC_RAIL, 0, 9⟩
/-- BC_RAIL.PEAK (Table 19.7, R509). -/
def BC_RAIL_PEAK : Fld := ⟨.BC_RAIL, 16, 25⟩
/-- CL_PST.STATE (Table 19.8, R510). -/
def CL_PST_STATE : Fld := ⟨.CL_PST, 0, 1⟩
/-- CL_PST.IDLE (Table 19.8, R510). -/
def CL_PST_IDLE : Fld := ⟨.CL_PST, 2, 2⟩
/-- CL_DOZES.COUNT (Table 19.8, R510). -/
def CL_DOZES_COUNT : Fld := ⟨.CL_DOZES, 0, 31⟩
/-- CL_WEP0.EPOCH (Table 19.8, R510). -/
def CL_WEP0_EPOCH : Fld := ⟨.CL_WEP0, 0, 31⟩
/-- CL_WEP1.EPOCH (Table 19.8, R510). -/
def CL_WEP1_EPOCH : Fld := ⟨.CL_WEP1, 0, 31⟩
/-- BC_BOOT.BIST_LEVEL (Table 20.9, R527). -/
def BC_BOOT_BIST_LEVEL : Fld := ⟨.BC_BOOT, 0, 1⟩
/-- BC_BOOT.BOOT_HELD (Table 20.9, R527). -/
def BC_BOOT_BOOT_HELD : Fld := ⟨.BC_BOOT, 8, 8⟩
/-- BC_BOOT_X.FULL_COLD (Table 20.9, R527). -/
def BC_BOOT_X_FULL_COLD : Fld := ⟨.BC_BOOT_X, 0, 0⟩
/-- BC_BOOT_X.FULL_WARM (Table 20.9, R527). -/
def BC_BOOT_X_FULL_WARM : Fld := ⟨.BC_BOOT_X, 1, 1⟩
/-- BC_BOOT_X.REBUILD (Table 20.9, R527). -/
def BC_BOOT_X_REBUILD : Fld := ⟨.BC_BOOT_X, 2, 2⟩
/-- BC_BOOT_X.WR_MIN (Table 20.9, R527). -/
def BC_BOOT_X_WR_MIN : Fld := ⟨.BC_BOOT_X, 8, 15⟩
/-- BC_BOOT_X.FAB_WAIT_MS (Table 20.9, R527). -/
def BC_BOOT_X_FAB_WAIT_MS : Fld := ⟨.BC_BOOT_X, 16, 27⟩
/-- BC_BOOT_ST.STAGE (Table 20.9, R527). -/
def BC_BOOT_ST_STAGE : Fld := ⟨.BC_BOOT_ST, 0, 3⟩
/-- BC_BOOT_ST.READY (Table 20.9, R527). -/
def BC_BOOT_ST_READY : Fld := ⟨.BC_BOOT_ST, 4, 4⟩
/-- BC_BOOT_ST.FAIL (Table 20.9, R527). -/
def BC_BOOT_ST_FAIL : Fld := ⟨.BC_BOOT_ST, 8, 11⟩
/-- BC_BOOT_ST.RET_SRC (Table 20.9, R527). -/
def BC_BOOT_ST_RET_SRC : Fld := ⟨.BC_BOOT_ST, 12, 13⟩
/-- BC_BOOT_ST.RET_PART (Table 20.9, R527). -/
def BC_BOOT_ST_RET_PART : Fld := ⟨.BC_BOOT_ST, 14, 14⟩
/-- BC_BOOT_ST.WR_FAIL (Table 20.9, R527). -/
def BC_BOOT_ST_WR_FAIL : Fld := ⟨.BC_BOOT_ST, 15, 15⟩
/-- BC_BOOT_UNAV.CORE (Table 20.9, R527). -/
def BC_BOOT_UNAV_CORE : Fld := ⟨.BC_BOOT_UNAV, 0, 15⟩
/-- BC_RET_SEQ_LO.SEQ (Table 20.9, R527). -/
def BC_RET_SEQ_LO_SEQ : Fld := ⟨.BC_RET_SEQ_LO, 0, 31⟩
/-- BC_RET_SEQ_HI.SEQ (Table 20.9, R527). -/
def BC_RET_SEQ_HI_SEQ : Fld := ⟨.BC_RET_SEQ_HI, 0, 31⟩
/-- BC_RET_WR.WRITES (Table 20.9, R527). -/
def BC_RET_WR_WRITES : Fld := ⟨.BC_RET_WR, 0, 15⟩
/-- BC_READY_T.TICKS (Table 20.9, R527). -/
def BC_READY_T_TICKS : Fld := ⟨.BC_READY_T, 0, 31⟩
/-- CMD_FLT.FLT_POLICY (Table 21.6, R543). -/
def CMD_FLT_FLT_POLICY : Fld := ⟨.CMD_FLT, 0, 1⟩
/-- CMD_FLT.FLT_HELD (Table 21.6, R543). -/
def CMD_FLT_FLT_HELD : Fld := ⟨.CMD_FLT, 8, 8⟩
/-- CMD_FLT_X.SEC_LIM (Table 21.6, R543). -/
def CMD_FLT_X_SEC_LIM : Fld := ⟨.CMD_FLT_X, 0, 3⟩
/-- CMD_FLT_X.STEP_LIM (Table 21.6, R543). -/
def CMD_FLT_X_STEP_LIM : Fld := ⟨.CMD_FLT_X, 4, 7⟩
/-- CMD_FLT_X.REP_WIN (Table 21.6, R543). -/
def CMD_FLT_X_REP_WIN : Fld := ⟨.CMD_FLT_X, 8, 15⟩
/-- CMD_FLT_ST.HALTED (Table 21.6, R543). -/
def CMD_FLT_ST_HALTED : Fld := ⟨.CMD_FLT_ST, 0, 0⟩
/-- CMD_FLT_ST.LAST_CLASS (Table 21.6, R543). -/
def CMD_FLT_ST_LAST_CLASS : Fld := ⟨.CMD_FLT_ST, 1, 2⟩
/-- CMD_FLT_SR.COUNT (Table 21.6, R543). -/
def CMD_FLT_SR_COUNT : Fld := ⟨.CMD_FLT_SR, 0, 31⟩
/-- CMD_FLT_FEN.FENCES (Table 21.6, R543). -/
def CMD_FLT_FEN_FENCES : Fld := ⟨.CMD_FLT_FEN, 0, 15⟩
/-- CMD_FLT_FEN.HALTS (Table 21.6, R543). -/
def CMD_FLT_FEN_HALTS : Fld := ⟨.CMD_FLT_FEN, 16, 31⟩
/-- CMD_FLT_LOG.CODE (Table 21.6, R543). -/
def CMD_FLT_LOG_CODE : Fld := ⟨.CMD_FLT_LOG, 0, 7⟩
/-- CMD_FLT_LOG.CORE (Table 21.6, R543). -/
def CMD_FLT_LOG_CORE : Fld := ⟨.CMD_FLT_LOG, 8, 15⟩
/-- CMD_FLT_LOG.STEP_LO (Table 21.6, R543). -/
def CMD_FLT_LOG_STEP_LO : Fld := ⟨.CMD_FLT_LOG, 16, 31⟩
/-- CMD_FLT_PEER.PEER (Table 21.6, R543). -/
def CMD_FLT_PEER_PEER : Fld := ⟨.CMD_FLT_PEER, 0, 14⟩
/-- CMD_FLT_PEER.VALID (Table 21.6, R543). -/
def CMD_FLT_PEER_VALID : Fld := ⟨.CMD_FLT_PEER, 31, 31⟩
/-- CMD_FLT_CLR.CLR (Table 21.6, R543). -/
def CMD_FLT_CLR_CLR : Fld := ⟨.CMD_FLT_CLR, 0, 0⟩
/-- CL_ECC_CE.COUNT (Table 21.7, R544). -/
def CL_ECC_CE_COUNT : Fld := ⟨.CL_ECC_CE, 0, 31⟩
/-- CL_ECC_UE.COUNT (Table 21.7, R544). -/
def CL_ECC_UE_COUNT : Fld := ⟨.CL_ECC_UE, 0, 15⟩
/-- CL_ECC_LOG.STORE (Table 21.7, R544). -/
def CL_ECC_LOG_STORE : Fld := ⟨.CL_ECC_LOG, 0, 1⟩
/-- CL_ECC_LOG.GRANULE (Table 21.7, R544). -/
def CL_ECC_LOG_GRANULE : Fld := ⟨.CL_ECC_LOG, 8, 26⟩
/-- CL_ECC_CLR.CLR (Table 21.7, R544). -/
def CL_ECC_CLR_CLR : Fld := ⟨.CL_ECC_CLR, 0, 0⟩
/-- BC_RAIL_ST.CD (Table 22.7, R562). -/
def BC_RAIL_ST_CD : Fld := ⟨.BC_RAIL_ST, 0, 3⟩
/-- BC_RAIL_ST.MD (Table 22.7, R562). -/
def BC_RAIL_ST_MD : Fld := ⟨.BC_RAIL_ST, 4, 4⟩
/-- BC_RAIL_ST.HBM (Table 22.7, R562). -/
def BC_RAIL_ST_HBM : Fld := ⟨.BC_RAIL_ST, 5, 7⟩
/-- BC_RAIL_ST.IO (Table 22.7, R562). -/
def BC_RAIL_ST_IO : Fld := ⟨.BC_RAIL_ST, 8, 8⟩
/-- BC_RAIL_ST.SDS (Table 22.7, R562). -/
def BC_RAIL_ST_SDS : Fld := ⟨.BC_RAIL_ST, 9, 10⟩
/-- BC_RAIL_ST.NFQ (Table 22.7, R562). -/
def BC_RAIL_ST_NFQ : Fld := ⟨.BC_RAIL_ST, 11, 11⟩
/-- BC_RAIL_ST.VDDIO (Table 22.7, R562). -/
def BC_RAIL_ST_VDDIO : Fld := ⟨.BC_RAIL_ST, 12, 12⟩
/-- BC_RAIL_GOOD.GOOD (Table 22.7, R562). -/
def BC_RAIL_GOOD_GOOD : Fld := ⟨.BC_RAIL_GOOD, 0, 12⟩
/-- BC_I3C.ASEL (Table 22.7, R562). -/
def BC_I3C_ASEL : Fld := ⟨.BC_I3C, 0, 1⟩
/-- BC_I3C.SADDR (Table 22.7, R562). -/
def BC_I3C_SADDR : Fld := ⟨.BC_I3C, 8, 14⟩
/-- BC_I3C.DYN (Table 22.7, R562). -/
def BC_I3C_DYN : Fld := ⟨.BC_I3C, 15, 15⟩
/-- BC_I3C.DADDR (Table 22.7, R562). -/
def BC_I3C_DADDR : Fld := ⟨.BC_I3C, 16, 22⟩

end F

/-- The registers of block ME_. -/
def regsOfME : List RegId :=
  [.ME_STATUS, .ME_LAT, .ME_FILL, .ME_FILL_X, .ME_CHK, .ME_CHK_X, .ME_CHK_CNT, .ME_CHK_LOG, .ME_CYC_BEAT, .ME_CYC_FLYWAIT, .ME_CYC_FILL, .ME_CNT_CLR, .ME_REP_ROW, .ME_REP_COL]

/-- The registers of block DR_. -/
def regsOfDR : List RegId :=
  [.DR_STATUS, .DR_TALLY, .DR_TALLY_X, .DR_CYC_BUSY, .DR_CYC_SIDEWAIT, .DR_CYC_RELWAIT, .DR_CNT_CLR, .DR_FLT_LOG]

/-- The registers of block VE_. -/
def regsOfVE : List RegId :=
  [.VE_STATUS, .VE_CYC_BUSY, .VE_CYC_QTR, .VE_CYC_FP64, .VE_CNT_CLR]

/-- The registers of block CO_. -/
def regsOfCO : List RegId :=
  [.CO_NUM, .CO_NUM_X, .CO_NUM_STAT, .CO_NUM_TBL_LO, .CO_NUM_TBL_HI, .CO_CYC_SCWAIT, .CO_RESCALE_CNT, .CO_NUM_CLR, .CO_SECT, .CO_ROUND, .CO_CNT, .CO_CNT_X, .CO_CNT_CLR, .CO_DISCARD, .CO_PROTO_LOG, .CO_STN_BUSY, .CO_STN_BLOCKED, .CO_STN_STARVED, .CO_STN_ASLEEP, .CO_STN_FIRINGS, .CO_Q_FULL, .CO_Q_EMPTY, .CO_Q_PEAK, .CO_IFLT, .CO_IFLT_PC, .CO_IFLT_AUX, .CO_IFLT_AUXH, .CO_DONE, .CO_INHAND, .CO_STEP, .CO_MVLOG, .CO_MVLOG_DEV, .CO_MVLOG_EP, .CO_HOLDS, .CO_FQ_FETCHED, .CO_FQ_WASTE, .CO_FQ_MEMWAIT, .CO_FQ_STAT]

/-- The registers of block CMD_. -/
def regsOfCmd : List RegId :=
  [.CMD_NUMW, .CMD_NUMW_X, .CMD_NUMW_CNT, .CMD_PERR, .CMD_PERR_LOC, .CMD_PERR_SHORT, .CMD_STRIKE, .CMD_STRIKE_X, .CMD_STRIKE_ST, .CMD_SVC, .CMD_SVC_X, .CMD_WCLOST, .CMD_SHTAB_LO, .CMD_SHTAB_HI, .CMD_SHTAB_N, .CMD_SHEP, .CMD_JOB, .CMD_STEP, .CMD_COMMITTED, .CMD_JOBMAP_LO, .CMD_JOBMAP_HI, .CMD_JERR, .CMD_BAR, .CMD_BAR_X, .CMD_STEPCNT, .CMD_ABORTCNT, .CMD_SNAP, .CMD_SNAP_STEP, .CMD_FLT, .CMD_FLT_X, .CMD_FLT_ST, .CMD_FLT_SR, .CMD_FLT_FEN, .CMD_FLT_LOG, .CMD_FLT_PEER, .CMD_FLT_CLR]

/-- The registers of block MD_. -/
def regsOfMD : List RegId :=
  [.MD_SC, .MD_SC_X, .MD_SPLIT, .MD_POOL_USED, .MD_PF, .MD_PF_X, .MD_PF_ST, .MD_EVICT, .MD_SPILL, .MD_ECC_CE, .MD_ECC_UE, .MD_ECC_LOG, .MD_CNT_CLR, .MD_MERGE, .MD_MERGE_X, .MD_MERGED]

/-- The registers of block CL_. -/
def regsOfCL : List RegId :=
  [.CL_POOL, .CL_POOL_X, .CL_NET, .CL_NET_X, .CL_NET_LINK, .CL_NET_RETRY, .CL_NET_FDROP, .CL_NET_BAD, .CL_NET_CLR, .CL_PST, .CL_DOZES, .CL_WEP0, .CL_WEP1, .CL_ECC_CE, .CL_ECC_UE, .CL_ECC_LOG, .CL_ECC_CLR]

/-- The registers of block HBM_. -/
def regsOfHbm : List RegId :=
  [.HBM_STATUS, .HBM_BURST_RD, .HBM_BURST_WR, .HBM_BURST_RM, .HBM_IDLE, .HBM_UNLENT, .HBM_ECC_CE, .HBM_ECC_UE, .HBM_ECC_LOG, .HBM_SCRUB, .HBM_SCRUB_X, .HBM_CNT_CLR]

/-- The registers of block IKF_. -/
def regsOfIkf : List RegId :=
  [.IKF_SELF, .IKF_TORUS, .IKF_ARB, .IKF_ARB_X, .IKF_RTO, .IKF_RTO_X, .IKF_MAP_CTL, .IKF_REQ_OUT, .IKF_UNREACH, .IKF_AUTH_FAIL, .IKF_DROP, .IKF_TDROP, .IKF_CLR, .IKF_DEG, .IKF_DEG_X, .IKF_MAP, .IKF_PST, .IKF_PRETRY, .IKF_PFEC_COR, .IKF_PFEC_UNC, .IKF_PDEG, .IKF_PDETOUR, .IKF_PCLR, .IKF_RED, .IKF_RED_X, .IKF_RED_X2, .IKF_RED_X3, .IKF_RED_ACT, .IKF_RED_LATE, .IKF_RED_DROP, .IKF_RED_SKIP, .IKF_RED_ESC, .IKF_RED_NF, .IKF_RED_PART, .IKF_RED_LOG, .IKF_RED_LOGQ, .IKF_RED_LOGP, .IKF_RED_HOLD, .IKF_RED_CLR]

/-- The registers of block STO_. -/
def regsOfSto : List RegId :=
  [.STO_CKPT, .STO_CKPT_X, .STO_ST, .STO_LAST_OWN, .STO_LAST_BUD, .STO_PLAN, .STO_NSTEP, .STO_CKCNT, .STO_STALL, .STO_RATE, .STO_PE, .STO_PSLC, .STO_BAD, .STO_REST, .STO_CLR, .STO_SCRUB, .STO_SCRUB_X]

/-- The registers of block NAND_. -/
def regsOfNand : List RegId :=
  [.NAND_IF, .NAND_IF_X, .NAND_CLR, .NAND_ST, .NAND_CW_COR, .NAND_RETRY, .NAND_SOFT, .NAND_UNC, .NAND_PEFAIL]

/-- The registers of block HIF_. -/
def regsOfHif : List RegId :=
  [.HIF_ST, .HIF_ERR, .HIF_ERR_ADDR, .HIF_AGE, .HIF_AGE_X, .HIF_Q_ACT, .HIF_PROMO, .HIF_FWQBASE, .HIF_FN_QBASE, .HIF_FN_CTL, .HIF_FN_ASQ_LO, .HIF_FN_ASQ_HI, .HIF_FN_ACQ_LO, .HIF_FN_ACQ_HI, .HIF_FN_AEQ_LO, .HIF_FN_AEQ_HI, .HIF_FN_ST, .HIF_FN_MSIX, .HIF_FN_DBDROP, .HIF_WIN_LO, .HIF_WIN_HI]

/-- The registers of block SEC_. -/
def regsOfSec : List RegId :=
  [.SEC_ST, .SEC_ERR, .SEC_WORLD_CORE, .SEC_WORLD_CL, .SEC_DBG, .SEC_WV, .SEC_WV_X, .SEC_WV_CNT, .SEC_WV_LOG, .SEC_WV_ADDR_LO, .SEC_WV_ADDR_HI, .SEC_WV_CLR, .SEC_IDPUB, .SEC_MEAS, .SEC_REG_LO, .SEC_REG_HI]

/-- The registers of block BC_. -/
def regsOfBC : List RegId :=
  [.BC_FW_WD, .BC_FW_WD_X, .BC_FW_BANK, .BC_FW_KICK, .BC_FW_ST, .BC_FW_VER, .BC_FW_SVN, .BC_FW_RST, .BC_FW_CAUSE, .BC_PWR, .BC_PWR_X, .BC_LCNT_LO, .BC_LCNT_HI, .BC_SLEEP, .BC_SLEEP_X, .BC_PWR_ST, .BC_LK_ST, .BC_LK_CNT, .BC_PKG_PWR, .BC_ENERGY_LO, .BC_ENERGY_HI, .BC_TJ_MAX, .BC_LK_CLR, .BC_VF, .BC_CL, .BC_CL_F, .BC_CL_T, .BC_RAIL, .BC_BOOT, .BC_BOOT_X, .BC_BOOT_ST, .BC_BOOT_UNAV, .BC_RET_SEQ_LO, .BC_RET_SEQ_HI, .BC_RET_WR, .BC_READY_T, .BC_RAIL_ST, .BC_RAIL_GOOD, .BC_I3C]

/-- The registers of block EVG_. -/
def regsOfEvg : List RegId :=
  [.EVG_CTL, .EVG_BP, .EVG_TOP, .EVG_TAKE, .EVG_RUN, .EVG_EOI, .EVG_PRIO, .EVG_EN, .EVG_PEND, .EVG_PSET, .EVG_PCLR, .EVG_ACT]

/-- The registers of block LNT_. -/
def regsOfLnt : List RegId :=
  [.LNT_BASE_LO, .LNT_BASE_HI, .LNT_HEAD, .LNT_SEQ, .LNT_LVL, .LNT_MASK]

/-- The registers whose block covers a BAR0 offset (Table 23.3). -/
def regsNear (off : Nat) : List RegId :=
  if 0x0 ≤ off ∧ off < 0x1000 then regsOfBC
  else if 0x1000 ≤ off ∧ off < 0x2000 then regsOfSec
  else if 0x2000 ≤ off ∧ off < 0x3000 then regsOfCmd
  else if 0x4000 ≤ off ∧ off < 0x5000 then regsOfSto
  else if 0x5000 ≤ off ∧ off < 0x6000 then regsOfNand
  else if 0x6000 ≤ off ∧ off < 0x7000 then regsOfIkf
  else if 0x7000 ≤ off ∧ off < 0x8000 then regsOfLnt
  else if 0x8000 ≤ off ∧ off < 0xD000 then regsOfEvg
  else if 0x10000 ≤ off ∧ off < 0x18000 then regsOfHif
  else if 0x20000 ≤ off ∧ off < 0x24000 then regsOfMD
  else if 0x28000 ≤ off ∧ off < 0x30000 then regsOfHbm
  else if 0x100000 ≤ off ∧ off < 0x108000 then regsOfCL
  else if 0x200000 ≤ off ∧ off < 0x210000 then regsOfCO
  else if 0x300000 ≤ off ∧ off < 0x320000 then regsOfME
  else if 0x400000 ≤ off ∧ off < 0x420000 then regsOfDR
  else if 0x500000 ≤ off ∧ off < 0x510000 then regsOfVE
  else []

/-- The BAR0 offset of instance `(i, j)` of a register. -/
def RegId.addr (r : RegId) (i j : Nat) : Nat := r.loc.base + i * r.loc.s0 + j * r.loc.s1

/-- The instance of `r` that lies at a BAR0 offset, if one does. -/
def RegId.at? (r : RegId) (off : Nat) : Option (Nat × Nat) :=
  let l := r.loc
  if off < l.base then none
  else
    let i := (off - l.base) / l.s0
    let m := (off - l.base) % l.s0
    let j := m / l.s1
    if i < l.n0 ∧ j < l.n1 ∧ m % l.s1 = 0 then some (i, j) else none

/-- The register at a BAR0 offset among a list of candidates. -/
def findIn : List RegId → Nat → Option (RegId × Nat × Nat)
  | [], _ => none
  | r :: rs, off =>
    match r.at? off with
    | some (i, j) => some (r, i, j)
    | none => findIn rs off

/-- The register, and its instance, at a BAR0 offset (R569: any other offset holds no register). -/
def regAt (off : Nat) : Option (RegId × Nat × Nat) := findIn (regsNear off) off

/-- The word that a list of fields resets to. -/
def fieldsReset (fs : List FieldDef) : Nat := fs.foldl (fun w f => w + f.reset * 2 ^ f.lo) 0

/-- The V/F points of Table 19.3 as BC_VFi holds them. -/
def vfFactory (i : Nat) : Nat :=
  match i with
  | 0 => 0x83520834
  | 1 => 0x833E07D0
  | 2 => 0x832A076C
  | 3 => 0x83160708
  | 4 => 0x82EE0640
  | 5 => 0x82C60578
  | 6 => 0x8294044C
  | 7 => 0x826C0320
  | _ => 0

/-- What instance `(i, j)` of a register holds after power-up: its Reset column. -/
def RegId.resetWord (r : RegId) (i _j : Nat) : Word :=
  match r with
  | .BC_VF => BitVec.ofNat 32 (vfFactory i)
  | .HIF_FN_QBASE => if i = 0 then 0x7C000000 else 0
  | .HIF_FN_MSIX => if i = 0 then 0x1000 else 0
  | _ => BitVec.ofNat 32 (fieldsReset r.fields)

/-- What a BAR0 offset reads as before anything is written: its register's reset word, 0 where no register is. -/
def resetAt (off : Nat) : Word :=
  match regAt off with
  | some (r, i, j) => r.resetWord i j
  | none => 0

end Sys2Proof.Machine
end

