-- ==== Sys2Proof/Machine/State.lean ====
section
/-! DEFINITION. The state of the block: every register, memory byte, queue, counter, buffer and pin the manual gives
the device, as plain data, with the queue of commands that wait. State.reset is the device whose always-on island has
just received power (Table 20.7, first column). -/

namespace Sys2Proof.Machine

/-- Why a run stops with a fault. Log entry 221 (DEDUCED). -/
inductive Fault where
  /-- Raised by RED_SEG when the copies of a ring's bucket table entry in two devices disagree: R355 makes equality an
  obligation and gives no result otherwise. Safe: the model stops where the hardware goes on. -/
  | ringDisagrees
  deriving DecidableEq, Repr

/-- Why a command has no meaning here. -/
inductive Refusal where
  /-- Raised by Dispatch for a command that has no meaning yet. Safe. -/
  | notModelled (mnemonic : String)
  /-- Raised by JTAG_TAP_ACCESS when JTAG_MODE is 2 and the operation goes past IDCODE, BYPASS and boundary scan: the
  manual names the debug unit and the scan chains and gives none of their contents (R463, R560). Safe. -/
  | debugUnit
  deriving DecidableEq, Repr

/-- The two worlds (Table 0.4). -/
inductive World where
  | n | s
  deriving DecidableEq, Repr

/-- The class of a fault's response (Table 21.1); `none` for events that only report. -/
inductive FaultClass where
  | none | sect | step | dev
  deriving DecidableEq, Repr

/-- A fault event that CMD has still to respond to (R528 to R534): its code (Table 21.3), class, core, section, the
core it fences, and the step and attempt it was raised in. -/
structure FaultEv where
  code : Nat
  cls : FaultClass
  core : Nat
  sect : Nat
  fence : List Nat
  step : Nat
  attempt : Nat
  deriving DecidableEq, Repr

/-- What the block sends out: what leaves it on its buses and pins, newest last. Log entry 8 (DESIGN CHOICE). -/
inductive Out where
  /-- Data returned to the requester of a read. -/
  | readData (data : List Byte)
  /-- A read completed with Unsupported Request (R432). -/
  | unsupported
  /-- A write into host memory by a function, in a world (R426, R428). -/
  | hostWrite (f : Nat) (w : World) (addr : Nat) (data : List Byte)
  /-- One MSI-X message of a function's vector (R443). -/
  | msix (f vec : Nat)
  /-- A fabric packet or flit handed to an output port (0 X+, 1 X-, 2 Y+, 3 Y-, 4 Z+, 5 Z-). -/
  | port (p : Nat) (data : List Byte)
  /-- A message on a management transport: 0 DOE, 1 MCTP over I3C, 2 SEC_MGMT, 3 FAB_MGMT. -/
  | mgmt (kind : Nat) (data : List Byte)
  /-- A negative acknowledge on I3C (R559). -/
  | nack
  /-- An in-band interrupt on I3C (R559). -/
  | ibi
  /-- Bits shifted out on TDO, first bit first (R560). -/
  | tdo (data : List Bool)
  deriving DecidableEq, Repr

/-- One MSI-X vector (R443): its mask and its pending bit. Log entry 32 (PRESUMED). -/
structure Vec where
  masked : Bool := true
  pend : Bool := false
  deriving DecidableEq, Repr

/-- How far a firmware processor is (R456, R467, R472). -/
inductive ProcRun where
  | held | running | restarting | dead
  deriving DecidableEq, Repr

/-- One firmware processor with its watchdog and the nesting of its gatherer. -/
structure ProcSt where
  /-- Held in reset, running, restarting or dead. -/
  run : ProcRun := .held
  /-- Local counter at its last kick, or at its start. -/
  kick : Nat := 0
  /-- WD_HALF has fired since the last kick. -/
  half : Bool := false
  /-- Local counter when the restart in progress began. -/
  began : Nat := 0
  /-- The cause of the restart in progress (R467). -/
  cause : Nat := 0
  /-- Local counter values of its crashes (R472), newest first. -/
  crashes : List Nat := []
  /-- The gatherer asserts its interrupt (R484). -/
  irq : Bool := false
  /-- The active sources, innermost first (R485). -/
  active : List Nat := []
  /-- What ends with the restart in progress: the TAG of the mailbox entry that asked for it, none for a crash; whether it is
  an activation (R475); and whether it goes back to the previous image. -/
  tag : Option Nat := none
  activating : Bool := false
  back : Bool := false
  /-- The pending activation's TAG (R476). -/
  deferTag : Option Nat := none
  deriving DecidableEq, Repr

/-- A submission entry that CMD has fetched and not completed (R441). -/
structure Fetched where
  sq : Nat
  cid : Nat
  head : Nat
  entry : List Byte
  deriving DecidableEq, Repr

/-- A request waiting in an arbiter (R444): which arbiter (0 command, 1 host DMA, 2 fabric send), its queue, the level
it is at and the local counter when it came to that level. -/
structure ArbReq where
  arb : Nat
  queue : Nat
  level : Nat
  since : Nat
  deriving DecidableEq, Repr

/-- What each cause of the limit keeper has in force (R500, R501), and its samples. -/
structure LimitSt where
  /-- Ceiling of each cluster from its own sensor. -/
  ceilT : List Nat := List.replicate 8 0
  /-- Ceiling of every cluster from the shared sensors. -/
  ceilS : Nat := 0
  /-- Ceiling of each cluster from the package power. -/
  ceilP : List Nat := List.replicate 8 0
  /-- Thermal fast divider of each cluster in force. -/
  fast : List Bool := List.replicate 8 false
  /-- Rail current divider of each compute die in force. -/
  oc : List Bool := List.replicate 4 false
  /-- Local counter when each compute die's current was last at or above 360 A. -/
  ocSince : List Nat := List.replicate 4 0
  /-- Sensor readings in °C: clusters 0-7, memory-side dies 8-11, I/O dies 12-13, HBM stacks 14-21. -/
  temps : List Nat := List.replicate 22 0
  /-- Local counter of the last ceiling step of each cluster's own sensor, and of the shared sensors (entry 8). -/
  stepAt : List Nat := List.replicate 9 0
  /-- Package energy of the open 1 ms window in microjoules, and its samples. -/
  winUJ : Nat := 0
  /-- Energy of each cluster in the open window, in microjoules. -/
  winCl : List Nat := List.replicate 8 0
  /-- Consecutive windows below 2,520 W. -/
  below : Nat := 0
  /-- Local counter when EMERG last became 0. -/
  emergOff : Nat := 0
  /-- Clock before division in MHz, and supply in mV, of each cluster (R498, R499); 0 in bivouac. -/
  freq : List Nat := List.replicate 8 0
  volt : List Nat := List.replicate 8 0
  /-- Local counter of the last sample, and the 1 ms windows that the package limit and MGT have ended. -/
  sampleAt : Option Nat := none
  winNo : Nat := 0
  mgtNo : Nat := 0
  /-- Energy of the last complete window: the package and each cluster, in microjoules. -/
  lastUJ : Nat := 0
  lastCl : List Nat := List.replicate 8 0
  deriving DecidableEq, Repr

/-- How long each cluster has been idle, unbound or dozing (R492, R494, R507), as seen at ticks of the local counter. -/
structure SleepSt where
  /-- The tick at which the cluster was first seen idle without a break since. -/
  idleAt : List (Option Nat) := List.replicate 8 none
  /-- The tick since which neither core has had a section bound. -/
  unboundAt : List (Option Nat) := List.replicate 8 (some 0)
  /-- Local counter at the last entry into doze. -/
  dozeAt : List Nat := List.replicate 8 0
  /-- The tick since which every cluster has been in bivouac. -/
  allBiv : Option Nat := some 0
  deriving DecidableEq, Repr

/-- The pins that the board drives (R548): true is the high level. Log entry 7 (DESIGN CHOICE). -/
structure Pins where
  perstN : Bool := false
  pwrbrkN : Bool := true
  trstN : Bool := false
  asel : Nat := 0
  /-- What the TAP's instruction register selects (R463): 0 IDCODE, 1 BYPASS, 2 boundary scan. -/
  tap : Nat := 0
  deriving DecidableEq, Repr

/-- Start-up and supplies (chapters 20 and 22). -/
structure BootSt where
  /-- VIN_AO is within its limits. -/
  island : Bool := true
  /-- No PERST_N deassertion has come since the island received power. -/
  cold : Bool := true
  /-- The device acts as if PERST_N were asserted until it has been asserted and deasserted (R556). -/
  railHold : Bool := false
  /-- Stage 5 has completed without a failure of Table 20.4. -/
  bistOk : Bool := false
  /-- Local counter at stage 1 and at stage 6. -/
  stage1 : Nat := 0
  stage6 : Nat := 0
  /-- Repair map, bank choice or remap table differ from the last bank written (R516). -/
  retNow : Bool := false
  /-- Local counter when the previous bank write began (R516). -/
  lastWrite : Option Nat := none
  /-- A bank write met a NOR error at this local counter and waits for its retry (R517). -/
  retryAt : Option Nat := none
  /-- The winning retained bank (R514). -/
  winner : Option Nat := none
  deriving DecidableEq, Repr

/-- An SPDM connection: its stage, and the messages that its signatures cover. -/
structure SpdmConn where
  stage : Nat := 0
  /-- The version, capability and algorithm messages; the digest and certificate messages since the last challenge; and the
  measurement messages since the last signed one. -/
  vca : List Byte := []
  certs : List Byte := []
  meas : List Byte := []
  deriving DecidableEq, Repr

/-- A secured SPDM session: its identifier, its requester, whether the handshake is complete, its secret, the updates of
each direction's key, and the local counter at its last message. -/
structure SpdmSession where
  id : Nat
  via : Nat
  done : Bool
  secret : List Byte
  reqGen : Nat
  rspGen : Nat
  seen : Nat
  deriving DecidableEq, Repr

/-- What SEC holds in its private RAM and its key store (chapter 17). Log entry 13 (DESIGN CHOICE). -/
structure SecSt where
  /-- The seed of R451, empty while none is derived. -/
  seed : List Byte := []
  /-- HBM keys of the N and of the S world (Table 17.2). -/
  hbmN : List Byte := []
  hbmS : List Byte := []
  /-- Flash keys of the N and of the S world. -/
  flashN : List Byte := []
  flashS : List Byte := []
  /-- Job keys by slot, at most two (R351). -/
  jobKeys : List (List Byte) := []
  /-- The slot whose key is in use for packets sent. -/
  jobSlot : Nat := 0
  /-- Sealed-packet counters: next to send by destination, last accepted by source (R350). -/
  txCtr : Tab Nat := .empty
  rxCtr : Tab Nat := .empty
  /-- The local counter at the last power-up and the restarts since then (block 10). -/
  upAt : Nat := 0
  restarts : Nat := 0
  /-- SPDM: how far each requester's connection is (0 none, 1 version, 2 capabilities, 3 negotiated), and its transcript, by
  requester: 0 the host on DOE, 1 the board on MCTP, 2 + d the device d. -/
  conns : Tab SpdmConn := .empty
  /-- Secured sessions. -/
  sessions : List SpdmSession := []
  /-- IDE keys that IDE_KM has programmed, by key selector, and the selectors in use (Table 17.2). -/
  ideKeys : Tab (List Byte) := .empty
  ideGo : List Nat := []
  /-- Functions whose TDI is locked and not in RUN, with the nonce that START_INTERFACE must show. -/
  tdiLocked : List (Nat × List Byte) := []
  deriving DecidableEq, Repr

/-- One value of a PSB row (R42, R95, R98): the code of a floating entry, in FP32 or the 16-bit format, with the low
word of a twin-word pair; or the integer of an INT32 entry with its tag (0 none, 1 +overflow, 2 −overflow,
3 invalid). -/
structure PsbEnt where
  hi : Nat := 0
  lo : Nat := 0
  v : Int := 0
  tag : Nat := 0
  deriving DecidableEq, Repr

/-- The form of a PSB row: 16-bit entries, FP32, twin-word or INT32 (R93, R96). -/
inductive PsbForm where
  | narrow | single | twin | int
  deriving DecidableEq, Repr

/-- A PSB row of one half: the problem that owns it (its issue number) and its values. -/
structure PsbRow where
  owner : Nat
  form : PsbForm
  vals : List PsbEnt
  deriving DecidableEq, Repr

/-- An operand vector or weight row set as the array holds it: element codes with masked positions 0, block scales
with 256 standing for a block that holds no valid element (R276), and the scale exponent 2^E of each row (R141). -/
structure Operand where
  fmt : Nat
  codes : List (List Nat)
  scales : List (List Nat)
  exps : List Int
  deriving DecidableEq, Repr

/-- One set of weights of a fly load: of one problem pass, or one per quadrant of a quad group. -/
structure WeightSet where
  quad : Option Nat
  /-- Rows of the set: codes by row, scales by 32-row group, exponent by row. -/
  op : Operand
  deriving DecidableEq, Repr

/-- A fly load of a core: its number, the pair and pass it serves, its data, and the weight tiles it holds from the
shared weight queue until its last beat has passed its check (R47). -/
structure FlyLoad where
  num : Nat
  pair : Nat
  pass : Nat
  sets : List WeightSet
  held : Nat
  stream : Option Nat
  complete : Bool
  deriving DecidableEq, Repr

/-- A problem of an engine, from its issue until its last tile is released (R210, R221). -/
structure Problem where
  /-- The issue number of its instruction. -/
  id : Nat
  heritage : Bool
  /-- The quadrant, for MMQ. -/
  quad : Option Nat
  /-- The ordinal of its instruction among its slot's MMA and MMQ; of a quad group, that of the first member (R224). -/
  pair : Nat
  desc : List Byte
  /-- Shape of its output tiles, and the K passes to compute (0 for a zero problem). -/
  rows : Nat
  cols : Nat
  passes : Nat
  /-- Scale exponents of operands at an address. -/
  ea : Int
  ew : Int
  /-- The cursor it took (R273), and whether it is its row block's last problem. -/
  row0 : Nat
  col0 : Nat
  lastN : Bool
  /-- The serial of the chain that it drains through. -/
  chain : Nat
  /-- The pass, output tile and row of the next vector to issue. -/
  pass : Nat := 0
  tile : Nat := 0
  row : Nat := 0
  /-- The activation tile being read from a queue. -/
  atile : Option (List Byte) := none
  /-- Computed rows whose last pass has committed. -/
  done : Nat := 0
  /-- Output tiles that have entered the drain buffer, and tiles released. -/
  started : Nat := 0
  released : Nat := 0
  /-- A quad group's GEND member has been accepted (true for MMA). -/
  closed : Bool := true
  deriving DecidableEq, Repr

/-- One activation vector of a beat: the problem, the output row, and the vector. -/
structure BeatVec where
  prob : Nat
  row : Nat
  vec : Operand
  seq : Nat
  deriving DecidableEq, Repr

/-- A beat (R37): its pass, the fly load it is tagged with, its vectors, and whether it has missed once. -/
structure Beat where
  pass : Nat
  load : Nat
  vecs : List BeatVec
  missed : Bool
  /-- It is the last beat of its pass on this engine. -/
  last : Bool
  deriving DecidableEq, Repr

/-- A matrix engine (R35 to R72). -/
structure EngineSt where
  probs : List Problem := []
  /-- Beats in the pipeline, oldest first. -/
  pipe : List Beat := []
  /-- Beats to issue again, in order (R58). -/
  again : List Beat := []
  psb : Tab PsbRow := .empty
  /-- A tile of a fly load rebuilt after a miss (R59): the load's number. -/
  rebuild : Option Nat := none
  /-- Stopped by a second miss (R60). -/
  stopped : Bool := false
  /-- First misses recovered and beats issued, and misses, within the section (R61). -/
  recovered : Nat := 0
  beats : Nat := 0
  misses : Nat := 0
  /-- Ridge slots without a real beat in the present gap, the filler density in 1/64, the step of a ramp in progress
  and its direction, and the phase of the alternating pattern (R69 to R71). -/
  gap : Nat := 0
  dens : Nat := 64
  ramp : Option Bool := none
  alt : Bool := false
  deriving DecidableEq, Repr

/-- A drain chain: its serial, the bytes of its descriptor, and its tables (R231, R232). -/
structure Chain where
  serial : Nat
  desc : List Byte
  bank : Nat
  tables : List (List Nat)
  loaded : Bool
  /-- The DRC instruction that brought it. -/
  id : Nat
  deriving DecidableEq, Repr

/-- A tally accumulator of an output tensor (R130, R131). -/
structure Tally where
  tensor : Nat := 0
  promoted : Bool := false
  sumsqOn : Bool := false
  rescaled : Nat := 0
  nvalid : Nat := 0
  zero : Nat := 0
  sat : Nat := 0
  inf : Nat := 0
  nan : Nat := 0
  /-- FP32 code of the largest magnitude, and FP64 code of the sum of squares. -/
  amax : Nat := 0
  sumsq : Nat := 0
  deriving DecidableEq, Repr

/-- The running statistics of one output row (R125): count, then mean and m2, or the sum of squares. -/
structure RowStat where
  n : Nat := 0
  a : Nat := 0
  b : Nat := 0
  bad : Bool := false
  deriving DecidableEq, Repr

/-- An output tile in a drain-buffer slot (R127). -/
structure DrainTile where
  /-- The problem, the tile's index in it, its valid extents and its place. -/
  prob : Nat
  ix : Nat
  vrows : Nat
  vcols : Nat
  row0 : Nat
  col0 : Nat
  lastt : Bool
  /-- Rows read so far, of `vrows`. -/
  read : Nat := 0
  /-- Codes and block scales of the rows that have left the chain. -/
  codes : List (List Nat) := []
  scales : List (List Nat) := []
  /-- Scale exponent of a per-tensor quantise stage. -/
  e : Int := 0
  /-- FP32 code of the raw maximum (R144), and whether an element overflows at E (R148). -/
  raw : Nat := 0
  overE : Bool := false
  /-- The tile is recomputed, or saturates. -/
  rescaled : Bool := false
  saturate : Bool := false
  /-- The tile's own counts, added to the accumulator at release; exact squares as a sum m·2^-298. -/
  tally : Tally := {}
  sq : Nat := 0
  /-- Row statistics after this tile, by row. -/
  stats : List RowStat := []
  /-- Residual tiles taken for this tile, by side stream. -/
  sides : List (Nat × List Byte) := []
  deriving DecidableEq, Repr

/-- A raw maximum on its way to the slice (R144): entry address, step and FP32 code. -/
structure RawMax where
  addr : Nat
  step : Nat
  code : Nat
  deriving DecidableEq, Repr

/-- The exponent in use for a tensor of the present step (R146). -/
structure TensorE where
  tensor : Nat
  step : Nat
  e : Int
  deriving DecidableEq, Repr

/-- A drain (R109 to R132). -/
structure DrainSt where
  /-- The chain in force, the pending chain and the next chain's serial. -/
  force : Option Chain := none
  next : Option Chain := none
  serial : Nat := 0
  /-- Output cursor of the newest chain (R273), and M and MTILES of the row block in progress (R274). -/
  curR : Nat := 0
  curC : Nat := 0
  block : Option (Nat × Nat) := none
  /-- Tiles in the drain buffer, oldest first, at most two. -/
  slots : List DrainTile := []
  tallies : List Tally := []
  tensorE : List TensorE := []
  rawOut : List RawMax := []
  /-- Statistics of the row block in progress, by output row, and finished statistics tiles. -/
  stats : List (Nat × RowStat) := []
  /-- Tiles that a STT with SRC 2 has claimed: its issue number, its sink port, target address and row stride. -/
  claims : List (Nat × Nat × Nat × Nat) := []
  /-- Tiles rescaled in the step, with that step (R149, R161). -/
  rescales : Nat := 0
  rsStep : Nat := 0
  /-- Tensors whose last tile has been released, with the step (R238). -/
  ended : List (Nat × Nat) := []
  /-- Statistics tiles not yet sent: port, tensor, row origin, and the two FP32 codes of each row (R126). -/
  statOut : List (Nat × Nat × Nat × List (Nat × Nat)) := []
  deriving DecidableEq, Repr

/-- The registers of a station (R206). -/
structure StnRegs where
  ad : List Nat := List.replicate 16 0
  ct : List Nat := List.replicate 8 0
  sc : List Nat := List.replicate 8 0
  pd : List Nat := List.replicate 4 0
  deriving DecidableEq, Repr

/-- A LOOP in progress (R262): first and past-the-end instruction of its body and the repetitions left. -/
structure LoopFr where
  first : Nat
  stop : Nat
  left : Nat
  deriving DecidableEq, Repr

/-- An instruction that has issued and is not yet counted complete (R211). -/
structure Issued where
  id : Nat
  op : Nat
  done : Bool
  deriving DecidableEq, Repr

/-- What a round boundary keeps of a station (R178): the counts `dones` and `holds`, the tiles moved by port
(its SEQ values), and the drain of its slot. -/
structure Snap where
  /-- Every instruction of the round has been counted when the issue numbers up to this one are complete. -/
  upto : Nat := 0
  pc : Nat := 0
  loops : List LoopFr := []
  regs : StnRegs := {}
  dones : Nat := 0
  holds : Nat := 0
  fired : Nat := 0
  runsDone : Nat := 0
  total : List (Nat × Int) := []
  drain : DrainSt := {}
  /-- MMA and MMQ that its slot had issued. -/
  mm : Nat := 0
  /-- HOLD marks passed that name each port. -/
  holdsOf : List (Nat × Nat) := []
  deriving DecidableEq, Repr

/-- A pitched station (R164 to R178, R206, R262). -/
structure StnSt where
  name : Nat
  /-- Its program, one word each. -/
  prog : List Nat
  tqidx : Nat
  /-- FIRINGS per run and rounds per q firings. -/
  firings : Nat
  q : Nat
  pc : Nat := 0
  loops : List LoopFr := []
  regs : StnRegs := {}
  /-- Firings and runs completed. -/
  fired : Nat := 0
  runsDone : Nat := 0
  /-- Instructions issued and not yet counted, oldest first. -/
  outst : List Issued := []
  /-- The core's issue count when the present instruction became next (R263, R268). -/
  mark : Nat := 0
  /-- Tiles moved in the present firing, by port (inputs at 32 + port). -/
  moved : List (Nat × Int) := []
  /-- Tiles moved by port in the step: the SEQ values of its streams (R170, R178). -/
  total : List (Nat × Int) := []
  /-- Pairs that a STEER in progress has left (R267), or records of a TALLY in progress (R238). -/
  steer : Option Nat := none
  /-- The context has stopped by a fault, a refusal or a changed wake epoch. -/
  halted : Bool := false
  /-- The open quad group: its first member's issue number and the members so far (R225). -/
  group : Option (Nat × List Nat × List Byte) := none
  /-- An instruction has issued since the last round boundary. -/
  inRound : Bool := false
  /-- It has issued an instruction since the last cycle of the cluster clock (R197). -/
  acted : Bool := false
  /-- ATM, CHN, PRM or UPD has completed since the last round boundary (R191), and since the run began (R308). -/
  unsafeRound : Bool := false
  unsafeRun : Bool := false
  snap : Snap := {}
  /-- Snapshots whose round is not yet complete. -/
  snaps : List Snap := []
  /-- HOLD marks passed that name each port in IMM (R301), by port. -/
  holdsOf : List (Nat × Nat) := []
  deriving DecidableEq, Repr

/-- An MMA or MMQ whose partner on the other matrix slot has not issued (R224): its ordinal, slot, descriptor and what
its loads need. -/
structure WeightPair where
  num : Nat
  bySlot : Nat
  desc : List Byte
  opcode : Nat
  q : Nat
  gend : Bool
  zero : Bool
  ew : Int
  /-- Its fly loads have been made known to the loader. -/
  known : Bool
  deriving DecidableEq, Repr

/-- A part of a fly load: a quadrant (none: the whole array) and the descriptor with the weights. -/
structure LoadPart where
  quad : Option Nat
  desc : List Byte
  ew : Int
  deriving DecidableEq, Repr

/-- Fly loads that wait for the loader: the pair they serve, the next pass, how many passes are loaded, and how many
weight sets are then taken and discarded (R217, R220). -/
structure LoadJob where
  pair : Nat
  pass : Nat
  passes : Nat
  parts : List LoadPart
  extra : Nat
  deriving DecidableEq, Repr

/-- A core (chapters 6 to 8). -/
structure CoreSt where
  /-- Stations by slot. -/
  stns : List (Option StnSt) := List.replicate 6 none
  /-- The slot that issued last, and how many instructions have issued. -/
  lastSlot : Nat := 5
  issued : Nat := 0
  /-- The fly loader: loads made known, loads waiting, loads held, and the weight pairs. -/
  loadNum : Nat := 0
  jobs : List LoadJob := []
  loads : List FlyLoad := []
  pairs : List WeightPair := []
  /-- MMA and MMQ issued by slot 0 and slot 1. -/
  mm0 : Nat := 0
  mm1 : Nat := 0
  /-- CO_NUM_X as it stood at the start of the step (R161). -/
  numX : Option (Nat × Nat) := none
  deriving DecidableEq, Repr

/-- A stream of the pitched section (R166, R173): its record, ends, queue and credits. -/
structure StreamSt where
  id : Nat
  kind : Nat
  /-- Producer: core, slot and port; consumer: core, slot and port. -/
  src : Option (Nat × Nat × Nat)
  dst : Option (Nat × Nat × Nat)
  depth : Nat
  fetch : Nat
  qloc : Nat
  fmt : Nat
  mxcol : Bool
  rows : Nat
  cols : Nat
  peg : Bool
  /-- Tiles per firing of the producer and of the consumer. -/
  p : Nat
  c : Nat
  /-- The number of its receive queue on the consuming core, and that queue's world and wake epoch at pitch. -/
  qnum : Nat
  wepoch : Nat
  credits : Nat
  /-- Credits on their way back over the guy line. -/
  guy : Nat := 0
  /-- Tiles or pegs sent and not arrived, and those in the queue, oldest first. -/
  flight : List (List Byte) := []
  queue : List (List Byte) := []
  /-- Tiles taken from the queue whose slot is not yet freed. -/
  held : Nat := 0
  txSeq : Nat := 0
  rxSeq : Nat := 0
  /-- Tiles taken by the consumer in the run. -/
  taken : Nat := 0
  closed : Bool := false
  /-- Fetch engine (R298 to R305): list address, fall-back, its port, next entry, generation, tiles needed per run,
  entries whose bytes are on the way with their generation, and runs made in the step. -/
  flist : Nat := 0
  irreg : Bool := false
  hport : Nat := 0
  fi : Nat := 0
  gen : Nat := 0
  need : Nat := 0
  fly : List (Nat × Nat × List Byte) := []
  runIx : Nat := 0
  /-- Fabric streams (R347): the peer's device and stream, and whether the consumer has granted credits. -/
  peer : Nat := 0
  peerStream : Nat := 0
  granted : Bool := false
  /-- Bytes of a tile that has not come whole. -/
  part : List Byte := []
  deriving DecidableEq, Repr

/-- How far the section is (R184 to R187). -/
inductive SectPhase where
  | running | stopping | saving
  deriving DecidableEq, Repr

/-- The pitched section. -/
structure SectSt where
  id : Nat
  mode : Nat
  world : World
  img : Nat
  /-- The bucket in force and the number of rate tables. -/
  bucket : Nat
  nbkt : Nat
  runs : Nat
  step : Nat
  /-- The schedule entry it came from. -/
  entry : Option Nat
  phase : SectPhase := .running
  /-- The local counter when an early strike was requested, and whether it is a cut. -/
  reqAt : Nat := 0
  cut : Bool := false
  /-- A cut happened at this strike. -/
  wasCut : Bool := false
  /-- The cut undid work that cannot be repeated (R191). -/
  unsafe_ : Bool := false
  /-- The strike ends the section. -/
  ending : Bool := false
  /-- Cores bound, cluster stores in use and wake epochs recorded: core or 16 + cluster, epoch. -/
  cores : List Nat
  epochs : List (Nat × Nat)
  /-- Placed space (R578): address ranges from the first to below the second. -/
  placed : List (Nat × Nat) := []
  /-- Local counter when a service-mode section last moved (R196). -/
  movedAt : Nat := 0
  deriving DecidableEq, Repr

/-- A section struck before its end (R187): what its next pitch in the step resumes. -/
structure Saved where
  id : Nat
  step : Nat
  bucket : Nat
  stns : List (Nat × StnSt)
  streams : List StreamSt
  drains : List (Nat × DrainSt)
  deriving DecidableEq, Repr

/-- A fabric packet inside the device: its bytes, the port it came in by (none: sent here), its buffer class and the
detour hops it has left (R341, R342). -/
structure NodePkt where
  bytes : List Byte
  inPort : Option Nat
  cls : Nat
  hops : List Nat
  deriving DecidableEq, Repr

/-- One end of a torus port (R333 to R338). -/
structure PortSt where
  /-- Link sequence number of the next packet flit sent, and of the next one expected. -/
  txSeq : Nat := 0
  rxSeq : Nat := 0
  /-- Packet flits sent and not acknowledged, oldest first. -/
  retry : List (Nat × List Byte) := []
  /-- A NAK has come that no resend has answered. -/
  nakGot : Bool := false
  /-- Packet flits are discarded until the failed one arrives again; and how often it has failed. -/
  discard : Bool := false
  fails : Nat := 0
  /-- The flit that the other end's last NAK named, and whether one flit has failed twice (R335). -/
  naked : Option Nat := none
  twice : Bool := false
  /-- Local counter at the last flit sent and at the last valid flit received. -/
  lastTx : Nat := 0
  lastRx : Nat := 0
  /-- Credits spent and not returned, in 64-byte units by 4·VC + class, and credits owed to the other end. -/
  spent : Tab Nat := .empty
  owe : Tab Nat := .empty
  /-- Weighted round robin: the VC whose turn it is, and the flits left of it. -/
  turn : Nat := 3
  left : Nat := 0
  deriving DecidableEq, Repr

/-- A part of a remote transfer: remote address, local address and bytes; or the data of a write. -/
structure XferPart where
  remote : Nat
  near : Nat
  len : Nat
  data : List Byte
  deriving DecidableEq, Repr

/-- A movement instruction whose remote requests are not all answered (R252 to R257, R345). -/
structure Xfer where
  /-- Its core, slot, issue number and opcode. -/
  core : Nat
  slot : Nat
  iid : Nat
  op : Nat
  dev : Nat
  world : World
  /-- Parts not yet sent, and requests outstanding. -/
  todo : List XferPart
  open_ : Nat
  /-- ATM: operation, operand, compare value, width in bytes, and where the old value goes. GAT: shard, expected
  epoch. -/
  aop : Nat
  imm : Nat
  cmp : Nat
  width : Nat
  ret : Option Nat
  shard : Nat
  epoch : Nat
  /-- SCT: the stream whose slot is freed at the end. -/
  stream : Option Nat
  /-- The destination's physical identifier where it is named by it (R400). -/
  dstp : Option Nat := none
  deriving DecidableEq, Repr

/-- A remote request outstanding (R345, R346): its transfer, what it asks, and its timer. -/
structure ReqSt where
  core : Nat
  iid : Nat
  part : XferPart
  since : Nat
  /-- The owner holds it (R346). -/
  hold : Bool := false
  deriving DecidableEq, Repr

/-- An atomic that has reached a slice (R256, R306): from a local instruction, or from a remote device. -/
structure AtomReq where
  addr : Nat
  op : Nat
  width : Nat
  opnd : Nat
  cmp : Nat
  world : World
  /-- Local: core, slot, issue number and destination of the old value. -/
  home : Option (Nat × Nat × Nat × Option Nat)
  /-- Remote: the request packet. -/
  away : List Byte
  deriving DecidableEq, Repr

/-- A gather held at the owner (R257 case 2): a local instruction's or a remote request's. -/
structure HeldGather where
  shard : Nat
  epoch : Nat
  step : Nat
  world : World
  off : Nat
  len : Nat
  home : Option (Nat × Nat × Nat × Nat)
  away : List Byte
  deriving DecidableEq, Repr

/-- A contribution that CHN has handed over (R259). -/
structure Contribution where
  q : Nat
  addr : Nat
  core : Nat
  slot : Nat
  iid : Nat
  /-- Segments that have taken it. -/
  taken : Nat := 0
  deriving DecidableEq, Repr

/-- A reduction piece held in the hold store, or returned by a rank (R361, R364). -/
structure HeldPiece where
  bytes : List Byte
  rank : Nat
  since : Nat
  deriving DecidableEq, Repr

/-- The delivery of this device's own segment of a bucket (R369). -/
structure Delivery where
  pieces : List Nat := []
  whole : Bool := false
  present : Nat := 0
  esc : Bool := false
  bexp : Option Int := none
  anyFinite : Bool := false
  deriving DecidableEq, Repr

/-- A reduction channel (R355 to R373), beside its record in memory. -/
structure ChanSt where
  /-- Local address of the channel record, and its fields. -/
  rcd : Nat
  axis : Nat
  p : Nat
  bs16 : Bool
  late : Bool
  world : World
  deadline : Nat
  nbkt : Nat
  btab : Nat
  /-- The step it is armed for. -/
  arm : Option Nat := none
  /-- Bucket states (0 pending, 1 issued, 2 forfeit, 3 forfeit and then issued) and running timers. -/
  state : Tab Nat := .empty
  timers : Tab Nat := .empty
  /-- The next sequence number to issue, contributions that wait, and contributions on their way. -/
  next : Nat := 0
  ring : List Contribution := []
  live : List Contribution := []
  held : List HeldPiece := []
  /-- Pieces returned by a rank that refused, and ranks skipped for the step. -/
  back : List HeldPiece := []
  skip : List Nat := []
  /-- Ranks to which returned pieces have been sent once more (R364). -/
  retried : List Nat := []
  delivered : Tab Delivery := .empty
  /-- Local counter of the last progress (R372). -/
  moved : Nat := 0
  deriving DecidableEq, Repr

/-- A PRM receive that waits for its segment (R260): its station, issue number, channel, bucket and record address. -/
structure PrmWait where
  core : Nat
  slot : Nat
  iid : Nat
  queue : Nat
  bucket : Nat
  rec_ : Nat
  deriving DecidableEq, Repr

/-- An accepted UPD (R261): its station and issue number, the shard table entry, Δ, the factor, the record's address and
the guard, with the local counter when it began to wait for a checkpoint's hold (R415). -/
structure UpdWait where
  core : Nat
  slot : Nat
  iid : Nat
  ix : Nat
  delta : Nat
  factor : Nat
  rec_ : Nat
  guarded : Bool
  since : Nat
  deriving DecidableEq, Repr

/-- A packet at a package router (R317, R318): the router and its bytes. -/
structure RouterPkt where
  router : Nat
  bytes : List Byte
  deriving DecidableEq, Repr

/-- A reduction TAG written into a router at pitch (R325): its operands and the segments that wait. -/
structure RouterTag where
  router : Nat
  tag : Nat
  dst : Nat
  operands : List Nat
  segs : List (List Byte)
  deriving DecidableEq, Repr

/-- A read pending in a slice (R323): its line, world, arrival, the cores it answers, and whether data has left. -/
structure SliceRead where
  slice : Nat
  line : Nat
  world : World
  since : Nat
  cores : List Nat
  left : Bool
  merges : Bool
  deriving DecidableEq, Repr

/-- Where a pool buffer is held (R293). -/
inductive PoolPlace where
  | slice (m : Nat) | cluster (k : Nat) | home
  deriving DecidableEq, Repr

/-- A pool buffer (R293 to R295). -/
structure PoolBuf where
  handle : Nat
  world : World
  addr : Nat
  len : Nat
  place : PoolPlace
  /-- Local counter at the most recent pitch of a section that names it. -/
  age : Nat
  /-- It may not return to a cluster store while this section stays pitched (R306). -/
  barred : Option Nat := none
  deriving DecidableEq, Repr

/-- A barrier report of a child (R393, R538): device, count and flags. -/
structure ChildReport where
  dev : Nat
  count : Nat
  flags : Nat
  deriving DecidableEq, Repr

/-- The barrier of the running step (R392 to R397, R538). -/
structure BarrierSt where
  /-- Own flags of the step, and at the root the aggregated flags once it has decided (Table 14.6). -/
  flags : Nat := 0
  reports : List ChildReport := []
  /-- Local counter when this device became ready, and when it sent its report. -/
  readyAt : Option Nat := none
  sentAt : Option Nat := none
  /-- The abort sequence of this attempt has been started: its CAUSE and ORIGIN; and the attempt has been raised for it. -/
  aborted : Option (Nat × Nat) := none
  renewed : Bool := false
  /-- Local counter when the sequence was complete, and when the replay report was sent. -/
  replayAt : Option Nat := none
  replaySent : Option Nat := none
  /-- The root has decided this attempt: a commit, or the release of a replay. -/
  decided : Bool := false
  deriving DecidableEq, Repr

/-- A snapshot that has been requested (R398 to R400). -/
structure SnapSt where
  /-- The command: its queue and identifier. -/
  sq : Nat
  cid : Nat
  /-- The step it names (none: the next to commit), and its step once it has started. -/
  want : Option Nat
  step : Option Nat
  /-- Masters and extensions too; and where it goes: region, destination, level of its export. -/
  full : Bool
  fabric : Bool
  region : Nat
  dest : Nat
  taddr : Nat
  level : Nat
  fn : Nat
  world : World
  /-- Shard table entries still to copy, and bytes exported. -/
  todo : List Nat
  sent : Nat
  deriving DecidableEq, Repr

/-- A checkpoint in progress (R415). -/
structure CkptSt where
  step : Nat
  /-- The own write has read the held data; the buddy has pulled it; both headers are programmed. -/
  ownRead : Bool
  buddyOut : Bool
  done : Bool
  /-- Local counter at its start, and STO_STALL then. -/
  startAt : Nat
  stall0 : Nat
  /-- What was taken at the commit: job map and shard table, then scale tables and extra ranges. -/
  head : List Byte
  tail : List Byte
  deriving DecidableEq, Repr

/-- A generation on flash (R412, Table 15.4). Log entry 13 (DESIGN CHOICE). -/
structure Gen where
  seq : Nat
  step : Nat
  logId : Nat
  buddy : Bool
  world : World
  mapDig : List Byte
  digest : List Byte
  data : List Byte
  /-- It lies in the native region (R409). -/
  inNative : Bool
  deriving DecidableEq, Repr

/-- A flash block (R408, R409): its number is channel + 16·(target + 8·(LUN + 4·block)). -/
structure FlashBlock where
  erases : Nat := 0
  bad : Bool := false
  /-- Codewords of it that needed a soft decode. -/
  soft : Nat := 0
  /-- The generation whose codewords it holds, and the local counter of its last retention read. -/
  gen : Option Nat := none
  readAt : Option Nat := none
  deriving DecidableEq, Repr

/-- What STO keeps (R406 to R415). -/
structure StoSt where
  gens : List Gen := []
  seq : Nat := 0
  /-- Fitted flash by channel, found at start-up: targets, LUNs per target, blocks per LUN, pages per block in
  pseudo-SLC mode. -/
  geom : List (Nat × Nat × Nat × Nat) := []
  blocks : Tab FlashBlock := .empty
  /-- Blocks of the pseudo-SLC region, in block-number order; 0 before the first checkpoint of a job. -/
  pslc : Nat := 0
  /-- What the planner has seen: since when, aborts and restarts, job stalls of the last 8 checkpoints, times of the last
  16 committed steps, and the last commit. -/
  obsFrom : Nat := 0
  events : List Nat := []
  stalls : List Nat := []
  times : List Nat := []
  lastAt : Nat := 0
  deriving DecidableEq, Repr

/-- The STEP command that a job is running (R436): its queue and identifier, and its rate-table indices. -/
structure StepCmd where
  sq : Nat
  cid : Nat
  idx : List Nat
  deriving DecidableEq, Repr

/-- A bound job (R438, Table 16.12): what JOB_START was given and what CMD keeps of it. -/
structure Job where
  fn : Nat
  id : Nat
  secure : Bool
  map : Nat
  sched : Nat
  manifest : Nat
  shtab : Nat
  nsh : Nat
  evq : Nat
  tqs : List Nat
  scts : List Nat
  /-- The pool quota in MiB, and one that SET_QUOTA has left for the next time between sections. -/
  quota : Nat
  quotaNext : Option Nat
  jobSeal : List Byte
  refdig : List Byte
  /-- The open STEP command. -/
  stepCmd : Option StepCmd
  /-- The schedule entry that runs, and the run of it. -/
  entry : Nat
  run : Nat
  deriving DecidableEq, Repr

/-- A region descriptor change whose zeroing is in progress (R449): the descriptor, its new low and high words, and the
address ranges that are being zeroed, each from its first to below its second. -/
structure RegPend where
  ix : Nat
  lo : Word
  hi : Word
  ranges : List (Nat × Nat)
  deriving DecidableEq, Repr

/-- A retained scale table (record TYPE 0x04): its world, COMMITTED and every E_LAST (R515, R518). -/
structure ScaleRet where
  world : World
  committed : Nat
  lasts : List Nat
  deriving DecidableEq, Repr

/-- The whole state of the block. Log entry 171 (DESIGN CHOICE). -/
structure State where
  /-- The commands that wait, first in, first out. -/
  pending : List Instr := []
  /-- The local counter (R32). -/
  lcnt : BitVec 64 := 0
  /-- Every register whose content differs from its reset value, by BAR0 offset (R568). -/
  regs : Tab Word := .empty
  /-- Latched high words for the N and the S world (R508): local counter and energy. -/
  lcntHiN : Word := 0
  lcntHiS : Word := 0
  energyHiN : Word := 0
  energyHiS : Word := 0
  /-- The energy counter in millijoules and its remainder in microjoules (R508). -/
  energy : BitVec 64 := 0
  energyRem : Nat := 0
  /-- The local address space of R563, one byte at a key; an unlisted byte reads 0 (R524). -/
  mem : Tab Byte := .empty
  /-- The pins that the board drives. -/
  pins : Pins := {}
  /-- What has left the block, newest last. -/
  out : List Out := []
  /-- MSI-X vectors by 4096·function + vector. -/
  msix : Tab Vec := .empty
  /-- Queues whose next event record must carry LOST (R442). -/
  qLost : List Nat := []
  /-- Fetched submissions, oldest first. -/
  fetched : List Fetched := []
  /-- Requests waiting in the arbiters. -/
  arbs : List ArbReq := []
  /-- Firing counts of the gatherers, by 1024·PROC + source (R483). -/
  fires : Tab Nat := .empty
  /-- The firmware processors, by PROC. -/
  procs : Tab ProcSt := .empty
  /-- Fault events that CMD has not responded to, oldest first. -/
  faults : List FaultEv := []
  /-- Limit keeper. -/
  lk : LimitSt := {}
  /-- Start-up and supplies. -/
  boot : BootSt := {}
  /-- Keys and seed. -/
  sec : SecSt := {}
  /-- The bytes of the boot store that differ from manufacture (R512). -/
  nor : Tab Byte := .empty
  /-- Cores, engines and drains by number. -/
  cores : Tab CoreSt := .empty
  engines : Tab EngineSt := .empty
  drains : Tab DrainSt := .empty
  /-- The streams of the pitched section, in record order. -/
  streams : List StreamSt := []
  /-- The pitched section. -/
  sect : Option SectSt := none
  /-- Sections struck early in the step. -/
  saved : List Saved := []
  /-- Tally records that CMD has still to examine (R159), oldest first. -/
  examine : List (List Byte) := []
  /-- The bound job (R380). -/
  job : Option Job := none
  /-- Local counter of the last remote, BAR4, STO or prefetch access to HBM (R507). -/
  hbmLast : Nat := 0
  /-- Fabric packets inside the device, oldest first, and packets accepted for this device that wait for their step. -/
  node : List NodePkt := []
  fabIn : List (List Byte) := []
  /-- Torus ports by number. -/
  ports : Tab PortSt := .empty
  /-- Movement instructions with remote requests, and outstanding requests by TAG; the next TAG. -/
  xfers : List Xfer := []
  reqs : Tab (Option ReqSt) := .empty
  nextTag : Nat := 0
  /-- Atomics at the slices, oldest first; raw maxima travel with their drains. -/
  atoms : List AtomReq := []
  held : List HeldGather := []
  /-- Reduction channels by queue number. -/
  chans : Tab (Option ChanSt) := .empty
  /-- Package routers: packets, reduction tags, and slices' pending reads. -/
  routers : List RouterPkt := []
  rtags : List RouterTag := []
  reads : List SliceRead := []
  /-- Uncorrectable errors seen: memory (0-15 core store, 16-23 cluster store, 24 slices, 25 HBM), unit address, time
  (R531). -/
  ues : List (Nat × Nat × Nat) := []
  /-- Pool buffers, and pool sizes in force in MiB by slice and by cluster (R292). -/
  pool : List PoolBuf := []
  poolMd : List Nat := List.replicate 4 64
  poolCl : List Nat := List.replicate 8 16
  /-- Prefetch of the next section (R296): its schedule entry, how far it is, and whether it stopped for space. -/
  pf : Option (Nat × Nat × Bool) := none
  /-- The barrier of the running step. -/
  bar : BarrierSt := {}
  /-- Work-counter snapshots of the run (R308): pair address and its 64 bytes; and the schedule runs a fence restarts. -/
  wcSnap : List (Nat × List Byte) := []
  /-- Section replays in this attempt by section (R533). -/
  replays : List (Nat × Nat) := []
  /-- The core map (R183): cores out of it. -/
  fenced : List Nat := []
  /-- Cores that a fence or test has changed since the section's first pitch in this attempt (R532). -/
  mapChanged : Bool := false
  /-- Clusters that are asked to leave bivouac (R495). -/
  wakeReq : List Nat := []
  /-- PRM and UPD instructions that wait, oldest first. -/
  prms : List PrmWait := []
  upds : List UpdWait := []
  /-- The snapshot and the checkpoint in progress. -/
  snap : Option SnapSt := none
  ckpt : Option CkptSt := none
  /-- The queue that each arbiter served last, by 4·arbiter + level, plus one (R444). -/
  arbLast : Tab Nat := .empty
  /-- COPY commands under way: queue, command identifier, bytes moved. -/
  copies : List (Nat × Nat × Nat) := []
  /-- The checkpoint store's flash and planner. -/
  sto : StoSt := {}
  /-- Region descriptor changes in progress (R449). -/
  regPend : List RegPend := []
  /-- Retained scale tables that no JOB_START has used up (R518). -/
  scaleRets : List ScaleRet := []
  /-- UCIe links that retrain: router and link (0 centre, 1 vertical, 2 memory, 3 I/O) (R316). -/
  netTrain : List (Nat × Nat) := []
  /-- Idle, unbound and doze times of the clusters. -/
  slp : SleepSt := {}
  /-- Restarts and activations of mailbox entries still to begin, in order: processor, TAG, and whether it is an activation
  (R475, R477). -/
  fwTodo : List (Nat × Nat × Bool) := []
  /-- Byte 12 of the status record at the last in-band interrupt (R559). -/
  ibiByte : Nat := 0
  /-- How many free values the model has drawn. The model's own field, not the manual's. -/
  freeIx : Nat := 0
  deriving DecidableEq, Repr

/-- The device right after its always-on island has received power: every register at its Reset column, the local
counter 0, memories all zero, nothing waiting. Log entries 4 (DESIGN CHOICE), 5 (DESIGN CHOICE), 7 (DESIGN CHOICE). -/
def State.reset : State := {}

end Sys2Proof.Machine
end

