-- ==== Sys2Proof/Machine/Ops.lean ====
section
/-! DEFINITION. The named operations over registers, memory, queues and events that every meaning is written with. -/

namespace Sys2Proof.Machine

open Host (Outcome)

/-- The outcome of every command of the block. -/
abbrev Out? := Outcome State Fault Refusal

/-! ## Registers (R5, R568) -/

/-- What instance `(i, j)` of a register holds. Log entry 20 (DESIGN CHOICE). -/
def State.rd (s : State) (r : RegId) (i : Nat := 0) (j : Nat := 0) : Word :=
  s.regs.get (r.addr i j) (r.resetWord i j)

/-- Instance `(i, j)` of a register made to hold `v`. -/
def State.wr (s : State) (r : RegId) (v : Word) (i : Nat := 0) (j : Nat := 0) : State :=
  { s with regs := s.regs.set (r.addr i j) (r.resetWord i j) v }

/-- The value of a register field. -/
def State.fld (s : State) (f : Fld) (i : Nat := 0) (j : Nat := 0) : Nat :=
  bits (s.rd f.reg i j).toNat f.hi f.lo

/-- A register field made to hold the low bits of `x`, the register's other bits kept. -/
def State.put (s : State) (f : Fld) (x : Nat) (i : Nat := 0) (j : Nat := 0) : State :=
  s.wr f.reg (BitVec.ofNat 32 (putBits (s.rd f.reg i j).toNat f.hi f.lo x)) i j

/-- A one-bit field as a truth value. -/
def State.flag (s : State) (f : Fld) (i : Nat := 0) (j : Nat := 0) : Bool := s.fld f i j == 1

/-- The largest value a field holds. -/
def Fld.max (f : Fld) : Nat := 2 ^ (f.hi + 1 - f.lo) - 1

/-- A counter field that wraps, raised by `k`. -/
def State.bump (s : State) (f : Fld) (i : Nat := 0) (j : Nat := 0) (k : Nat := 1) : State :=
  s.put f (s.fld f i j + k) i j

/-- A counter field that saturates, raised by `k`. -/
def State.bumpSat (s : State) (f : Fld) (i : Nat := 0) (j : Nat := 0) (k : Nat := 1) : State :=
  s.put f (Nat.min (s.fld f i j + k) f.max) i j

/-- A register back at its Reset column. -/
def State.toReset (s : State) (r : RegId) (i : Nat := 0) (j : Nat := 0) : State := s.wr r (r.resetWord i j) i j

/-- The local counter as a number (R32). Log entry 2 (DESIGN CHOICE). -/
def State.now (s : State) : Nat := s.lcnt.toNat

/-- Something leaves the block. Log entry 8 (DESIGN CHOICE). -/
def State.emit (s : State) (o : Out) : State := { s with out := s.out ++ [o] }

/-! ## Time (R33): ticks of 40 ns -/

/-- Ticks in so many microseconds. -/
def usTicks (n : Nat) : Nat := 25 * n

/-- Ticks in so many milliseconds. -/
def msTicks (n : Nat) : Nat := 25000 * n

/-! ## Memory (R563, R564) -/

/-- Where a local address lies. -/
inductive Place where
  | core (n : Nat) | cl (k : Nat) | slice (m : Nat) | reg (off : Nat) | door (off : Nat) | hbm | hidden
  deriving DecidableEq, Repr

/-- 1 MiB. -/
def miB : Nat := 1048576

/-- The base of HBM in the local map (Table 23.1). -/
def hbmBase : Nat := 0x8000000000

/-- The place of a local address by Table 23.1, with the hidden addresses of R564. -/
def State.place (s : State) (a : Nat) : Place :=
  if a < 0x20000000 then
    let n := a / 0x2000000
    if a % 0x2000000 < 24 * miB then .core n else .hidden
  else if a < 0x30000000 then
    let k := (a - 0x20000000) / 0x2000000
    if a % 0x2000000 < (32 - s.poolCl.getD k 16) * miB then .cl k else .hidden
  else if a < 0x40000000 then .hidden
  else if a < 0x60000000 then
    let m := (a - 0x40000000) / 0x8000000
    if a % 0x8000000 < (96 - s.poolMd.getD m 64) * miB then .slice m else .hidden
  else if a < 0x64000000 then .reg (a - 0x60000000)
  else if a < 0x64200000 then .door (a - 0x64000000)
  else if a < hbmBase then .hidden
  else if a < hbmBase + 384 * 1024 * miB then .hbm
  else .hidden

/-- Two places are the same memory. -/
def Place.same : Place → Place → Bool
  | .core n, .core m => n == m
  | .cl n, .cl m => n == m
  | .slice n, .slice m => n == m
  | .hbm, .hbm => true
  | _, _ => false

/-- A range lies wholly in one memory of the map (`len` bytes from `a`; an empty range is where its start is). -/
def State.inOne (s : State) (a len : Nat) : Bool :=
  (s.place a).same (s.place (a + (len - 1)))

/-- A range lies wholly in the shared cache's direct lines or in HBM. -/
def State.inShared (s : State) (a len : Nat) : Bool :=
  s.inOne a len && (match s.place a with | .slice _ => true | .hbm => true | _ => false)

/-- The byte at a local address. Log entry 6 (DEDUCED). -/
def State.byte (s : State) (a : Nat) : Byte := s.mem.get a 0

/-- A byte written. -/
def State.setByte (s : State) (a : Nat) (b : Byte) : State := { s with mem := s.mem.set a 0 b }

/-- `n` bytes from `a`. -/
def State.bytes (s : State) (a n : Nat) : List Byte := (List.range n).map (fun k => s.byte (a + k))

/-- The memory with a byte list written from `a`. -/
def memWrite : Tab Byte → Nat → List Byte → Tab Byte
  | m, _, [] => m
  | m, a, b :: bs => memWrite (m.set a 0 b) (a + 1) bs

/-- A byte list written from `a`. -/
def State.setBytes (s : State) (a : Nat) (bs : List Byte) : State := { s with mem := memWrite s.mem a bs }

/-- The little-endian number of `w` bytes at `a` (R572). -/
def State.load (s : State) (a w : Nat) : Nat := leNat (s.bytes a w)

/-- A little-endian number of `w` bytes written at `a`. -/
def State.store (s : State) (a w v : Nat) : State := s.setBytes a (leBytes w v)

/-- Bytes `lo ≤ a < hi` made zero. -/
def State.zero (s : State) (lo hi : Nat) : State :=
  { s with mem := s.mem.clear (fun a => decide (lo ≤ a) && decide (a < hi)) }

/-- `len` bytes copied from `src` to `dst`, the source read whole first. -/
def State.copyBytes (s : State) (src dst len : Nat) : State := s.setBytes dst (s.bytes src len)

/-! ## Worlds (R446, R447) -/

/-- The world that a bit names. -/
def World.ofBit (b : Bool) : World := if b then .s else .n

/-- The bit of a world. -/
def World.bit : World → Nat
  | .n => 0
  | .s => 1

/-- The world of a core. -/
def State.coreWorld (s : State) (n : Nat) : World := World.ofBit (bit (s.fld F.SEC_WORLD_CORE_CORE) n)

/-- Region descriptor `i` covers an address. -/
def State.regionCovers (s : State) (i a : Nat) : Bool :=
  s.flag F.SEC_REG_LO_VALID i
    && decide (s.fld F.SEC_REG_LO_BASE i * (2 * miB) ≤ a)
    && decide (a < (s.fld F.SEC_REG_HI_LIMIT i + 1) * (2 * miB))

/-- The world of a shared-cache or HBM address: its covering descriptor's, N when none covers it. -/
def State.regionWorld (s : State) (a : Nat) : World :=
  match firstWhere (fun i => s.regionCovers i a) (List.range 64) with
  | some i => World.ofBit (s.flag F.SEC_REG_LO_WORLD i)
  | none => .n

/-- The world of a local address (Table 17.1). -/
def State.worldAt (s : State) (a : Nat) : World :=
  match s.place a with
  | .core n => s.coreWorld n
  | .cl k => World.ofBit (bit (s.fld F.SEC_WORLD_CL_CL) k)
  | .slice _ => s.regionWorld a
  | .hbm => s.regionWorld a
  | _ => .n

/-- The descriptors that touch a range of shared memory. -/
def State.regionsTouching (s : State) (a len : Nat) : List Nat :=
  (List.range 64).filter (fun i =>
    s.flag F.SEC_REG_LO_VALID i
      && decide (s.fld F.SEC_REG_LO_BASE i * (2 * miB) < a + len)
      && decide (a < (s.fld F.SEC_REG_HI_LIMIT i + 1) * (2 * miB)))

/-- Every byte of a range is of world `w`: a range of the shared cache or HBM is uniform between the 2 MiB marks. -/
def State.rangeWorld (s : State) (a len : Nat) (w : World) : Bool :=
  s.worldAt a == w && s.worldAt (a + (len - 1)) == w &&
    (List.range ((len - 1) / (2 * miB) + 1)).all (fun k => s.worldAt (Nat.min (a + k * (2 * miB)) (a + (len - 1))) == w)

/-! ## The gatherers (R482, R483) -/

/-- A numbered processor. -/
def procNum : Proc → Nat
  | .mgt => 0 | .sec => 1 | .fab => 2 | .sto => 3 | .cmd => 4

/-- The state of a firmware processor. -/
def State.proc (s : State) (p : Nat) : ProcSt := s.procs.get p {}

/-- The state of a firmware processor replaced. -/
def State.setProc (s : State) (p : Nat) (x : ProcSt) : State := { s with procs := s.procs.set p {} x }

/-- EN, pending and active bits and PRIO of a source. -/
def State.evgEn (s : State) (p src : Nat) : Bool := bit (s.rd .EVG_EN p (src / 32)).toNat (src % 32)
def State.evgPend (s : State) (p src : Nat) : Bool := bit (s.rd .EVG_PEND p (src / 32)).toNat (src % 32)
def State.evgAct (s : State) (p src : Nat) : Bool := bit (s.rd .EVG_ACT p (src / 32)).toNat (src % 32)
def State.evgPrio (s : State) (p src : Nat) : Nat :=
  bits (s.rd .EVG_PRIO p (src / 4)).toNat (8 * (src % 4) + 7) (8 * (src % 4))

/-- BP, 0 to 8; 9 to 15 act as 8. -/
def State.evgBp (s : State) (p : Nat) : Nat := Nat.min (s.fld F.EVG_BP_BP p) 8

/-- The group of a source: PRIO shifted right by BP (R484). -/
def State.evgGroup (s : State) (p src : Nat) : Nat := s.evgPrio p src / 2 ^ s.evgBp p

/-- A source can be TOP: enabled, pending and not active. -/
def State.evgReady (s : State) (p src : Nat) : Bool := s.evgEn p src && s.evgPend p src && !s.evgAct p src

/-- The better of two candidates: the lower PRIO, ties to the lower number (the earlier one here). -/
def evgBetter (s : State) (p : Nat) (best : Option Nat) (src : Nat) : Option Nat :=
  match best with
  | none => some src
  | some b => if s.evgPrio p src < s.evgPrio p b then some src else some b

/-- TOP (R484). -/
def State.evgTop (s : State) (p : Nat) : Option Nat :=
  ((List.range 32).filter (fun n => (s.rd .EVG_PEND p n) != 0)).foldl
    (fun best n =>
      ((upFrom (32 * n) 32).filter (fun x => s.evgReady p x)).foldl (fun b x => evgBetter s p b x) best) none

/-- EVG_TOP's fields follow the selection (Table 18.11). -/
def State.evgTopView (s : State) (p : Nat) : State :=
  match s.evgTop p with
  | none => ((s.put F.EVG_TOP_SRC 0x3FF p).put F.EVG_TOP_PRIO 0 p).put F.EVG_TOP_COUNT 0 p
  | some t =>
    ((s.put F.EVG_TOP_SRC t p).put F.EVG_TOP_PRIO (s.evgPrio p t) p).put F.EVG_TOP_COUNT (s.fires.get (1024 * p + t) 0) p

/-- Source `src` fires at gatherer `p`: its pending bit is set and its firing count rises, saturating at 255. -/
def State.fire (s : State) (p src : Nat) : State :=
  if src < 1023 then
    let s := s.put ⟨.EVG_PEND, src % 32, src % 32⟩ 1 p (src / 32)
    ({ s with fires := s.fires.set (1024 * p + src) 0 (Nat.min (s.fires.get (1024 * p + src) 0 + 1) 255) }).evgTopView p
  else s

/-- A source fires at every gatherer but that of processor `p`. -/
def State.fireOthers (s : State) (p src : Nat) : State :=
  forEach ((List.range 5).filter (· ≠ p)) (fun q s => s.fire q src) s

/-! ## Queues (R429, R430, R441 to R443, R567) -/

/-- The address of the table entry of queue `q` (R567). Log entry 34 (DEDUCED). -/
def qAddr (q : Nat) : Nat := 0x40000000 + 0x8000000 * (q / 8192) + 128 * (q % 8192)

/-- A field of `w` bytes at offset `o` of a queue table entry. Log entry 34 (DEDUCED). -/
def State.qf (s : State) (q o w : Nat) : Nat := s.load (qAddr q + o) w

/-- A field of a queue table entry written. -/
def State.setQf (s : State) (q o w v : Nat) : State := s.store (qAddr q + o) w v

def State.qClass (s : State) (q : Nat) : Nat := s.qf q 0 1
def State.qWorld (s : State) (q : Nat) : World := World.ofBit (bit (s.qf q 1 1) 0)
def State.qPrio (s : State) (q : Nat) : Nat := bits (s.qf q 1 1) 2 1
def State.qHostRing (s : State) (q : Nat) : Bool := bit (s.qf q 1 1) 3
def State.qIrq (s : State) (q : Nat) : Bool := bit (s.qf q 1 1) 4
def State.qTally (s : State) (q : Nat) : Bool := bit (s.qf q 1 1) 5
def State.qOwner (s : State) (q : Nat) : Nat := s.qf q 2 1
def State.qCqid (s : State) (q : Nat) : Nat := s.qf q 4 2
def State.qVector (s : State) (q : Nat) : Nat := s.qf q 6 2
def State.qBase (s : State) (q : Nat) : Nat := s.qf q 8 8
def State.qSize (s : State) (q : Nat) : Nat := s.qf q 16 4
/-- 0 inactive, 1 active, 2 error. -/
def State.qState (s : State) (q : Nat) : Nat := s.qf q 32 1
def State.qHead (s : State) (q : Nat) : Nat := s.qf q 36 4
def State.qTail (s : State) (q : Nat) : Nat := s.qf q 40 4
def State.qLostCnt (s : State) (q : Nat) : Nat := s.qf q 44 4
def State.qPhase (s : State) (q : Nat) : Nat := s.qf q 48 1 % 2

/-- The queues whose STATE byte is not 0, rising: only listed memory bytes can make one so. -/
def State.liveQueues (s : State) : List Nat :=
  (s.mem.ents.filter (fun e =>
      decide (0x40000000 ≤ e.1) && decide (e.1 < 0x60000000) && decide ((e.1 - 0x40000000) % 0x8000000 < miB)
        && e.1 % 128 == 32)).map
    (fun e => (e.1 - 0x40000000) / 0x8000000 * 8192 + (e.1 - 0x40000000) % 0x8000000 / 128)

/-- Make queue `q` active, its device-kept bytes at their start: indices 0, LOST 0, phase 1 (R429, R441). -/
def State.qActivate (s : State) (q : Nat) : State :=
  let s1 := if s.qState q = 0 then s.bumpSat F.HIF_Q_ACT_COUNT else s
  (s1.setBytes (qAddr q + 32) (padTo 32 [1])).setQf q 48 1 1

/-- Make queue `q` inactive. -/
def State.qDeactivate (s : State) (q : Nat) : State :=
  if s.qState q = 0 then s
  else { (s.put F.HIF_Q_ACT_COUNT (s.fld F.HIF_Q_ACT_COUNT - 1)).setQf q 32 1 0 with
         arbs := s.arbs.filter (fun r => r.queue ≠ q), qLost := s.qLost.filter (· ≠ q) }

/-- A request of queue `q` enters an arbiter at a level, unless one waits already (R444). -/
def State.arbEnter (s : State) (arb q level : Nat) : State :=
  if s.arbs.any (fun r => r.arb == arb && r.queue == q) then s
  else { s with arbs := s.arbs ++ [⟨arb, q, level, s.now⟩] }

/-- The position of `x` in a list. -/
def posOf (x : Nat) : List Nat → Nat
  | [] => 0
  | y :: ys => if y = x then 0 else posOf x ys + 1

/-- The gatherer source of a firmware mailbox: the m-th FWQ its processor owns, in ascending queue number (Table
18.7). Log entry 79 (DEDUCED). -/
def State.mailboxSource (s : State) (q : Nat) : Nat :=
  16 + posOf q (s.liveQueues.filter (fun x => s.qClass x == 5 && s.qOwner x == s.qOwner q))

/-- The entry size of a class (Table 16.4). -/
def qEntrySize (cls : Nat) : Nat := if cls = 1 then 16 else 64

/-- The queue has no free slot: (TAIL + 1) mod SIZE = HEAD (R430). -/
def State.qFull (s : State) (q : Nat) : Bool := (s.qTail q + 1) % s.qSize q == s.qHead q

/-- The queue holds no entry. -/
def State.qEmpty (s : State) (q : Nat) : Bool := s.qTail q == s.qHead q

/-- Send one MSI-X message, or mark it pending while the vector is masked (R443). -/
def State.sendMsix (s : State) (f vec : Nat) : State :=
  let v := s.msix.get (4096 * f + vec) {}
  if v.masked then { s with msix := s.msix.set (4096 * f + vec) {} { v with pend := true } }
  else s.emit (.msix f vec)

/-- Write one record at TAIL, move TAIL, flip the phase on the wrap, and send the interrupt (R441, R443). The caller
has seen that there is room. -/
def State.produceRaw (s : State) (q : Nat) (r : List Byte) : State :=
  let t := s.qTail q
  let a := s.qBase q + qEntrySize (s.qClass q) * t
  let s1 := if s.qHostRing q then s.emit (.hostWrite (s.qOwner q) (s.qWorld q) a r)
            else s.setBytes a r
  let t' := (t + 1) % s.qSize q
  let s2 := s1.setQf q 40 4 t'
  let s3 := if t' = 0 then s2.setQf q 48 1 (1 - s.qPhase q) else s2
  if s.qIrq q then s3.sendMsix (s.qOwner q) (s.qVector q) else s3

/-- Write one record with the phase bit at byte `po`. -/
def State.produce (s : State) (q po : Nat) (r : List Byte) : State :=
  s.produceRaw q (putField r po 1 (putBits (fieldAt r po 1) 0 0 (s.qPhase q)))

/-- Bytes whose content the manual leaves open: free values. Log entry 10 (DESIGN CHOICE). -/
def State.setFree (s : State) (a len : Nat) : State :=
  let k := s.freeIx
  { s.setBytes a ((List.range len).map (fun i => Config.freeByte (k + i))) with freeIx := k + len }

/-- LOST of a queue increments, saturating (Table 16.3). -/
def State.qDrop (s : State) (q : Nat) : State :=
  s.setQf q 44 4 (Nat.min (s.qLostCnt q + 1) 4294967295)

/-- The event record of Table 16.8; the phase bit is set when it is written. -/
def eventRecord (code src step time : Nat) (lost : Bool) (detail : List Nat) : List Byte :=
  padTo 64 (leBytes 2 code ++ leBytes 1 (if lost then 2 else 0) ++ leBytes 1 src ++ leBytes 4 step ++ leBytes 8 time
    ++ detail.flatMap (leBytes 4))

/-- Post an event to an event queue (R442): a full queue drops it and counts it in LOST. Log entry 205 (DEDUCED). -/
def State.post (s : State) (q code src step : Nat) (detail : List Nat) : State :=
  if s.qClass q = 6 ∧ s.qState q = 1 then
    if s.qFull q then { s.qDrop q with qLost := if s.qLost.contains q then s.qLost else s.qLost ++ [q] }
    else
      let r := eventRecord code src step s.now (s.qLost.contains q) detail
      { s.produce q 2 r with qLost := s.qLost.filter (· ≠ q) }
  else s

/-- Post to a function's admin event queue, QBASE + 2, while its admin queues are active (R433). -/
def State.postAdmin (s : State) (f code src step : Nat) (detail : List Nat) : State :=
  if s.flag F.HIF_FN_ST_ADM_ACT f then s.post (s.fld F.HIF_FN_QBASE_QBASE f + 2) code src step detail else s

/-- Post to the bound job's event queue. -/
def State.postJob (s : State) (code src step : Nat) (detail : List Nat) : State :=
  match s.job with
  | some j => s.post j.evq code src step detail
  | none => s

/-- SOURCE of a device event, and of a firmware processor's (Table 16.8). -/
def srcDevice : Nat := 0xFF
def srcProc (p : Nat) : Nat := 0x80 + p

/-- A fault event that a response in progress has already made moot (R529): a section- or step-class event while the step
is being aborted, or a section-class event while its section is being cut. LINK_DOWN and MEM_UE tell of the hardware and not
of the work that an abort discards: they are never moot. Log entry 204 (DEDUCED). -/
def State.moot (s : State) (code : Nat) (cls : FaultClass) : Bool :=
  match cls with
  | .sect => s.bar.aborted.isSome || (match s.sect with | some x => x.phase != .running && x.cut | none => false)
  | .step => s.bar.aborted.isSome && code != 0x3A && code != 0x35
  | _ => false

/-- Raise a fault event (R530, R542): it is posted, logged in CMD_FLT_LOG and, while a job is bound, waits for its
class's response; an abort in progress is the response to a step-class event too. `core` is 0xFF when the event has none.
Log entries 204 (DEDUCED), 205 (DEDUCED), 214 (DEDUCED). -/
def State.raise (s : State) (code : Nat) (cls : FaultClass) (src core sect : Nat) (fence : List Nat)
    (detail : List Nat) : State :=
  if s.moot code cls && fence.isEmpty then s
  else
    let step := (s.rd .CMD_STEP).toNat
    let s1 := (s.put F.CMD_FLT_LOG_CODE code).put F.CMD_FLT_LOG_CORE core |>.put F.CMD_FLT_LOG_STEP_LO step
    match s.job with
    | none => s1.postAdmin 0 code src 0 detail
    | some j =>
      let s2 := s1.post j.evq code src step detail
      let s3 := if code = 0x24 ∨ code = 0x41 ∨ code = 0x42 ∨ code = 0x43 then s2.postAdmin 0 code src 0 [] else s2
      let ev : FaultEv := ⟨code, cls, core, sect, fence, step, s.fld F.CMD_JOB_ATTEMPT⟩
      match cls with
      | .none => s3
      | .dev => { s3 with faults := s3.faults ++ [ev] }
      | .step => if s.bar.aborted.isSome then s3 else { s3 with faults := s3.faults ++ [ev] }
      | .sect => { s3 with faults := s3.faults ++ [ev] }

/-- Work that needs firmware processor `p` waits while that processor is not running (Table 18.3, R470).
Log entries 68 (DESIGN CHOICE), 211 (DEDUCED). -/
def State.served (s : State) (p : Nat) (o : Out?) : Out? := if (s.proc p).run = .running then o else .next s

/-! ## World violations (R450) -/

/-- A world violation: counted, logged, and reported while EVT_EN is 1. The offending act has no other effect. -/
def State.worldViol (s : State) (kind source addr : Nat) : State :=
  let s := s.bumpSat F.SEC_WV_CNT_COUNT
  let s := (s.put F.SEC_WV_LOG_KIND kind).put F.SEC_WV_LOG_SOURCE source
  let s := (s.put F.SEC_WV_ADDR_LO_ADDR_LO addr).put F.SEC_WV_ADDR_HI_ADDR_HI (addr / 4294967296)
  if s.flag F.SEC_WV_X_EVT_EN then
    let s := s.fire 1 128
    match s.job with
    | some j =>
      if j.secure then s.post j.evq 0x53 srcDevice (s.rd .CMD_STEP).toNat [(s.rd .SEC_WV_LOG).toNat] else s
    | none => s
  else s

/-! ## Who acts -/

/-- The world of a register access or doorbell write's maker (R425, R446). -/
def srcWorld : Src → World
  | .fn _ => .n
  | .fw _ _ => .s

/-- The access is the host's, or a processor's on a host's request (R11). -/
def srcOnHost : Src → Bool
  | .fn _ => true
  | .fw _ h => h

/-- The access comes from the host itself. -/
def srcIsHost : Src → Bool
  | .fn _ => true
  | .fw _ _ => false

/-- The SOURCE code of SEC_WV_LOG for a writer: function `f` is 0x40 + f. -/
def srcCode : Src → Nat
  | .fn f => 0x40 + f.val
  | .fw p _ => 0x80 + procNum p

/-! ## Cluster state as register access sees it -/

/-- A cluster is in bivouac (BC_CLk.STATE 2). Log entry 17 (DEDUCED). -/
def State.inBivouac (s : State) (k : Nat) : Bool := s.fld F.BC_CL_STATE k == 2

/-- The core of an engine or drain (R18). -/
def engCore (e : Nat) : Nat := e / 2

/-- The cluster of a core. -/
def coreCluster (n : Nat) : Nat := n / 2

/-- The cluster that a register belongs to, for registers that lose power with one (R73, R494).
Log entry 17 (DEDUCED). -/
def regCluster (r : RegId) (i : Nat) : Option Nat :=
  if regsOfME.contains r || regsOfDR.contains r then some (coreCluster (engCore i))
  else if regsOfCO.contains r || regsOfVE.contains r then some (coreCluster i)
  else if regsOfCL.contains r then some i
  else none

/-- The device is held in reset by PERST_N, by a lost rail or by a thermal trip (R502, R526, R556): no host access reaches it.
Log entries 18 (DEDUCED), 103 (DEDUCED). -/
def State.inReset (s : State) : Bool := !s.pins.perstN || s.boot.railHold || !s.boot.island || s.flag F.BC_LK_ST_TRIP

/-! ## Status over I3C (R553, R558, R559) -/

/-- Byte 12 of the status record: the causes of ALERT_N (R553, Table 22.6). -/
def State.alertByte (s : State) : Nat :=
  let on := fun (b : Bool) (n : Nat) => if b then 2 ^ n else 0
  let dead := s.fld F.BC_FW_ST_DEAD
  on (s.fld F.BC_BOOT_ST_FAIL != 0) 0 + on (bit dead 0) 1 + on (bit dead 1) 2 + on (s.fld F.BC_LK_ST_THROT != 0) 3
    + on (s.fld F.BC_LK_ST_OC != 0) 4 + on (s.rd .BC_RAIL_ST != 0) 5

/-- ALERT_N is driven low (R553). -/
def State.alertLow (s : State) : Bool := s.boot.island && s.alertByte != 0

/-- The I3C target drives SDA: MGT serves it, and no reset holds the outputs undriven (R551, R559).
Log entry 108 (DEDUCED). -/
def State.i3cServed (s : State) : Bool := !s.inReset && (s.proc 0).run == .running

/-- An in-band interrupt when byte 12 has changed (R559). Log entry 108 (DEDUCED). -/
def State.ibiView (s : State) : State :=
  if s.i3cServed && s.alertByte != s.ibiByte then { s.emit .ibi with ibiByte := s.alertByte } else s

end Sys2Proof.Machine
end

