-- ==== Sys2Proof/Machine/Net.lean ====
section
/-! DEFINITION. Fabric packets (R339 to R352): their fields, how one is built, sealed and handed to the fabric, and the
device's place on the torus. -/

namespace Sys2Proof.Machine

/-! ## Packet fields (Table 12.4) -/

def pkType (b : List Byte) : Nat := byteAt b 0
def pkVc (b : List Byte) : Nat := bits (byteAt b 1) 1 0
def pkWorld (b : List Byte) : World := World.ofBit (bit (byteAt b 1) 2)
def pkSealed (b : List Byte) : Bool := bit (byteAt b 1) 3
def pkKslot (b : List Byte) : Nat := bits (byteAt b 1) 4 4
def pkDet (b : List Byte) : Bool := bit (byteAt b 1) 5
def pkSrc (b : List Byte) : Nat := fieldAt b 2 2 % 32768
def pkDst (b : List Byte) : Nat := fieldAt b 4 2 % 32768
def pkSrcp (b : List Byte) : Nat := fieldAt b 6 2 % 32768
def pkDstp (b : List Byte) : Nat := fieldAt b 8 2 % 32768
def pkLen (b : List Byte) : Nat := byteAt b 10
def pkSub (b : List Byte) : Nat := byteAt b 11
def pkTag (b : List Byte) : Nat := fieldAt b 12 4
def pkAddr (b : List Byte) : Nat := fieldAt b 16 6
def pkOpnd (b : List Byte) : Nat := fieldAt b 24 8
def pkCmpv (b : List Byte) : Nat := fieldAt b 32 8
def pkIvctr (b : List Byte) : Nat := fieldAt b 40 8
def pkStep (b : List Byte) : Nat := fieldAt b 48 4
def pkAux (b : List Byte) : Nat := fieldAt b 52 4
def pkAux2 (b : List Byte) : Nat := fieldAt b 56 4
def pkHcrc (b : List Byte) : Nat := fieldAt b 60 4
def pkPayload (b : List Byte) : List Byte := (b.drop 64).take (64 * pkLen b)
def pkTrailer (b : List Byte) : List Byte := (b.drop (64 + 64 * pkLen b)).take 16

/-- The packet types and their virtual channels (Table 12.5); `none` for a reserved type. -/
def vcOfType (t : Nat) : Option Nat :=
  match t with
  | 0x01 | 0x03 | 0x05 | 0x08 | 0x0B => some 2
  | 0x02 | 0x04 | 0x06 | 0x07 | 0x09 | 0x0A => some 3
  | 0x0C | 0x0E => some 0
  | 0x0D => some 1
  | _ => none

/-- READ, WRITE, ATOMIC and GATHER are requests (R342). -/
def pkRequest (b : List Byte) : Bool := pkType b == 1 || pkType b == 3 || pkType b == 5 || pkType b == 8

/-- Header bytes 0–59 with DET taken as 0: what HCRC and the tag cover. -/
def pkCovered (b : List Byte) : List Byte := putField (b.take 60) 1 1 (clrBit (byteAt b 1) 5)

/-- HCRC over bytes 0–59 with DET taken as 0. -/
def pkHcrcOk (b : List Byte) : Bool := pkHcrc b == crc32c (pkCovered b)

/-! ## The torus (R344, R352, R353) -/

/-- An extent field: 0 and values above 32 act as 32. -/
def extent (v : Nat) : Nat := if v = 0 ∨ 32 < v then 32 else v

/-- The extents of the hall by axis: 0 X, 1 Y, 2 Z. -/
def State.extentOf (s : State) (axis : Nat) : Nat :=
  match axis with
  | 0 => extent (s.fld F.IKF_TORUS_DX)
  | 1 => extent (s.fld F.IKF_TORUS_DY)
  | _ => extent (s.fld F.IKF_TORUS_DZ)

/-- A coordinate of a 15-bit device identifier: X in [14:10], Y in [9:5], Z in [4:0]. -/
def coord (axis dev : Nat) : Nat :=
  match axis with
  | 0 => bits dev 14 10
  | 1 => bits dev 9 5
  | _ => bits dev 4 0

/-- A device identifier with one coordinate replaced. -/
def withCoord (axis dev c : Nat) : Nat :=
  match axis with
  | 0 => putBits dev 14 10 c
  | 1 => putBits dev 9 5 c
  | _ => putBits dev 4 0 c

/-- This device's logical and physical identifiers. -/
def State.selfLog (s : State) : Nat := s.fld F.IKF_SELF_LOG_ID
def State.selfPhys (s : State) : Nat := s.fld F.IKF_SELF_PHYS_ID

/-- A logical identifier lies within the extents (R344). -/
def State.devInRange (s : State) (dev : Nat) : Bool :=
  decide (coord 0 dev < s.extentOf 0) && decide (coord 1 dev < s.extentOf 1) && decide (coord 2 dev < s.extentOf 2)

/-- The physical identifier of a logical one (R352): the first valid remap entry, or the equal number. -/
def State.remap (s : State) (dev : Nat) : Nat :=
  match firstWhere (fun i => s.flag F.IKF_MAP_VALID i && s.fld F.IKF_MAP_LOG i == dev) (List.range 256) with
  | some i => s.fld F.IKF_MAP_PHYS i
  | none => dev

/-! ## Sending -/

/-- What the sender of a packet fills in. -/
structure PktInfo where
  type : Nat
  world : World
  dst : Nat
  /-- Set where the destination is named by physical identifier (REFUSE to SRCP, a snapshot's export). -/
  dstp : Option Nat := none
  sub : Nat := 0
  tag : Nat := 0
  addr : Nat := 0
  opnd : Nat := 0
  cmpv : Nat := 0
  aux : Nat := 0
  aux2 : Nat := 0
  payload : List Byte := []
  /-- STEP when it is not CMD_STEP: none takes CMD_STEP. -/
  step : Option Nat := none

/-- Header bytes 0–59 of a packet. -/
def State.pktHead (s : State) (x : PktInfo) (seald : Bool) (ctr : Nat) : List Byte :=
  let len := ceilDiv x.payload.length 64
  let b1 := (vcOfType x.type).getD 0 + 4 * x.world.bit + (if seald then 8 + 16 * s.sec.jobSlot else 0)
  leBytes 1 x.type ++ leBytes 1 b1 ++ leBytes 2 s.selfLog ++ leBytes 2 x.dst ++ leBytes 2 s.selfPhys
    ++ leBytes 2 (x.dstp.getD (s.remap x.dst)) ++ leBytes 1 len ++ leBytes 1 x.sub ++ leBytes 4 x.tag ++ leBytes 6 x.addr
    ++ leBytes 2 0 ++ leBytes 8 x.opnd ++ leBytes 8 x.cmpv ++ leBytes 8 (if seald then ctr else 0)
    ++ leBytes 4 (x.step.getD (s.rd .CMD_STEP).toNat) ++ leBytes 4 x.aux ++ leBytes 4 x.aux2

/-- The 96-bit nonce of a sealed packet, most significant byte first (R350). -/
def sealNonce (src kslot ctr : Nat) : List Byte := beBytes 12 ((src * 2 + kslot) * 2 ^ 80 + ctr)

/-- The job key of a slot. -/
def State.jobKey (s : State) (k : Nat) : List Byte := s.sec.jobKeys.getD k []

/-- AUTH_FAIL at an I/O die goes to SEC and CMD (R350). -/
def State.authFail (s : State) (io : Nat) : State := (s.fire 4 (268 + io)).fire 1 (129 + io)

/-- The I/O die that carries a port. -/
def portDie (p : Nat) : Nat := if p < 4 then 0 else 1

/-- The counter key of a slot and VC. -/
def ctrKey (kslot vc : Nat) : Nat := 4 * kslot + vc

/-- A packet enters the fabric here: unsealed with a payload CRC, or sealed under the job key, its counter risen by 1.
A device whose counter has reached 2⁶⁴ − 1 sends nothing on that VC and raises AUTH_FAIL (R350). -/
def State.sendPkt (s : State) (x : PktInfo) : State :=
  let pay := padTo (64 * ceilDiv x.payload.length 64) x.payload
  match x.world with
  | .n =>
    let h := s.pktHead x false 0
    let b := h ++ leBytes 4 (crc32c h) ++ pay ++ leBytes 4 (crc32c pay) ++ List.replicate 12 0
    { s with node := s.node ++ [⟨b, none, 0, []⟩] }
  | .s =>
    let k := ctrKey s.sec.jobSlot ((vcOfType x.type).getD 0)
    let c := s.sec.txCtr.get k 0
    if 2 ^ 64 - 1 ≤ c then s.authFail 0
    else
      let c := c + 1
      let h := s.pktHead x true c
      let nonce := sealNonce s.selfLog s.sec.jobSlot c
      let ct := gcmCrypt (s.jobKey s.sec.jobSlot) nonce pay
      let b := h ++ leBytes 4 (crc32c h) ++ ct ++ gcmTag (s.jobKey s.sec.jobSlot) nonce h ct
      { s with node := s.node ++ [⟨b, none, 0, []⟩], sec := { s.sec with txCtr := s.sec.txCtr.set k 0 c } }

/-- A REFUSE of a request to its sender, by physical identifier (R254, R342). -/
def State.refusePkt (s : State) (b : List Byte) (cause : Nat) (payload : List Byte := []) : State :=
  s.sendPkt { type := 0x07, world := pkWorld b, dst := pkSrc b, dstp := some (pkSrcp b), sub := cause, tag := pkTag b,
              addr := pkAddr b, payload := payload }

/-- A response to a request packet. -/
def State.respond (s : State) (b : List Byte) (type : Nat) (opnd aux : Nat) (payload : List Byte) : State :=
  s.sendPkt { type := type, world := pkWorld b, dst := pkSrc b, dstp := some (pkSrcp b), tag := pkTag b, addr := pkAddr b,
              opnd := opnd, aux := aux, payload := payload }

/-- A CONTROL packet with a CTYPE and payload (R340). -/
def State.sendControl (s : State) (ctype dst : Nat) (w : World) (payload : List Byte) (aux : Nat := 0) : State :=
  s.sendPkt { type := 0x0E, world := w, dst := dst, sub := ctype, aux := aux, payload := payload }

/-- The oldest accepted packet of a type, and the state without it. -/
def takeFirst (t : Nat) : List (List Byte) → Option (List Byte × List (List Byte))
  | [] => none
  | b :: bs =>
    if pkType b = t then some (b, bs)
    else match takeFirst t bs with
      | some (x, ys) => some (x, b :: ys)
      | none => none

def State.takeIn (s : State) (t : Nat) : Option (List Byte × State) :=
  match takeFirst t s.fabIn with
  | some (b, bs) => some (b, { s with fabIn := bs })
  | none => none

/-- A packet that this device drops (R339, R342, R344, R346). -/
def State.netDrop (s : State) : State := s.bumpSat F.IKF_DROP_COUNT

end Sys2Proof.Machine
end

