-- ==== Sys2Proof/Machine/Num.lean ====
section
/-! DEFINITION. Exact numbers and their formats (Table 3.1): decoding, rounding once to a format, encoding, and the
IEEE 754 operations that every arithmetic unit uses. -/

namespace Sys2Proof.Machine

/-- A number as the arithmetic sees it: NaN, an infinity, or the finite value (-1)^neg · m · 2^e, zero signed. -/
inductive Val where
  | nan
  | inf (neg : Bool)
  | fin (neg : Bool) (m : Nat) (e : Int)
  deriving DecidableEq, Repr

/-- The rounding modes of Table 7.8. -/
inductive RM where
  | nearest | zero | up | down
  deriving DecidableEq, Repr

/-- A binary floating-point format: precision, exponent of its smallest step, largest finite magnitude
`maxM · 2^maxE`, and the widths of its code. -/
structure FFmt where
  p : Nat
  qmin : Int
  maxM : Nat
  maxE : Int
  ebits : Nat
  mbits : Nat
  bias : Nat
  deriving DecidableEq, Repr

def fp32 : FFmt := ⟨24, -149, 16777215, 104, 8, 23, 127⟩
def bf16 : FFmt := ⟨8, -133, 255, 120, 8, 7, 127⟩
def fp16 : FFmt := ⟨11, -24, 2047, 5, 5, 10, 15⟩
def fp64 : FFmt := ⟨53, -1074, 9007199254740991, 971, 11, 52, 1023⟩
def e4m3 : FFmt := ⟨4, -9, 7, 6, 4, 3, 7⟩
def e5m2 : FFmt := ⟨3, -16, 7, 13, 5, 2, 15⟩
def e3m2 : FFmt := ⟨3, -4, 7, 2, 3, 2, 3⟩
def e2m3 : FFmt := ⟨4, -3, 15, -1, 2, 3, 1⟩
def e2m1 : FFmt := ⟨2, -1, 3, 1, 2, 1, 1⟩

/-- +0. -/
def vzero : Val := .fin false 0 0

def Val.isNan : Val → Bool
  | .nan => true
  | _ => false

def Val.isInf : Val → Bool
  | .inf _ => true
  | _ => false

def Val.isFin : Val → Bool
  | .fin _ _ _ => true
  | _ => false

def Val.isZero : Val → Bool
  | .fin _ m _ => m == 0
  | _ => false

def Val.neg : Val → Val
  | .nan => .nan
  | .inf s => .inf (!s)
  | .fin s m e => .fin (!s) m e

def Val.abs : Val → Val
  | .nan => .nan
  | .inf _ => .inf false
  | .fin _ m e => .fin false m e

/-- The sign of a number that is not NaN. -/
def Val.sign : Val → Bool
  | .nan => false
  | .inf s => s
  | .fin s _ _ => s

/-- `i · 2^e` as a value; an exact zero is +0. -/
def ofInt (i : Int) (e : Int) : Val := .fin (decide (i < 0)) i.natAbs e

/-- A finite value as an integer multiple of 2^e0, for `e0` at most its exponent. -/
def finScaled (neg : Bool) (m : Nat) (e e0 : Int) : Int :=
  let a : Int := Int.ofNat (m * 2 ^ (e - e0).toNat)
  if neg then -a else a

/-- `v · 2^k`. -/
def Val.scale (v : Val) (k : Int) : Val :=
  match v with
  | .fin s m e => .fin s m (e + k)
  | v => v

/-- The sum of two finite values, exactly, as an integer and an exponent. -/
def addFin (n1 : Bool) (m1 : Nat) (e1 : Int) (n2 : Bool) (m2 : Nat) (e2 : Int) : Int × Int :=
  let e0 := min e1 e2
  (finScaled n1 m1 e1 e0 + finScaled n2 m2 e2 e0, e0)

/-- Exact sum under IEEE 754 rules for specials and for the sign of zero (`down`: rounding toward −∞). -/
def vaddX (down : Bool) (a b : Val) : Val :=
  match a, b with
  | .nan, _ => .nan
  | _, .nan => .nan
  | .inf s, .inf t => if s = t then .inf s else .nan
  | .inf s, _ => .inf s
  | _, .inf t => .inf t
  | .fin n1 m1 e1, .fin n2 m2 e2 =>
    let r := addFin n1 m1 e1 n2 m2 e2
    if r.1 = 0 then
      if m1 = 0 ∧ m2 = 0 ∧ n1 = n2 then .fin n1 0 0 else .fin down 0 0
    else ofInt r.1 r.2

/-- Exact sum, nearest-even signs. -/
def vadd (a b : Val) : Val := vaddX false a b

/-- Exact product under IEEE 754 rules. -/
def vmul (a b : Val) : Val :=
  match a, b with
  | .nan, _ => .nan
  | _, .nan => .nan
  | .inf s, .inf t => .inf (s != t)
  | .inf s, .fin t m _ => if m = 0 then .nan else .inf (s != t)
  | .fin s m _, .inf t => if m = 0 then .nan else .inf (s != t)
  | .fin s m e, .fin t m' e' => .fin (s != t) (m * m') (e + e')

/-- `a < b` for numbers (false with a NaN). -/
def vlt (a b : Val) : Bool :=
  match a, b with
  | .nan, _ => false
  | _, .nan => false
  | .inf s, .inf t => s && !t
  | .inf s, _ => s
  | _, .inf t => !t
  | .fin n1 m1 e1, .fin n2 m2 e2 =>
    let e0 := min e1 e2
    decide (finScaled n1 m1 e1 e0 < finScaled n2 m2 e2 e0)

/-- Equal numbers (zeros of both signs are equal). -/
def veq (a b : Val) : Bool :=
  match a, b with
  | .nan, _ => false
  | _, .nan => false
  | .inf s, .inf t => s == t
  | .inf _, _ => false
  | _, .inf _ => false
  | .fin n1 m1 e1, .fin n2 m2 e2 =>
    let e0 := min e1 e2
    decide (finScaled n1 m1 e1 e0 = finScaled n2 m2 e2 e0)

def vle (a b : Val) : Bool := vlt a b || veq a b

/-- `m / 2^k` rounded to an integer: mode, sign, value and the number of dropped bits. -/
def roundShift (rm : RM) (neg : Bool) (m k : Nat) : Nat :=
  let q := m / 2 ^ k
  let r := m % 2 ^ k
  if r = 0 then q
  else
    match rm with
    | .zero => q
    | .up => if neg then q else q + 1
    | .down => if neg then q + 1 else q
    | .nearest =>
      let h := 2 ^ (k - 1)
      if h < r then q + 1 else if r < h then q else if q % 2 = 0 then q else q + 1

/-- The magnitude `m · 2^e` is above `maxM · 2^maxE`. -/
def overMax (f : FFmt) (m : Nat) (e : Int) : Bool := vlt (.fin false f.maxM f.maxE) (.fin false m e)

/-- A finite magnitude rounded once with the format's precision and smallest step, its largest magnitude not yet
applied. -/
def roundMag (f : FFmt) (rm : RM) (neg : Bool) (m : Nat) (e : Int) : Nat × Int :=
  if m = 0 then (0, 0)
  else
    let q := max (e + (Nat.log2 m : Nat) - (f.p - 1 : Nat)) f.qmin
    if q ≤ e then (m * 2 ^ (e - q).toNat, q) else (roundShift rm neg m (q - e).toNat, q)

/-- A value rounded once to a format; beyond its largest magnitude it becomes an infinity, or the largest magnitude
where the mode rounds toward zero on that side. -/
def rnd (f : FFmt) (rm : RM) (v : Val) : Val :=
  match v with
  | .fin s m e =>
    let r := roundMag f rm s m e
    if overMax f r.1 r.2 then
      match rm, s with
      | .zero, _ => .fin s f.maxM f.maxE
      | .up, true => .fin s f.maxM f.maxE
      | .down, false => .fin s f.maxM f.maxE
      | _, _ => .inf s
    else .fin s r.1 r.2
  | v => v

/-- One rounding to FP32, nearest-even. -/
def rn32 (v : Val) : Val := rnd fp32 .nearest v

/-- One rounding to FP64, nearest-even. -/
def rn64 (v : Val) : Val := rnd fp64 .nearest v

/-! ## Codes -/

/-- The value of an IEEE-style code: exponent all ones is infinity or NaN when `specials`. -/
def decodeIeee (f : FFmt) (specials : Bool) (c : Nat) : Val :=
  let s := bit c (f.ebits + f.mbits)
  let x := bits c (f.ebits + f.mbits - 1) f.mbits
  let m := c % 2 ^ f.mbits
  if specials && x == 2 ^ f.ebits - 1 then (if m = 0 then .inf s else .nan)
  else if x = 0 then .fin s m f.qmin
  else .fin s (m + 2 ^ f.mbits) (f.qmin + (x - 1 : Nat))

/-- The code of a finite value that the format holds exactly. -/
def encodeFin (f : FFmt) (s : Bool) (m : Nat) (e : Int) : Nat :=
  let sg := if s then 2 ^ (f.ebits + f.mbits) else 0
  if m = 0 then sg
  else
    let k := Nat.log2 m
    let top := e + (k : Nat)
    let x := top - f.qmin - (f.mbits : Nat) + 1
    if x ≤ 0 then sg + (m * 2 ^ (e - f.qmin).toNat) / 2 ^ (f.qmin - e).toNat
    else
      let frac := if k ≤ f.mbits then m * 2 ^ (f.mbits - k) else m / 2 ^ (k - f.mbits)
      sg + x.toNat * 2 ^ f.mbits + (frac - 2 ^ f.mbits)

/-- The code of a value in an IEEE format, its NaN canonical. -/
def encodeIeee (f : FFmt) (v : Val) : Nat :=
  match v with
  | .nan => (2 ^ f.ebits - 1) * 2 ^ f.mbits + 2 ^ (f.mbits - 1)
  | .inf s => (if s then 2 ^ (f.ebits + f.mbits) else 0) + (2 ^ f.ebits - 1) * 2 ^ f.mbits
  | .fin s m e => encodeFin f s m e

/-- The format codes of Table 3.1. -/
def fmtBits (fmt : Nat) : Nat :=
  match fmt with
  | 0x0 | 0x1 => 16
  | 0x6 | 0x7 => 6
  | 0x8 => 4
  | 0xB => 32
  | 0xC => 64
  | _ => 8

/-- An MX format (Table 3.1). -/
def fmtMx (fmt : Nat) : Bool := (decide (4 ≤ fmt) && decide (fmt ≤ 8)) || fmt == 0xA

/-- The floating-point format of a code's elements. -/
def fmtF (fmt : Nat) : FFmt :=
  match fmt with
  | 0x0 => bf16
  | 0x1 => fp16
  | 0x2 | 0x4 => e4m3
  | 0x3 | 0x5 => e5m2
  | 0x6 => e3m2
  | 0x7 => e2m3
  | 0x8 => e2m1
  | 0xC => fp64
  | _ => fp32

/-- The value of an element code, its block or tensor scale not applied (R79): MXINT8 elements count in 2⁻⁶. -/
def decodeElem (fmt c : Nat) : Val :=
  match fmt with
  | 0x2 | 0x4 => if c % 128 = 127 then .nan else decodeIeee e4m3 false c
  | 0x3 | 0x5 => decodeIeee e5m2 true c
  | 0x6 => decodeIeee e3m2 false c
  | 0x7 => decodeIeee e2m3 false c
  | 0x8 => decodeIeee e2m1 false c
  | 0x9 => ofInt (signed 8 c) 0
  | 0xA => ofInt (signed 8 c) (-6)
  | _ => decodeIeee (fmtF fmt) true c

/-- The code of a value that one of the non-MX output formats holds: its NaN canonical, E4M3 without infinity
(R122, R235). -/
def encodeElem (fmt : Nat) (v : Val) : Nat :=
  match fmt, v with
  | 0x2, .nan => 0x7F
  | 0x2, .inf s => if s then 0xFF else 0x7F
  | 0x2, .fin s m e => encodeFin e4m3 s m e
  | 0x3, .nan => 0x7E
  | f, v => encodeIeee (fmtF f) v

/-- An element code times its E8M0 block scale (R79): scale 0xFF is NaN. -/
def applyScale (v : Val) (sc : Nat) : Val := if sc = 0xFF then .nan else v.scale ((sc : Int) - 127)

/-- The FP32 value of a 32-bit code, and its code again. -/
def f32 (c : Nat) : Val := decodeIeee fp32 true c
def f32c (v : Val) : Nat := encodeIeee fp32 v

/-! ## IEEE 754 operations: one rounding each -/

def faddF (f : FFmt) (rm : RM) (a b : Val) : Val := rnd f rm (vaddX (rm == .down) a b)
def fsubF (f : FFmt) (rm : RM) (a b : Val) : Val := faddF f rm a b.neg
def fmulF (f : FFmt) (rm : RM) (a b : Val) : Val := rnd f rm (vmul a b)
def ffmaF (f : FFmt) (rm : RM) (a b c : Val) : Val := rnd f rm (vaddX (rm == .down) (vmul a b) c)

/-- Quotient, rounded once: enough quotient bits and a sticky bit. -/
def fdivF (f : FFmt) (rm : RM) (a b : Val) : Val :=
  match a, b with
  | .nan, _ => .nan
  | _, .nan => .nan
  | .inf _, .inf _ => .nan
  | .inf s, .fin t _ _ => .inf (s != t)
  | .fin s _ _, .inf t => .fin (s != t) 0 0
  | .fin s m e, .fin t m' e' =>
    if m' = 0 then (if m = 0 then .nan else .inf (s != t))
    else if m = 0 then .fin (s != t) 0 0
    else
      let k := f.p + 3 + Nat.log2 m'
      let q := m * 2 ^ k / m'
      let r := m * 2 ^ k % m'
      rnd f rm (.fin (s != t) (2 * q + (if r = 0 then 0 else 1)) (e - e' - (k : Nat) - 1))

/-- The integer square root, by its bits from `2^n` down. -/
def isqrtLoop : Nat → Nat → Nat → Nat
  | 0, m, r => if (r + 1) * (r + 1) ≤ m then r + 1 else r
  | n + 1, m, r =>
    let t := r + 2 ^ (n + 1)
    if t * t ≤ m then isqrtLoop n m t else isqrtLoop n m r

/-- The integer square root. -/
def isqrt (m : Nat) : Nat := isqrtLoop (Nat.log2 m / 2 + 1) m 0

/-- Square root, rounded once. -/
def fsqrtF (f : FFmt) (rm : RM) (a : Val) : Val :=
  match a with
  | .nan => .nan
  | .inf s => if s then .nan else .inf false
  | .fin s m e =>
    if m = 0 then .fin s 0 0
    else if s then .nan
    else
      let m2 := if e % 2 = 0 then m else 2 * m
      let e2 := if e % 2 = 0 then e else e - 1
      let k := f.p + 2
      let x := m2 * 2 ^ (2 * k)
      let q := isqrt x
      rnd f rm (.fin false (2 * q + (if q * q = x then 0 else 1)) (e2 / 2 - (k : Nat) - 1))

/-- Reciprocal square root, rounded once: 1/√A of IEEE 754 (±0 gives ±∞). -/
def frsqrtF (f : FFmt) (rm : RM) (a : Val) : Val :=
  match a with
  | .nan => .nan
  | .inf s => if s then .nan else vzero
  | .fin s m e =>
    if m = 0 then .inf s
    else if s then .nan
    else
      let m2 := if e % 2 = 0 then m else 2 * m
      let e2 := if e % 2 = 0 then e else e - 1
      let k := f.p + 3 + Nat.log2 m2
      let q := isqrt (2 ^ (2 * k) / m2)
      rnd f rm (.fin false (2 * q + (if q * q * m2 = 2 ^ (2 * k) then 0 else 1)) (-(e2 / 2) - (k : Nat) - 1))

/-- The larger: NaN if either is NaN; max(+0, −0) = +0 (Table 7.9). -/
def vmax (a b : Val) : Val :=
  if a.isNan || b.isNan then .nan
  else if vlt a b then b else if vlt b a then a else if a.sign then b else a

/-- The smaller: NaN if either is NaN; min(+0, −0) = −0. -/
def vmin (a b : Val) : Val :=
  if a.isNan || b.isNan then .nan
  else if vlt a b then a else if vlt b a then b else if a.sign then a else b

end Sys2Proof.Machine
end

