-- ==== Sys2Proof/Machine/Native.lean ====
section
/-! DEFINITION. The sums of a matrix engine (chapter 3): exact products, group sums, the fixed tree, the PSB add with
twin-word form and promotion, integer entries with tags, heritage order, and the quantities that the check lane
compares (R51 to R56). -/

namespace Sys2Proof.Machine

/-! ## Elements -/

/-- The decoded value of an element: its format value, its MX block scale (256: a block without valid elements, read as
0x7F) and 2^E (R79, R141, R276). -/
def elemVal (fmt code sc : Nat) (e : Int) : Val :=
  let v := decodeElem fmt code
  (if fmtMx fmt then applyScale v (if sc = 256 then 0x7F else sc) else v).scale e

/-- Position `(r, k)` of an operand whose blocks run along a row (activations). -/
def Operand.along (o : Operand) (r k : Nat) : Val :=
  elemVal o.fmt ((o.codes.getD r []).getD k 0) ((o.scales.getD r []).getD (k / 32) 127) (o.exps.getD r 0)

/-- Position `(k, n)` of an operand whose blocks run down a column (weights). -/
def Operand.down (o : Operand) (k n : Nat) : Val :=
  elemVal o.fmt ((o.codes.getD k []).getD n 0) ((o.scales.getD (k / 32) []).getD n 127) (o.exps.getD k 0)

/-- The number of rows and of columns that an operand holds. -/
def Operand.height (o : Operand) : Nat := o.codes.length
def Operand.width (o : Operand) : Nat := (o.codes.headD []).length

/-! ## Group, tree and accumulator additions (R84 to R86) -/

/-- Every zero result of native work is +0 (R85). -/
def nz (v : Val) : Val := if v.isZero then vzero else v

/-- One rounding to an accumulation format with +0 for zero. -/
def rnA (f : FFmt) (v : Val) : Val := nz (rnd f .nearest v)

/-- Exact sum of values under R85. -/
def vsum (vs : List Val) : Val := vs.foldl vadd vzero

/-- A group sum: exact, then rounded once (R84). -/
def groupSum (f : FFmt) (prods : List Val) : Val := rnA f (vsum prods)

/-- One level of the tree: neighbours added, an unpaired last element passed up (adding +0 changes nothing, R90). -/
def pairUp (f : FFmt) : List Val → List Val
  | a :: b :: rest => rnA f (vadd a b) :: pairUp f rest
  | rest => rest

/-- `n` levels of the tree. -/
def treeLevels (f : FFmt) : Nat → List Val → List Val
  | 0, vs => vs
  | n + 1, vs => treeLevels f n (pairUp f vs)

/-- The tree over up to 16 group sums (Table 3.3). -/
def treeSum (f : FFmt) (gs : List Val) : Val := (treeLevels f 4 gs).headD vzero

/-- A list cut into groups of 32. -/
def groups32 {α : Type} (xs : List α) : List (List α) :=
  (List.range ((xs.length + 31) / 32)).map (fun g => (xs.drop (32 * g)).take 32)

/-- Tree result of a list of exact products in the accumulation format (R83 to R86). -/
def nativeSum (f : FFmt) (prods : List Val) : Val := treeSum f ((groups32 prods).map (groupSum f))

/-- Heritage order (R106): one rounding to FP32 after every addition, IEEE signs of zero. -/
def heritageSum (start : Val) (prods : List Val) : Val := prods.foldl (fun e p => rn32 (vadd e p)) start

/-! ## The PSB entry (R87, R95, R96, R98, R99) -/

/-- The accumulation format of ACCW and ACC16 (Table 3.2). -/
def accFmt (accw : Nat) (acc16 : Bool) : FFmt := if accw = 1 then (if acc16 then bf16 else fp16) else fp32

/-- The form of a row after pass `p` of `total` (R93, R96). -/
def psbFormOf (accw total p : Nat) (heritage : Bool) : PsbForm :=
  if heritage then .single
  else if accw = 2 then .int
  else if accw = 1 then (if p ≤ 8 then .narrow else if 128 < total then .twin else .single)
  else if 128 < total then .twin else .single

/-- One twin-word addition (R95). -/
def twinAdd (e : PsbEnt) (t : Val) : PsbEnt :=
  let hi := f32 e.hi
  let s := rnA fp32 (vadd hi t)
  if !s.isFin then { hi := f32c s }
  else
    let sub := fun (a b : Val) => rnA fp32 (vadd a b.neg)
    let bp := sub s hi
    let ap := sub s bp
    let err := rnA fp32 (vadd (sub hi ap) (sub t bp))
    { hi := f32c s, lo := f32c (rnA fp32 (vadd (f32 e.lo) err)) }

/-- The entry after pass `p` of `total` with tree result `t` in format `f` (R87, R95, R96). -/
def psbAddF (f : FFmt) (narrow : Bool) (total p : Nat) (e : PsbEnt) (t : Val) : PsbEnt :=
  if p = 1 then { hi := encodeIeee f t }
  else if narrow && decide (p ≤ 8) then { hi := encodeIeee f (rnA f (vadd (decodeIeee f true e.hi) t)) }
  else
    let e := if narrow && p == 9 then { hi := f32c (decodeIeee f true e.hi) } else e
    if 128 < total then twinAdd e t else { hi := f32c (rnA fp32 (vadd (f32 e.hi) t)) }

/-- The INT32 range. -/
def int32Min : Int := -2147483648
def int32Max : Int := 2147483647

/-- What one pass adds to an INT32 entry: invalid (R99), or an integer. -/
inductive IntPass where
  | invalid
  | add (v : Int)
  deriving DecidableEq, Repr

/-- The INT32 entry after a pass (R98). -/
def psbAddI (p : Nat) (e : PsbEnt) (c : IntPass) : PsbEnt :=
  let e := if p = 1 then {} else e
  match c with
  | .invalid => { e with tag := 3 }
  | .add x =>
    if e.tag ≠ 0 then e
    else
      let v := e.v + x
      { v := v, tag := if int32Max < v then 1 else if v < int32Min then 2 else 0 }

/-- The FP32 value that the drain's stage 0 makes of an entry (R97, R98, R110). -/
def psbRead (form : PsbForm) (f : FFmt) (b : Int) (e : PsbEnt) : Val :=
  match form with
  | .narrow => decodeIeee f true e.hi
  | .single => f32 e.hi
  | .twin => rnA fp32 (vadd (f32 e.hi) (f32 e.lo))
  | .int =>
    match e.tag with
    | 0 => rn32 (ofInt e.v b)
    | 1 => .inf false
    | 2 => .inf true
    | _ => .nan

/-! ## Column contributions of one vector -/

/-- The exact products of a vector with column `n` of a weight set, over the rows of the set. -/
def colProds (a : Operand) (r : Nat) (w : Operand) (n : Nat) : List Val :=
  (List.range w.height).map (fun k => vmul (a.along r k) (w.down k n))

/-- The integer of an INT8 or MXINT8 element code. -/
def intCode (c : Nat) : Int := signed 8 c

/-- The block scale of an element of an integer operand: 133 for INT8 in mixed work (R99). -/
def intScale (fmt sc : Nat) : Nat := if fmt = 0x9 then 133 else sc

/-- The groups of an integer pass for column `n`: exact sum of code products, activation scale and weight scale, for
every group whose blocks both hold a valid element (R99). -/
def intGroups (a : Operand) (r : Nat) (w : Operand) (n : Nat) : List (Int × Nat × Nat) :=
  (List.range ((w.height + 31) / 32)).filterMap (fun g =>
    let sa := (a.scales.getD r []).getD g 127
    let sw := (w.scales.getD g []).getD n 127
    if sa == 256 || sw == 256 then none
    else
      let ks := (upFrom (32 * g) 32).filter (· < w.height)
      let gsum := (ks.map (fun k =>
        intCode ((a.codes.getD r []).getD k 0) * intCode ((w.codes.getD k []).getD n 0))).foldl (· + ·) 0
      some (gsum, intScale a.fmt sa, intScale w.fmt sw))

/-- The pass contribution of INT8 or MXINT8 work with base exponent `b` (R99). -/
def intPass (mx : Bool) (b : Int) (gs : List (Int × Nat × Nat)) : IntPass :=
  if !mx then .add ((gs.map (·.1)).foldl (· + ·) 0)
  else if gs.any (fun g => g.2.1 == 0xFF || g.2.2 == 0xFF || decide ((g.2.1 : Int) + g.2.2 - 266 - b < 0)) then .invalid
  else .add ((gs.map (fun g => g.1 * ((2 ^ ((g.2.1 : Int) + g.2.2 - 266 - b).toNat : Nat) : Int))).foldl (· + ·) 0)

/-- What one vector contributes to one column in a pass: its output as the check sees it, and what is added to the PSB
entry. -/
structure ColOut where
  /-- The column output of R55. -/
  out : Val
  /-- The tree result (native floating point). -/
  t : Val
  /-- The contribution (integer work). -/
  i : IntPass
  /-- The products (heritage work continues the entry with them). -/
  prods : List Val
  deriving DecidableEq, Repr

/-- The numeric mode of a problem's work. -/
inductive NumMode where
  | native (f : FFmt)
  | int (mx : Bool) (b : Int)
  | heritage
  deriving DecidableEq, Repr

/-- The contribution of row `r` of a vector operand to column `n`. -/
def colOut (m : NumMode) (a : Operand) (r : Nat) (w : Operand) (n : Nat) : ColOut :=
  match m with
  | .native f =>
    let t := nativeSum f (colProds a r w n)
    ⟨t, t, .add 0, []⟩
  | .heritage =>
    let ps := colProds a r w n
    let t := heritageSum vzero ps
    ⟨t, t, .add 0, ps⟩
  | .int mx b =>
    let gs := intGroups a r w n
    let i := intPass mx b gs
    let o := if mx then
        (if gs.any (fun g => g.2.1 == 0xFF || g.2.2 == 0xFF) then .nan
         else vsum (gs.map (fun g => ofInt g.1 ((g.2.1 : Int) + g.2.2 - 266))))
      else match i with
        | .add v => ofInt v 0
        | .invalid => .nan
    ⟨o, o, i, []⟩

/-! ## The check lane (R51 to R56) -/

/-- The check weight of row `k`: the exact sum of the row, rounded once to FP32, or the exact integer (R51). -/
def checkWeight (m : NumMode) (w : Operand) (k : Nat) : Val :=
  let s := vsum ((List.range w.width).map (w.down k))
  match m with
  | .int false _ => s
  | _ => rn32 s

/-- The sum of the magnitudes of the weights, exact. -/
def absWeights (w : Operand) : Val :=
  vsum ((List.range w.height).flatMap (fun k => (List.range w.width).map (fun n => (w.down k n).abs)))

/-- One rounding to FP32 toward +∞. -/
def ru32 (v : Val) : Val := rnd fp32 .up v

/-- The largest magnitude of a vector (R54). -/
def maxAbs (a : Operand) (r len : Nat) : Val := ((List.range len).map (fun k => (a.along r k).abs)).foldl vmax vzero

/-- The check products of row `r`: one for each weight row. -/
def checkProds (m : NumMode) (a : Operand) (r : Nat) (w : Operand) : List Val :=
  (List.range w.height).map (fun k => vmul (a.along r k) (checkWeight m w k))

/-- Cell sums of a quad half: the products of both segments, row by row (R52). -/
def addCells : List Val → List Val → List Val
  | a :: as, b :: bs => vadd a b :: addCells as bs
  | [], bs => bs
  | as, [] => as

/-- The check output from the check products (R53). -/
def checkOut (m : NumMode) (cells : List Val) : Val :=
  match m with
  | .heritage => heritageSum vzero cells
  | .int false _ => vsum cells
  | _ => nativeSum fp32 cells

/-- The tolerance of Table 2.6 as a factor of T: a count of 2^-24. -/
def tolFactor (m : NumMode) : Val :=
  match m with
  | .heritage => .fin false 520 (-24)
  | .int false _ => vzero
  | .int true _ => .fin false 13 (-24)
  | .native f =>
    if f.p = 24 then .fin false 13 (-24)
    else if f.p = 11 then vadd (.fin false 6 (-11)) (.fin false 7 (-24))
    else vadd (.fin false 6 (-8)) (.fin false 7 (-24))

/-- The comparison of R55 and R56: `none` when it is skipped, else whether it passes. -/
def checkJudge (m : NumMode) (shift : Nat) (outs : List Val) (c t : Val) : Option Bool :=
  if outs.any (fun v => !v.isFin) || !c.isFin || !t.isFin then none
  else some (vle (vadd c (vsum outs).neg).abs ((vmul (tolFactor m) t).scale shift))

end Sys2Proof.Machine
end

