-- ==== Sys2Proof/Machine/Tile.lean ====
section
/-! DEFINITION. Tiles as bytes (R167 to R169): the header of Table 6.2, the payload with packed elements and block
scales (R168), and tiles built from strided arrays (R216, R248). -/

namespace Sys2Proof.Machine

/-! ## Header fields (Table 6.2) -/

def tFmt (t : List Byte) : Nat := byteAt t 0
def tFlags (t : List Byte) : Nat := byteAt t 1
def tEmpty (t : List Byte) : Bool := bit (tFlags t) 0
def tRows (t : List Byte) : Nat := fieldAt t 2 2
def tCols (t : List Byte) : Nat := fieldAt t 4 2
def tVrows (t : List Byte) : Nat := fieldAt t 6 2
def tVcols (t : List Byte) : Nat := fieldAt t 8 2
def tScale (t : List Byte) : Int := signed 8 (byteAt t 10)
def tWorld (t : List Byte) : World := World.ofBit (bit (byteAt t 11) 0)
def tSeq (t : List Byte) : Nat := fieldAt t 12 4
def tWepoch (t : List Byte) : Nat := fieldAt t 16 4
def tHcrc (t : List Byte) : Nat := fieldAt t 56 4

/-- The header check holds: CRC-32C over bytes 0–55. -/
def tCrcOk (t : List Byte) : Bool := tHcrc t == crc32c (t.take 56)

/-- What the sender of a tile fills in (R248). -/
structure TileHdr where
  fmt : Nat
  flags : Nat
  rows : Nat
  cols : Nat
  vrows : Nat
  vcols : Nat
  scale : Nat
  world : World
  seq : Nat
  wepoch : Nat
  tensor : Nat
  step : Nat
  row0 : Nat
  col0 : Nat
  stream : Nat
  sect : Nat
  deriving DecidableEq, Repr

/-- The 64 header bytes with their check. -/
def TileHdr.bytes (h : TileHdr) : List Byte :=
  let b := leBytes 1 h.fmt ++ leBytes 1 h.flags ++ leBytes 2 h.rows ++ leBytes 2 h.cols ++ leBytes 2 h.vrows
    ++ leBytes 2 h.vcols ++ leBytes 1 h.scale ++ leBytes 1 h.world.bit ++ leBytes 4 h.seq ++ leBytes 4 h.wepoch
    ++ leBytes 4 h.tensor ++ leBytes 4 h.step ++ leBytes 4 h.row0 ++ leBytes 4 h.col0 ++ leBytes 2 h.stream
    ++ leBytes 2 h.sect ++ List.replicate 16 0
  b ++ leBytes 4 (crc32c b) ++ List.replicate 4 0

/-! ## Payload (R168) -/

/-- Bytes of `n` packed elements of a format, rounded up. -/
def packedBytes (fmt n : Nat) : Nat := ceilDiv (n * fmtBits fmt) 8

/-- Element codes packed with the lowest index in the lowest bits (R216), in `n` bytes. -/
def packCodes (fmt n : Nat) (cs : List Nat) : List Byte :=
  leBytes n (cs.zipIdx.foldl (fun a p => a + p.1 * 2 ^ (fmtBits fmt * p.2)) 0)

/-- The code of element `k` of a packed byte list. -/
def unpackCode (fmt k : Nat) (bs : List Byte) : Nat :=
  let w := fmtBits fmt
  let o := k * w / 8
  fieldAt bs o (w / 8 + 2) / 2 ^ (k * w % 8) % 2 ^ w

/-- The payload length of a shape: elements, and block scales of the MX formats. -/
def elemBytes (fmt rows cols : Nat) : Nat := rows * packedBytes fmt cols
def scaleBytes (fmt : Nat) (mxcol : Bool) (rows cols : Nat) : Nat :=
  if !fmtMx fmt then 0 else if mxcol then rows / 32 * cols else rows * (cols / 32)

/-- The bytes of a whole tile of a shape (R578). -/
def tileBytes (fmt : Nat) (mxcol : Bool) (rows cols : Nat) : Nat :=
  roundUp (64 + elemBytes fmt rows cols + scaleBytes fmt mxcol rows cols) 64

/-- Element `(r, c)` of a tile. -/
def tCode (t : List Byte) (r c : Nat) : Nat :=
  unpackCode (tFmt t) c ((t.drop (64 + r * packedBytes (tFmt t) (tCols t))).take (packedBytes (tFmt t) (tCols t)))

/-- Block scale at index `i` of a tile's scale area. -/
def tScaleCode (t : List Byte) (i : Nat) : Nat := byteAt t (64 + elemBytes (tFmt t) (tRows t) (tCols t) + i)

/-- The decoded value of element `(r, c)` of a tile whose blocks run along its rows (R79, R141). -/
def tVal (t : List Byte) (r c : Nat) : Val :=
  elemVal (tFmt t) (tCode t r c) (tScaleCode t (r * (tCols t / 32) + c / 32)) (tScale t)

/-! ## Strided arrays (R216, R247) -/

/-- The code of element `(r, c)` of a strided array in memory. -/
def State.stridedCode (s : State) (fmt a ld r c : Nat) : Nat :=
  let w := fmtBits fmt
  s.load (a + r * ld + c * w / 8) (w / 8 + 1) / 2 ^ (c * w % 8) % 2 ^ w

/-- Block scale `b` of row `r` of an array of `k` valid columns, blocks along rows. -/
def State.stridedScaleRow (s : State) (fmt a ld k r b : Nat) : Nat :=
  s.load (a + r * ld + 32 * ceilDiv k 32 * fmtBits fmt / 8 + b) 1

/-- Block scale of group `g` in column `c` of an array of `k` valid rows, blocks down columns. -/
def State.stridedScaleCol (s : State) (a ld k g c : Nat) : Nat := s.load (a + (32 * ceilDiv k 32 + g) * ld + c) 1

/-- The payload bytes of a tile read from a strided array: valid elements and their scales, every other byte 0. -/
def State.stridedPayload (s : State) (fmt : Nat) (mxcol : Bool) (rows cols vrows vcols a ld : Nat) : List Byte :=
  let row := fun r =>
    if r < vrows then packCodes fmt (packedBytes fmt cols) ((List.range vcols).map (s.stridedCode fmt a ld r))
    else List.replicate (packedBytes fmt cols) 0
  let sc := if !fmtMx fmt then []
    else if mxcol then
      (List.range (rows / 32)).flatMap (fun g => (List.range cols).map (fun c =>
        if g < ceilDiv vrows 32 ∧ c < vcols then BitVec.ofNat 8 (s.stridedScaleCol a ld vrows g c) else 0))
    else
      (List.range rows).flatMap (fun r => (List.range (cols / 32)).map (fun b =>
        if r < vrows ∧ b < ceilDiv vcols 32 then BitVec.ofNat 8 (s.stridedScaleRow fmt a ld vcols r b) else 0))
  (List.range rows).flatMap row ++ sc

/-- The bytes that a strided array of a shape spans from its address, scales included (R249). -/
def stridedSpan (fmt : Nat) (mxcol : Bool) (rows cols ld : Nat) : Nat :=
  if rows = 0 ∨ cols = 0 then 0
  else
    let rowB := packedBytes fmt cols
    if !fmtMx fmt then (rows - 1) * ld + rowB
    else if mxcol then (roundUp rows 32 + ceilDiv rows 32 - 1) * ld + Nat.max rowB cols
    else (rows - 1) * ld + 32 * ceilDiv cols 32 * fmtBits fmt / 8 + ceilDiv cols 32

/-- Bits `[h:l]` of the byte list's number replaced: an element written into a strided row. -/
def State.storeCode (s : State) (fmt a ld r c v : Nat) : State :=
  let w := fmtBits fmt
  let ad := a + r * ld + c * w / 8
  let n := ceilDiv (c * w % 8 + w) 8
  let old := s.load ad n
  let sh := 2 ^ (c * w % 8)
  s.store ad n (old / (sh * 2 ^ w) * (sh * 2 ^ w) + v * sh + old % sh)

/-- A tile's valid elements and their scales written as a strided array, rows ascending (R249). -/
def State.storeStrided (s : State) (t : List Byte) (mxcol : Bool) (a ld : Nat) : State :=
  let fmt := tFmt t
  let vr := tVrows t
  let vc := tVcols t
  let s := forN vr (fun r s =>
    let s := if 8 ≤ fmtBits fmt then
        s.setBytes (a + r * ld) ((List.range vc).flatMap (fun c => leBytes (fmtBits fmt / 8) (tCode t r c)))
      else forN vc (fun c s => s.storeCode fmt a ld r c (tCode t r c)) s
    if fmtMx fmt && !mxcol then
      s.setBytes (a + r * ld + 32 * ceilDiv vc 32 * fmtBits fmt / 8)
        ((List.range (ceilDiv vc 32)).map (fun b => BitVec.ofNat 8 (tScaleCode t (r * (tCols t / 32) + b))))
    else s) s
  if fmtMx fmt && mxcol then
    forN (ceilDiv vr 32) (fun g s =>
      s.setBytes (a + (32 * ceilDiv vr 32 + g) * ld)
        ((List.range vc).map (fun c => BitVec.ofNat 8 (tScaleCode t (g * tCols t + c))))) s
  else s

/-! ## Shape checks -/

/-- The formats that carry a scale exponent (R141). -/
def fmtPerTensor (fmt : Nat) : Bool := fmt == 0 || fmt == 1 || fmt == 2 || fmt == 3 || fmt == 0xB

/-- A valid extent, EMPTY or SCALE breaks R169 or step 4 of R171. -/
def tileShapeBad (t : List Byte) (fmt rows cols : Nat) : Bool :=
  tFmt t != fmt || tRows t != rows || tCols t != cols || decide (tRows t < tVrows t) || decide (tCols t < tVcols t)
    || (tEmpty t && (tVrows t != 0 || tVcols t != 0)) || (!tEmpty t && (tVrows t == 0 || tVcols t == 0))
    || (!fmtPerTensor (tFmt t) && byteAt t 10 != 0)

end Sys2Proof.Machine
end

