-- ==== Sys2Proof/Machine/Stages.lean ====
section
/-! DEFINITION. The stages of a drain chain (R112 to R126, R573, R574): what each stage makes of a row, the checks of a
chain, quantising, the tally and the row statistics. -/

namespace Sys2Proof.Machine

/-! ## The chain descriptor (R231, Table 7.7) -/

def Chain.nstg (c : Chain) : Nat := byteAt c.desc 0
def Chain.ofmt (c : Chain) : Nat := byteAt c.desc 1
def Chain.oport (c : Chain) : Nat := byteAt c.desc 2
def Chain.side (c : Chain) (i : Nat) : Nat := byteAt c.desc (3 + i)
def Chain.statsPort (c : Chain) : Nat := byteAt c.desc 5
def Chain.nt (c : Chain) : Nat := fieldAt c.desc 6 2
def Chain.tensor (c : Chain) : Nat := fieldAt c.desc 8 4
def Chain.ncols (c : Chain) : Nat := fieldAt c.desc 12 4

/-- Stage record `i` of a descriptor. -/
def stageRec (desc : List Byte) (i : Nat) : List Byte := (desc.drop (16 + 16 * i)).take 16

/-- The type code of a stage record. -/
def stageCode (r : List Byte) : Nat := byteAt r 0

/-- The stage records of a descriptor that names `n`. -/
def stageRecs (desc : List Byte) (n : Nat) : List (List Byte) := (List.range n).map (stageRec desc)

def Chain.stages (c : Chain) : List (List Byte) := stageRecs c.desc c.nstg

/-- Tables that the stages name: T0 first, then T1. -/
def tablesNamed (rs : List (List Byte)) : List Nat :=
  (if rs.any (fun r => stageCode r == 4 && byteAt r 4 == 0) then [0] else [])
    ++ (if rs.any (fun r => stageCode r == 4 && byteAt r 4 == 1) then [1] else [])

/-- Where the tables start in the descriptor. -/
def tablesOff (n : Nat) : Nat := roundUp (16 + 16 * n) 64

/-- The whole length of a descriptor: header, stages, tables and seeds. -/
def chainLen (rs : List (List Byte)) : Nat :=
  let t := (tablesNamed rs).length
  let d := (rs.filter (fun r => stageCode r == 6)).length
  if t = 0 ∧ d = 0 then 16 + 16 * rs.length else tablesOff rs.length + 8192 * t + 16 * d

/-- The entry codes of table `i` of a descriptor. -/
def tableOf (desc : List Byte) (rs : List (List Byte)) (i : Nat) : List Nat :=
  let o := tablesOff rs.length + 8192 * posOf i (tablesNamed rs)
  (List.range 2048).map (fun k => fieldAt desc (o + 4 * k) 4)

/-- The seed of the `k`-th dropout stage. -/
def Chain.seed (c : Chain) (k : Nat) : List Byte :=
  (c.desc.drop (tablesOff c.nstg + 8192 * (tablesNamed c.stages).length + 16 * k)).take 16

/-- The quantise stage of a chain, if it has one. -/
def Chain.quant (c : Chain) : Option (List Byte) :=
  firstWhere (fun r => stageCode r == 8 || stageCode r == 9) c.stages

/-- The chain holds a stage of a type. -/
def Chain.has (c : Chain) (code : Nat) : Bool := c.stages.any (fun r => stageCode r == code)

/-! ## Checks of a chain (R113, R140, R573) -/

/-- Reserved operand bytes of a stage type must be 0 (R573). -/
def reservedBytes (code : Nat) : List Nat :=
  [1, 2, 3] ++
  (match code with
   | 1 => [5, 6, 7, 14, 15]
   | 3 => [5, 6, 7, 12, 13, 14, 15]
   | 4 => [6, 7]
   | 5 => upFrom 5 11
   | 6 => [6, 7, 12, 13, 14, 15]
   | 7 => [4, 5, 6, 7]
   | 8 => upFrom 8 8
   | 9 => upFrom 5 11
   | 0xA => upFrom 5 11
   | 0xB => upFrom 5 11
   | _ => [])

/-- What the checks of a chain need besides its bytes. -/
structure ChainCtx where
  side : Nat → Nat
  stats : Nat
  /-- The output stream has MXCOL 1. -/
  outMxcol : Bool
  /-- NENT of the scale table bound to the core, if one is. -/
  nent : Option Nat

/-- CODE 7: an operand outside its table (R573). -/
def stageOperandBad (r : List Byte) : Bool :=
  let b := byteAt r
  (reservedBytes (b 0)).any (fun i => b i != 0) ||
  (match b 0 with
   | 2 => decide (2 < b 4) || (b 4 == 0 && fieldAt r 6 6 != 0) || (b 4 == 1 && fieldAt r 12 4 != 0)
          || (b 4 == 2 && fieldAt r 12 4 == 0)
   | 3 => decide (2 < b 4) || (b 4 == 0 && fieldAt r 8 4 != 0)
   | 4 => decide (1 < b 4) || decide (15 < b 5)
   | 5 => decide (1 < b 4)
   | 8 => decide (3 < b 5)
   | 0xA => decide (1 < b 4)
   | 0xB => decide (3 < b 4)
   | _ => false)

/-- CODE 5: a format, a port or a scale source that does not fit (R140, R231, R573). -/
def stageFormatBad (x : ChainCtx) (r : List Byte) : Bool :=
  let b := byteAt r
  let vec := fun f => f != 0x0 && f != 0xB
  match b 0 with
  | 1 => vec (b 4)
  | 2 => if b 4 = 0 then b 5 != 0 else vec (b 5)
  | 5 => x.side (b 4) == 0xFF
  | 8 => (b 4 != 2 && b 4 != 3) || b 5 == 3 || (b 5 == 0 && (match x.nent with
         | none => true
         | some n => decide (n ≤ fieldAt r 6 2)))
  | 9 => !((decide (4 ≤ b 4) && decide (b 4 ≤ 8)) || b 4 == 0xA) || x.outMxcol
  | 0xB => x.stats == 0xFF
  | _ => false

/-- The first failing condition of stage `r` after the stages `before`, by CODE of Table 4.5. -/
def stageFault (x : ChainCtx) (before : List (List Byte)) (r : List Byte) : Option Nat :=
  let c := stageCode r
  let cnt := fun k => (before.filter (fun q => stageCode q == k)).length
  if before.any (fun q => stageCode q == 8 || stageCode q == 9) && c != 0xA then some 2
  else if (c == 0xA && decide (1 ≤ cnt 0xA)) || (c == 4 && decide (2 ≤ cnt 4)) || (c == 0xB && decide (1 ≤ cnt 0xB))
    || (c == 5 && before.any (fun q => stageCode q == 5 && byteAt q 4 == byteAt r 4)) then some 3
  else if c = 0 ∨ 0xB < c then some 4
  else if stageOperandBad r then some 7
  else if stageFormatBad x r then some 5
  else if c = 7 ∧ vlt (f32 (fieldAt r 12 4)) (f32 (fieldAt r 8 4)) then some 6
  else none

/-- The first failing stage of a chain and its CODE (R113). -/
def stagesFault (x : ChainCtx) : List (List Byte) → List (List Byte) → Option (Nat × Nat)
  | _, [] => none
  | before, r :: rs =>
    match stageFault x before r with
    | some c => some (before.length, c)
    | none => stagesFault x (before ++ [r]) rs

/-- The header's output format fits the chain's quantise stage, or is FP32, BF16 or FP16 without one (R113). -/
def ofmtFits (ofmt : Nat) (rs : List (List Byte)) : Bool :=
  match firstWhere (fun r => stageCode r == 8 || stageCode r == 9) rs with
  | some r => ofmt == byteAt r 4
  | none => ofmt == 0xB || ofmt == 0 || ofmt == 1

/-- The chain check of R113: the failing STAGE and CODE. Log entry 127 (DEDUCED). -/
def chainFault (x : ChainCtx) (nstg ofmt : Nat) (rs : List (List Byte)) : Option (Nat × Nat) :=
  if 12 < nstg then some (12, 1)
  else
    match stagesFault x [] rs with
    | some f => some f
    | none => if ofmtFits ofmt rs then none else some (0xF, 5)

/-! ## Stage arithmetic (R115 to R123) -/

/-- The canonical FP32 result of an operation. -/
def c32 (v : Val) : Val := rn32 v

/-- An FP32 or BF16 vector element in memory, widened. -/
def State.vecElem (s : State) (fmt a j : Nat) : Val :=
  if fmt = 0 then decodeIeee bf16 true (s.load (a + 2 * j) 2) else f32 (s.load (a + 4 * j) 4)

/-- Exact activations (R117). -/
def actStage (kind : Nat) (p x : Val) : Val :=
  if x.isNan then .nan
  else if kind = 2 then (if vle x vzero then vzero else if vlt p x then p else x)
  else if vlt vzero x then x else if kind = 1 then rn32 (vmul p x) else vzero

/-- ⌊v⌋ of a value from 0 to 2,047. -/
def floorNat (v : Val) : Nat :=
  match v with
  | .fin false m e => if 0 ≤ e then m * 2 ^ e.toNat else m / 2 ^ (-e).toNat
  | _ => 0

/-- The end modes of a table activation (R118). -/
def tableEnd (mode edge : Nat) (x : Val) : Val := if mode = 1 then x else if mode = 2 then vzero else f32 edge

/-- A table activation (R118). -/
def tableStage (tab : List Nat) (modes : Nat) (x0 rstep x : Val) : Val :=
  let t := rn32 (vmul (rn32 (vadd x x0.neg)) rstep)
  if t.isNan then .nan
  else if vlt t vzero then tableEnd (bits modes 1 0) (tab.getD 0 0) x
  else if vlt (ofInt 2047 0) t then tableEnd (bits modes 3 2) (tab.getD 2047 0) x
  else
    let i := Nat.min (floorNat t) 2046
    let d := vadd t (ofInt (-(i : Int)) 0)
    let a := f32 (tab.getD i 0)
    let b := f32 (tab.getD (i + 1) 0)
    rn32 (vadd a (rn32 (vmul d (rn32 (vadd b a.neg)))))

/-- The dropout draw of element `idx` (R120): 16 bits. -/
def dropDraw (seed : List Byte) (step tensor idx : Nat) : Nat :=
  let blk := beBytes 4 step ++ beBytes 4 tensor ++ beBytes 8 (idx / 8)
  beNat (((sm4Enc seed blk).drop (2 * (idx % 8))).take 2)

/-- Dropout of one element. -/
def dropStage (seed : List Byte) (step tensor idx p : Nat) (keep x : Val) : Val :=
  if dropDraw seed step tensor idx < p then vzero else rn32 (vmul x keep)

/-- Clamp (R121). -/
def clampStage (lo hi x : Val) : Val := if x.isNan then x else if vlt x lo then lo else if vlt hi x then hi else x

/-! ## Quantising -/

/-- |x|·2^-E overflows the FP8 format (R142, Table 5.2): it rounds above the largest finite magnitude. -/
def overflows8 (fmt : Nat) (x : Val) (e : Int) : Bool := x.isFin && (rnd (fmtF fmt) .nearest (x.scale (-e))).isInf

/-- Per-tensor quantise of one element (R122): its code, and whether it saturated. -/
def quantElem (fmt : Nat) (e : Int) (x : Val) : Nat × Bool :=
  match x with
  | .fin sg _ _ =>
    let r := rnd (fmtF fmt) .nearest (x.scale (-e))
    if r.isInf then (encodeElem fmt (.fin sg (fmtF fmt).maxM (fmtF fmt).maxE), true) else (encodeElem fmt r, false)
  | v => (encodeElem fmt v, false)

/-- The largest exponent of an MX element format under OCP Microscaling v1.0; 0 for MXINT8 (R123). -/
def mxEmax (fmt : Nat) : Int :=
  match fmt with
  | 4 => 8
  | 5 => 15
  | 6 => 4
  | 7 => 2
  | 8 => 2
  | _ => 0

/-- ⌊log₂ v⌋ of a positive finite value. -/
def floorLog2 (v : Val) : Int :=
  match v with
  | .fin _ m e => e + (Nat.log2 m : Nat)
  | _ => 0

/-- The scale code of a block (R123, steps 1 to 4). -/
def mxScale (fmt : Nat) (xs : List Val) : Nat :=
  if xs.any (fun v => !v.isFin) then 0xFF
  else
    let m := (xs.map Val.abs).foldl vmax vzero
    if m.isZero then 0x7F else (max 0 (min 254 (floorLog2 m - mxEmax fmt + 127))).toNat

/-- An MXINT8 element code: ⌊x·64⌉ to nearest-even, limited to −128…127. -/
def mxInt8 (x : Val) : Nat × Bool :=
  match x with
  | .fin sg m e =>
    let k := e + 6
    let r : Nat := if 0 ≤ k then m * 2 ^ k.toNat else roundShift .nearest sg m (-k).toNat
    let i : Int := if sg then -(r : Int) else r
    if 127 < i then (0x7F, true) else if i < -128 then (0x80, true) else (encInt 8 i, false)
  | _ => (0, false)

/-- One element at a block scale (R123, steps 5 and 6): its code, and whether it saturated. -/
def mxElem (fmt sc : Nat) (x : Val) : Nat × Bool :=
  if sc = 0xFF then (0, false)
  else
    let y := x.scale (127 - (sc : Int))
    if fmt = 0xA then mxInt8 y
    else
      let f := fmtF fmt
      match rnd f .nearest y with
      | .inf sg => (encodeFin f sg f.maxM f.maxE, true)
      | .fin sg m e => (encodeFin f sg m e, false)
      | .nan => (0, false)

/-- Per-block quantise of a row of `cols` columns: element codes, scale codes, saturations (R123). -/
def mxRow (fmt cols : Nat) (xs : List Val) : List Nat × List Nat × Nat :=
  let blks := (List.range (cols / 32)).map (fun b => (xs.drop (32 * b)).take 32)
  let scs := blks.map (mxScale fmt)
  let es := (blks.zip scs).map (fun p => p.1.map (mxElem fmt p.2))
  (es.flatMap (fun b => (b.map (·.1)) ++ List.replicate (32 - b.length) 0), scs,
   ((es.flatten).filter (·.2)).length)

/-! ## Tally (R124, R131, R132) -/

/-- The FP32 code order of magnitudes: the larger of two codes. -/
def maxCode (a b : Nat) : Nat := if a < b then b else a

/-- A tile's counts with observed values added: each with whether it was infinite before quantisation.
Log entry 126 (DEDUCED). -/
def tallyRow (t : Tally) (xs : List (Val × Bool)) : Tally :=
  xs.foldl (fun t p =>
    let v := p.1
    let t := { t with nvalid := t.nvalid + 1 }
    if p.2 || v.isInf then { t with inf := t.inf + 1 }
    else if v.isNan then { t with nan := t.nan + 1 }
    else
      let t := if v.isZero then { t with zero := t.zero + 1 } else t
      { t with amax := maxCode t.amax (f32c (rn32 v.abs)) }) t

/-- The exact square of a finite value in units of 2^-298. -/
def sqUnits (v : Val) : Nat :=
  match v with
  | .fin _ m e => m * m * 2 ^ (2 * e + 298).toNat
  | _ => 0

/-- Exact sum of squares of the finite observed values. -/
def sqRow (xs : List (Val × Bool)) : Nat :=
  xs.foldl (fun a p => if p.2 then a else a + sqUnits p.1) 0

/-! ## Row statistics (R125, R126) -/

/-- FP32 quotient of exact values, rounded once. -/
def div32 (a b : Val) : Val := fdivF fp32 .nearest a b

def nat32 (n : Nat) : Val := ofInt n 0

/-- Statistics of one 32-column group. -/
def groupStat (ms : Bool) (xs : List Val) : RowStat :=
  if xs.any (fun v => !v.isFin) && ms then { n := xs.length, bad := true }
  else if ms then
    let mean := div32 (vsum xs) (nat32 xs.length)
    let m2 := rn32 (vsum (xs.map (fun x => let d := vadd x mean.neg; vmul d d)))
    { n := xs.length, a := f32c mean, b := f32c m2 }
  else { n := xs.length, a := f32c (rn32 (vsum (xs.map (fun x => vmul x x)))) }

/-- Combine two statistics (R125). -/
def combineStat (ms : Bool) (x y : RowStat) : RowStat :=
  if x.n = 0 then y
  else if y.n = 0 then x
  else
    let n := x.n + y.n
    if !ms then { n := n, a := f32c (rn32 (vadd (f32 x.a) (f32 y.a))) }
    else if x.bad || y.bad then { n := n, bad := true }
    else
      let delta := rn32 (vadd (f32 y.a) (f32 x.a).neg)
      let mean := rn32 (vadd (f32 x.a) (rn32 (vmul delta (div32 (nat32 y.n) (nat32 n)))))
      let m2 := rn32 (vadd (rn32 (vadd (f32 x.b) (f32 y.b)))
        (rn32 (vmul (rn32 (vmul delta delta)) (div32 (nat32 (x.n * y.n)) (nat32 n)))))
      { n := n, a := f32c mean, b := f32c m2 }

/-- One level of the pairing of Table 3.3. -/
def pairStats (ms : Bool) : List RowStat → List RowStat
  | a :: b :: rest => combineStat ms a b :: pairStats ms rest
  | rest => rest

/-- The statistics of a tile's row. -/
def rowStat (ms : Bool) (xs : List Val) : RowStat :=
  let g0 := (groups32 xs).map (groupStat ms)
  (pairStats ms (pairStats ms (pairStats ms (pairStats ms g0)))).headD {}

/-- The two outputs of a finished row: mean and variance, or sum of squares and count (R125). -/
def statOut (ms nm1 : Bool) (r : RowStat) : Nat × Nat :=
  if ms then
    if r.bad then (0x7FC00000, 0x7FC00000)
    else
      let d := if nm1 then r.n - 1 else r.n
      (r.a, if d = 0 then 0x7FC00000 else f32c (div32 (f32 r.b) (nat32 d)))
  else (r.a, f32c (rn32 (nat32 r.n)))

/-! ## A row through the chain -/

/-- What a row needs besides its values. -/
structure RowCtx where
  step : Nat
  /-- The tensor row and the tile's first tensor column. -/
  row : Nat
  col0 : Nat
  /-- The row within the tile, the tile's shape columns, and the exponent of a per-tensor stage. -/
  r : Nat
  cols : Nat
  e : Int
  /-- Saturate instead of marking overflow (R149). -/
  saturate : Bool
  sides : List (Nat × List Byte)

/-- A row on its way through the stages. -/
structure RowSt where
  xs : List Val
  /-- Dropout stages passed. -/
  drops : Nat := 0
  /-- After a quantise stage: codes, block scales, saturations, and which elements were infinite before it. -/
  quant : Option (List Nat × List Nat × Nat × List Bool) := none
  /-- What a tally stage observed. -/
  seen : Option (List (Val × Bool)) := none
  sumsq : Bool := false
  raw : Nat := 0
  overE : Bool := false
  stat : Option RowStat := none
  deriving DecidableEq, Repr

/-- The value of a bias or scale vector for a tensor index: NaN at or above the vector's length (R573). -/
def State.stageVec (s : State) (fmt a len j : Nat) : Val := if len ≤ j then .nan else s.vecElem fmt a j

/-- The values observed by a tally at this place. -/
def RowSt.observe (x : RowSt) : List (Val × Bool) :=
  match x.quant with
  | none => x.xs.map (fun v => (v, false))
  | some q => x.xs.zip q.2.2.2

/-- One stage (R116 to R125). -/
def State.stage (s : State) (c : Chain) (cx : RowCtx) (x : RowSt) (r : List Byte) : RowSt :=
  let at' := fun (f : Nat → Val → Val) => { x with xs := x.xs.zipIdx.map (fun p => f p.2 p.1) }
  match stageCode r with
  | 1 => at' (fun j v => rn32 (vadd v (s.stageVec (byteAt r 4) (fieldAt r 8 6) c.ncols (cx.col0 + j))))
  | 2 =>
    match byteAt r 4 with
    | 0 => at' (fun _ v => rn32 (vmul v (f32 (fieldAt r 12 4))))
    | 1 => at' (fun j v => rn32 (vmul v (s.stageVec (byteAt r 5) (fieldAt r 6 6) c.ncols (cx.col0 + j))))
    | _ => at' (fun _ v => rn32 (vmul v (s.stageVec (byteAt r 5) (fieldAt r 6 6) (fieldAt r 12 4) cx.row)))
  | 3 => at' (fun _ v => actStage (byteAt r 4) (f32 (fieldAt r 8 4)) v)
  | 4 => at' (fun _ v => tableStage (c.tables.getD (byteAt r 4) []) (byteAt r 5) (f32 (fieldAt r 8 4)) (f32 (fieldAt r 12 4)) v)
  | 5 =>
    match firstWhere (fun (p : Nat × List Byte) => p.1 == byteAt r 4) cx.sides with
    | some p => at' (fun j v => rn32 (vadd v (tVal p.2 cx.r j)))
    | none => x
  | 6 => { at' (fun j v => dropStage (c.seed x.drops) cx.step c.tensor (cx.row * c.ncols + cx.col0 + j) (fieldAt r 4 2)
             (f32 (fieldAt r 8 4)) v) with drops := x.drops + 1 }
  | 7 => at' (fun _ v => clampStage (f32 (fieldAt r 8 4)) (f32 (fieldAt r 12 4)) v)
  | 8 =>
    let f := byteAt r 4
    let q := x.xs.map (quantElem f cx.e)
    let codes := q.map (·.1)
    { x with
      xs := codes.map (fun k => (decodeElem f k).scale cx.e)
      quant := some (codes, [], (q.filter (·.2)).length, x.xs.map Val.isInf)
      raw := (x.xs.filter Val.isFin).foldl (fun a v => maxCode a (f32c v.abs)) 0
      overE := x.xs.any (fun v => overflows8 f v cx.e) }
  | 9 =>
    let f := byteAt r 4
    let q := mxRow f cx.cols x.xs
    { x with
      xs := (List.range x.xs.length).map (fun j => elemVal f (q.1.getD j 0) (q.2.1.getD (j / 32) 127) 0)
      quant := some (q.1, q.2.1, q.2.2, x.xs.map Val.isInf) }
  | 0xA => { x with seen := some x.observe, sumsq := bit (byteAt r 4) 0 }
  | 0xB => { x with stat := some (rowStat (!bit (byteAt r 4) 0) x.xs) }
  | _ => x

/-- A row of FP32 values through every stage. -/
def State.chainRow (s : State) (c : Chain) (cx : RowCtx) (xs : List Val) : RowSt :=
  c.stages.foldl (fun x r => s.stage c cx x r) { xs := xs }

/-- The output conversion of a chain without a quantise stage (R574): the code and its value. -/
def outConvert (ofmt : Nat) (v : Val) : Nat × Val :=
  if ofmt = 0xB then (f32c v, v)
  else
    let w := rnd (fmtF ofmt) .nearest v
    (encodeElem ofmt w, w)

/-- Codes and scales that the row leaves in the drain buffer, and what the tally observes. -/
def rowFinish (c : Chain) (x : RowSt) : List Nat × List Nat × List (Val × Bool) :=
  match x.quant with
  | some q => (q.1, q.2.1, x.seen.getD x.observe)
  | none =>
    let o := x.xs.map (outConvert c.ofmt)
    (o.map (·.1), [], x.seen.getD (o.map (fun p => (p.2, false))))

end Sys2Proof.Machine
end

