-- ==== Sys2Proof/Machine/Station.lean ====
section
/-! DEFINITION. Cores, stations and streams (chapter 6): the units by number, ports, credits, what a fault of a
station or stream does, address checks of instructions (R247), and how an instruction is taken, counted and completed
(R165, R166, R178, R209, R211). -/

namespace Sys2Proof.Machine

/-! ## Units by number -/

def State.core (s : State) (n : Nat) : CoreSt := s.cores.get n {}
def State.setCore (s : State) (n : Nat) (c : CoreSt) : State := { s with cores := s.cores.set n {} c }
def State.eng (s : State) (e : Nat) : EngineSt := s.engines.get e {}
def State.setEng (s : State) (e : Nat) (x : EngineSt) : State := { s with engines := s.engines.set e {} x }
def State.dr (s : State) (e : Nat) : DrainSt := s.drains.get e {}
def State.setDr (s : State) (e : Nat) (x : DrainSt) : State := { s with drains := s.drains.set e {} x }

/-- The station on a slot of a core. -/
def State.stn? (s : State) (n sl : Nat) : Option StnSt := (s.core n).stns.getD sl none

/-- The station on a slot changed, where there is one. -/
def State.onStn (s : State) (n sl : Nat) (f : StnSt → StnSt) : State :=
  match s.stn? n sl with
  | some x => s.setCore n { s.core n with stns := setAt (s.core n).stns sl (some (f x)) }
  | none => s

/-- Every pitched station with its core and slot. -/
def State.allStns (s : State) : List (Nat × Nat × StnSt) :=
  (List.range 16).flatMap (fun n => (List.range 6).filterMap (fun sl => (s.stn? n sl).map (fun x => (n, sl, x))))

/-- Mode and world of the pitched section; identifier and step. -/
def State.sectMode (s : State) : Nat := match s.sect with | some x => x.mode | none => 0
def State.sectWorld (s : State) : World := match s.sect with | some x => x.world | none => .n
/-- Stands for no section: identifiers have 16 bits. -/
def noSect : Nat := 65536
/-- The pitched section's identifier. -/
def State.sectId (s : State) : Nat := match s.sect with | some x => x.id | none => noSect
def State.sectStep (s : State) : Nat := match s.sect with | some x => x.step | none => 0

/-- A station or a queue of the section has moved (R196). -/
def State.moved (s : State) : State :=
  match s.sect with
  | some x => { s with sect := some { x with movedAt := s.now } }
  | none => s

/-- The wake epoch of a core (R496). -/
def State.epochOf (s : State) (n : Nat) : Nat :=
  if n % 2 = 0 then s.fld F.CL_WEP0_EPOCH (n / 2) else s.fld F.CL_WEP1_EPOCH (n / 2)

/-- The wake epoch of a core rises by 1, wrapping. -/
def State.bumpEpoch (s : State) (n : Nat) : State :=
  if n % 2 = 0 then s.bump F.CL_WEP0_EPOCH (n / 2) else s.bump F.CL_WEP1_EPOCH (n / 2)

/-! ## Streams and ports -/

/-- A stream record kept again under its identifier. -/
def State.setStrm (s : State) (x : StreamSt) : State :=
  { s with streams := s.streams.map (fun y => if y.id = x.id then x else y) }

def State.strm? (s : State) (id : Nat) : Option StreamSt := firstWhere (fun x => x.id == id) s.streams

/-- The stream that a station's output port sends on. -/
def State.outStrm (s : State) (n sl p : Nat) : Option StreamSt :=
  firstWhere (fun x => x.src == some (n, sl, p)) s.streams

/-- The stream that a station's input port takes from. -/
def State.inStrm (s : State) (n sl p : Nat) : Option StreamSt :=
  firstWhere (fun x => x.dst == some (n, sl, p) && x.kind != 5) s.streams

/-- The core that consumes a stream. -/
def StreamSt.dstCore (x : StreamSt) : Nat := match x.dst with | some d => d.1 | none => 0

/-- A stream has a receive queue: its consumer is a station. Log entry 131 (DEDUCED). -/
def StreamSt.hasQueue (x : StreamSt) : Bool := x.dst.isSome && x.kind != 2 && x.kind != 4

/-- The stream of a receive queue of a core. -/
def State.queueStrm (s : State) (n q : Nat) : Option StreamSt :=
  firstWhere (fun x => x.hasQueue && x.dstCore == n && x.qnum == q) s.streams

/-- A tile or peg stream that a port may send tiles on: to a station or to the fabric. -/
def StreamSt.sends (x : StreamSt) : Bool := !x.peg && (x.kind == 0 || x.kind == 4 || x.kind == 5)

/-- The stream is fed from memory (R298). -/
def StreamSt.fed (x : StreamSt) : Bool := x.kind == 1 || (x.kind == 5 && x.src.isNone)

/-- Bytes of a whole tile of the stream's shape. -/
def StreamSt.tileLen (x : StreamSt) : Nat := tileBytes x.fmt x.mxcol x.rows x.cols

/-- Bytes of a tile image: header and payload, or the header alone when empty. -/
def imageLen (t : List Byte) (mxcol : Bool) : Nat :=
  if tEmpty t then 64 else 64 + elemBytes (tFmt t) (tRows t) (tCols t) + scaleBytes (tFmt t) mxcol (tRows t) (tCols t)

/-- A count in a list of counts by key. -/
def countOf (xs : List (Nat × Int)) (k : Nat) : Int :=
  match firstWhere (fun (p : Nat × Int) => p.1 == k) xs with
  | some p => p.2
  | none => 0

/-- A count raised. -/
def addCount (k : Nat) (d : Int) : List (Nat × Int) → List (Nat × Int)
  | [] => [(k, d)]
  | p :: ps => if p.1 = k then (k, p.2 + d) :: ps else p :: addCount k d ps

/-- A station's port has moved `d` tiles (R166, R243): outputs count under the port, inputs under 32 + port, weights
under 64 + port. Log entry 147 (DEDUCED). -/
def State.countPort (s : State) (n sl key : Nat) (d : Int) : State :=
  s.onStn n sl (fun x => { x with moved := addCount key d x.moved, total := addCount key d x.total })

/-- A stream protocol fault (R172): logged in CO_PROTO_LOG of the core and raised; the queue accepts no more.
Log entry 153 (DEDUCED). -/
def State.protoFault (s : State) (n q sub sid : Nat) : State :=
  let s := ((s.put F.CO_PROTO_LOG_QUEUE q n).put F.CO_PROTO_LOG_SUBCODE sub n).put F.CO_PROTO_LOG_STREAM sid n
  let s := { s with streams := s.streams.map (fun (x : StreamSt) => if x.id = sid ∧ x.hasQueue = true then { x with closed := true } else x) }
  let s := s.fire 4 (192 + n)
  s.raise 0x32 .sect n n s.sectId [] [n, (s.rd .CO_PROTO_LOG n).toNat]

/-- Credits of a fabric stream granted or withdrawn: a CREDIT packet (R347). -/
def State.sendCredit (s : State) (x : StreamSt) (count : Nat) : State :=
  s.sendPkt { type := 0x0C, world := s.sectWorld, dst := x.peer, opnd := count, aux := x.peerStream, aux2 := x.rxSeq }

/-- A queue slot of a stream is freed: one credit goes back over the guy line, or to the fabric peer (R173,
R347). -/
def State.freeSlot (s : State) (id : Nat) : State :=
  match s.strm? id with
  | none => s
  | some x =>
    match x.kind with
    | 3 => s.sendCredit x 1
    | _ => s.setStrm { x with guy := x.guy + 1 }

/-- The head tile leaves a queue; its slot stays held until it is freed. -/
def State.takeHead (s : State) (id : Nat) : State :=
  match s.strm? id with
  | none => s
  | some x => (s.setStrm { x with queue := x.queue.drop 1, held := x.held + 1, taken := x.taken + 1 }).moved

/-- A slot held by a taken tile is freed. -/
def State.dropHeld (s : State) (id : Nat) : State :=
  match s.strm? id with
  | none => s
  | some x => (s.setStrm { x with held := x.held - 1 }).freeSlot id

/-- The pieces of a tile in TILE packets of up to 512 bytes, header first (R347). -/
def tilePieces (t : List Byte) : List (List Byte) := chunks 512 t

/-- A tile or peg leaves a producer on a stream: a credit is taken, the sequence number rises, and it travels to the
queue or as TILE packets (R173, R347). Log entry 135 (DESIGN CHOICE). -/
def State.pushTile (s : State) (id : Nat) (t : List Byte) : State :=
  match s.strm? id with
  | none => s
  | some x =>
    let s := s.moved
    if x.kind = 4 then
      let s := s.setStrm { x with credits := x.credits - 1, txSeq := x.txSeq + 1 }
      forEach (tilePieces t) (fun b s =>
        s.sendPkt { type := 0x0B, world := s.sectWorld, dst := x.peer, aux := x.peerStream, payload := b }) s
    else s.setStrm { x with credits := x.credits - 1, txSeq := x.txSeq + 1, flight := x.flight ++ [t] }

/-- The header that a station's tile carries: fields of the stream and the section, the rest given (R248, R250). -/
def State.tileHdr (s : State) (n : Nat) (x : StreamSt) (fmt flags vrows vcols scale tensor row0 col0 : Nat) : TileHdr :=
  { fmt := fmt, flags := flags, rows := x.rows, cols := x.cols, vrows := vrows, vcols := vcols, scale := scale,
    world := s.sectWorld, seq := x.txSeq, wepoch := x.wepoch, tensor := tensor,
    step := (s.rd .CO_STEP n).toNat, row0 := row0, col0 := col0, stream := x.id, sect := s.sectId }

/-! ## Instruction words (R203 to R205, Tables 7.5, 7.8, 8.2, 8.8) -/

/-- The opcode and the sub-operation fields of a word. -/
def wOp (w : Nat) : Nat := bits w 127 120
def wSub (w : Nat) : Nat := bits w 79 76

/-- The bit ranges, beside opcode and class, that an opcode's layout names; `none` for an unknown opcode.
Log entry 152 (DEDUCED). -/
def wordFields (op w : Nat) : Option (List (Nat × Nat)) :=
  match op with
  | 0x00 => some []
  | 0x10 => some [(115, 96)]
  | 0x11 => some [(115, 93)]
  | 0x12 => some [(115, 96), (91, 84)]
  | 0x13 => some ([(115, 84), (79, 79), (63, 0)] ++ (if bits w 115 108 = 9 then [(83, 80)] else []))
  | 0x14 => some [(103, 100)]
  | 0x15 => some [(115, 112), (107, 96), (87, 78)]
  | 0x20 => some [(115, 86)]
  | 0x21 => some [(115, 80), (61, 60)]
  | 0x22 => some [(115, 92), (67, 65)]
  | 0x23 => some [(115, 86)]
  | 0x24 => some [(115, 92)]
  | 0x25 => some [(115, 92)]
  | 0x26 => some [(113, 113), (79, 68), (64, 60), (47, 0)]
  | 0x30 => some [(113, 113), (91, 86), (75, 72), (47, 32)]
  | 0x31 => some [(113, 113), (91, 86), (79, 72), (47, 32)]
  | 0x40 => some [(79, 76), (67, 65), (47, 0)]
  | 0x41 => some [(37, 0)]
  | 0x42 => some [(113, 113), (79, 72), (67, 62), (47, 0)]
  | 0x43 => some [(91, 86), (79, 76), (67, 62), (31, 0)]
  | 0x44 => some [(91, 80), (67, 65), (31, 0)]
  | 0x50 => some [(113, 113), (110, 96), (75, 72), (67, 65), (47, 32)]
  | 0x51 => some [(113, 113), (110, 96), (79, 72), (67, 65), (47, 32)]
  | 0x52 => some [(115, 92), (75, 72), (61, 60)]
  | 0x60 => some [(115, 115), (87, 85)]
  | 0x61 => some [(115, 112), (87, 82)]
  | 0x62 => some [(79, 76)]
  | _ => none

/-- The word's bits in a list of ranges, in place. -/
def inRanges (w : Nat) (rs : List (Nat × Nat)) : Nat := rs.foldl (fun a r => a + bits w r.1 r.2 * 2 ^ r.2) 0

/-- VOP operations (Table 7.9), those with one operand and those that read C. -/
def vopKnown (o : Nat) : Bool := (decide (1 ≤ o) && decide (o ≤ 0x0A)) || (decide (0x10 ≤ o) && decide (o ≤ 0x1B))
def vopUnary (o : Nat) : Bool := o == 7 || o == 8 || o == 9 || (decide (0x11 ≤ o) && decide (o ≤ 0x1B))
def vopThree (o : Nat) : Bool := o == 4 || o == 0x0A

/-- A reserved sub-operation code (R205, R234, R235). -/
def subBad (op w : Nat) : Bool :=
  match op with
  | 0x13 =>
    let o := bits w 115 108
    !vopKnown o || bits w 107 106 == 3
      || (o == 9 && !([0, 1, 2, 3, 0xB, 0xC].contains (bits w 83 80)))
      || ((vopUnary o || bit w 84) && bits w 95 92 != 0) || (!vopThree o && bits w 91 88 != 0)
  | 0x15 => decide (3 < bits w 115 112) || bits w 107 106 == 3
  | 0x21 => bits w 61 60 == 3
  | 0x26 => decide (7 < wSub w)
  | 0x31 => decide (1 < wSub w)
  | 0x40 => decide (2 < wSub w)
  | 0x42 => decide (3 < wSub w)
  | 0x43 => decide (1 < wSub w)
  | 0x51 => decide (1 < wSub w)
  | 0x52 => bits w 61 60 == 3
  | 0x61 => decide (3 < bits w 115 112)
  | 0x62 => decide (1 < wSub w)
  | _ => false

/-- The slots that may issue an opcode (Tables 7.1 and 8.1); `w` gives STT's SRC. -/
def slotsOf (op w : Nat) : List Nat :=
  match op with
  | 0x10 | 0x11 | 0x14 | 0x60 => [0, 1]
  | 0x12 => [0]
  | 0x13 | 0x15 | 0x51 | 0x52 => [2]
  | 0x21 => if bits w 61 60 = 2 then [0, 1] else [2, 3, 4, 5]
  | 0x22 | 0x23 | 0x44 => [4, 5]
  | 0x20 | 0x24 | 0x25 | 0x26 | 0x30 | 0x31 | 0x43 | 0x50 => [2, 3, 4, 5]
  | _ => [0, 1, 2, 3, 4, 5]

/-- Checks 1 and 2 of R208: ILLEGAL 1 or SLOT 2. SLD also needs slot 1 unbound. Log entry 152 (DEDUCED). -/
def State.wordFault (s : State) (n sl w : Nat) : Option Nat :=
  let op := wOp w
  match wordFields op w with
  | none => some 1
  | some rs =>
    if bits w 119 116 ≠ op / 16 then some 1
    else if inRanges w ((127, 116) :: rs) ≠ w then some 1
    else if subBad op w then some 1
    else if !(slotsOf op w).contains sl then some 2
    else if op = 0x12 ∧ (s.stn? n 1).isSome then some 2
    else none

/-! ## Registers of a station -/

def StnSt.ad (x : StnSt) (i : Nat) : Nat := x.regs.ad.getD i 0
def StnSt.ct (x : StnSt) (i : Nat) : Nat := x.regs.ct.getD i 0
def StnSt.sc (x : StnSt) (i : Nat) : Int := signed 8 (x.regs.sc.getD i 0)
def StnSt.pd (x : StnSt) (i : Nat) : Nat := x.regs.pd.getD i 0
def StnSt.setAd (x : StnSt) (i v : Nat) : StnSt := { x with regs := { x.regs with ad := setAt x.regs.ad i (v % 2 ^ 64) } }
def StnSt.setCt (x : StnSt) (i v : Nat) : StnSt := { x with regs := { x.regs with ct := setAt x.regs.ct i (v % 2 ^ 32) } }
def StnSt.setPd (x : StnSt) (i v : Nat) : StnSt := { x with regs := { x.regs with pd := setAt x.regs.pd i (v % 2 ^ 64) } }

/-- The instruction word at the context's pc. -/
def StnSt.word (x : StnSt) : Nat := x.prog.getD x.pc 0

/-- The context has run past the end of its program. -/
def StnSt.finished (x : StnSt) : Bool := decide (x.prog.length ≤ x.pc)

/-- The address of the descriptor that a word names (R214, R246). -/
def descAddr (x : StnSt) (w : Nat) : Nat :=
  let ix := bits w 111 96
  let xi := if decide (0x20 ≤ wOp w) && bit w 95 then x.ct (bits w 94 92) else 0
  x.pd (bits w 115 114) + 64 * (ix + xi)

/-! ## Address checks (R214, R216, R247, R578) -/

/-- A range reaches the placed space of the pitched section. -/
def State.inPlaced (s : State) (a len : Nat) : Bool :=
  match s.sect with
  | some x => x.placed.any (fun r => decide (r.1 < a + len) && decide (a < r.2))
  | none => false

/-- A local range lies in the core's own core store or its cluster's cluster store. -/
def State.nearOk (s : State) (n a len : Nat) : Bool :=
  let len := Nat.max len 1
  decide (a < 2 ^ 48) && s.inOne a len && !s.inPlaced a len &&
    (match s.place a with
     | .core m => m == n
     | .cl k => k == coreCluster n
     | _ => false)

/-- A local range lies where R247 allows. -/
def State.localOk (s : State) (n a len : Nat) : Bool :=
  let len := Nat.max len 1
  s.nearOk n a len || (decide (a < 2 ^ 48) && s.inShared a len && !s.inPlaced a len)

/-- The range is of the section's world. -/
def State.worldOk (s : State) (a len : Nat) : Bool := s.rangeWorld a (Nat.max len 1) s.sectWorld

/-- Checks 8 and 9 over a list of ranges: ADDR 3 before WORLD 8. Log entry 151 (DEDUCED). -/
def State.rangesFault (s : State) (ok : Nat → Nat → Bool) (rs : List (Nat × Nat)) : Option Nat :=
  if rs.all (fun r => ok r.1 r.2) then (if rs.all (fun r => s.worldOk r.1 r.2) then none else some 8) else some 3

/-- Aligned to a size. -/
def aligned (a k : Nat) : Bool := a % k == 0

/-! ## The outcome of the checks -/

/-- The first failure of a list of checks, in order: code of Table 7.3. -/
def firstFault : List (Bool × Nat) → Option Nat
  | [] => none
  | (bad, c) :: cs => if bad then some c else firstFault cs

/-- An instruction is refused (R209): its context stops, the fault is recorded unless one is, and INSTR_FAULT is
raised. `aux` is the descriptor or chain-header address. -/
def State.refuse (s : State) (n sl code aux : Nat) : State :=
  match s.stn? n sl with
  | none => s
  | some x =>
    let s := s.onStn n sl (fun x => { x with halted := true })
    let s := s.setCore n { s.core n with lastSlot := sl }
    let s := if s.flag F.CO_IFLT_VALID n then s else
      let s := ((s.put F.CO_IFLT_CODE code n).put F.CO_IFLT_SLOT sl n).put F.CO_IFLT_OPCODE (wOp x.word) n
      let s := (s.put F.CO_IFLT_VALID 1 n).put F.CO_IFLT_PC_PC x.pc n
      (s.put F.CO_IFLT_AUX_ADDR_LO aux n).put F.CO_IFLT_AUXH_ADDR_HI (aux / 2 ^ 32) n
    let s := s.fire 4 (208 + n)
    s.raise 0x33 .sect n n s.sectId [] [n, (s.rd .CO_IFLT n).toNat, (s.rd .CO_IFLT_PC n).toNat]

/-- A movement instruction's access is refused (R254): the context stops, CO_MVLOG records the cause unless it holds
one, and MOVE_FAULT is raised, of step class for UNREACHABLE. -/
def State.moveFault (s : State) (n sl op cause dev : Nat) : State :=
  let s := s.onStn n sl (fun x => { x with halted := true })
  let s := if s.flag F.CO_MVLOG_VALID n then s else
    let s := ((s.put F.CO_MVLOG_CAUSE cause n).put F.CO_MVLOG_SLOT sl n).put F.CO_MVLOG_OPCODE op n
    (s.put F.CO_MVLOG_VALID 1 n).put F.CO_MVLOG_DEV_DEVICE dev n
  let s := s.fire 4 (224 + n)
  s.raise 0x34 (if cause = 4 then .step else .sect) n n s.sectId [] [n, (s.rd .CO_MVLOG n).toNat, dev]

/-- A shard-epoch mismatch (R257, R260, R261): the context stops, CO_MVLOG holds cause EPOCH, the owner and its E, and
SHARD_EPOCH is raised. -/
def State.shardEpoch (s : State) (n sl op dev e : Nat) : State :=
  let s := s.onStn n sl (fun x => { x with halted := true })
  let s := if s.flag F.CO_MVLOG_VALID n then s else
    let s := ((s.put F.CO_MVLOG_CAUSE 5 n).put F.CO_MVLOG_SLOT sl n).put F.CO_MVLOG_OPCODE op n
    ((s.put F.CO_MVLOG_VALID 1 n).put F.CO_MVLOG_DEV_DEVICE dev n).put F.CO_MVLOG_EP_EPOCH e n
  let s := (s.bumpSat F.CMD_SHEP_COUNT).fire 4 (240 + n)
  s.raise 0x36 .step n n s.sectId [] [n, dev, e]

/-! ## Completion (R211) -/

/-- The opcodes that make a cut unsafe once they have completed (R191). -/
def opUnsafe (op : Nat) : Bool := op == 0x26 || op == 0x50 || op == 0x51 || op == 0x52

/-- Instructions at the front of the outstanding list that are complete. -/
def doneRun : List Issued → Nat
  | [] => 0
  | x :: xs => if x.done then doneRun xs + 1 else 0

/-- The drain of a round boundary: what the round's instructions set (chains, cursor) as it stood when the last of them
issued, and tallies, statistics and the chain in force as they stand when its last tile has been released (R178, R213).
Log entry 143 (DEDUCED). -/
def drainAt (issue now_ : DrainSt) : DrainSt :=
  { now_ with
    next := match now_.next with
      | some c => if c.serial < issue.serial then some c else none
      | none => none
    serial := issue.serial, curR := issue.curR, curC := issue.curC, block := issue.block, slots := [], claims := [] }

/-- The count of every instruction of a snapshot's round is complete: the snapshot becomes the station's, with the
drain as it stands (R178). -/
def State.promote (s : State) (n sl : Nat) : State :=
  match s.stn? n sl with
  | none => s
  | some x =>
    let oldest := match x.outst with | [] => s.core n |>.issued | i :: _ => i.id
    let ready := x.snaps.filter (fun p => decide (p.upto ≤ oldest))
    match ready.getLast? with
    | none => s
    | some p =>
      let d := if sl < 2 then drainAt p.drain (s.dr (2 * n + sl)) else {}
      s.onStn n sl (fun x => { x with
        snap := { p with dones := (s.rd .CO_DONE n sl).toNat, drain := d },
        snaps := x.snaps.filter (fun q => decide (oldest < q.upto)),
        unsafeRound := x.outst.any (fun i => opUnsafe i.op && i.done) })

/-- Instruction `id` of a station is complete: completions count in program order. -/
def State.complete (s : State) (n sl id : Nat) : State :=
  match s.stn? n sl with
  | none => s
  | some x =>
    let o := x.outst.map (fun i => if i.id = id then { i with done := true } else i)
    let u := o.any (fun i => i.id == id && opUnsafe i.op)
    let k := doneRun o
    let s := s.onStn n sl (fun x => { x with outst := o.drop k, unsafeRound := x.unsafeRound || u,
                                             unsafeRun := x.unsafeRun || u })
    (s.bump F.CO_DONE_COUNT n sl k).promote n sl

/-! ## The end of a firing (R166, R178) -/

/-- The first port of a station whose count differs from its declared rate, in stream-record order (R166).
Log entry 147 (DEDUCED). -/
def State.rateMiss (s : State) (n sl : Nat) (x : StnSt) : Option StreamSt :=
  firstWhere (fun y =>
    !y.peg && y.kind != 5 &&
      ((match y.src with
        | some (a, b, p) => a == n && b == sl && countOf x.moved p != (y.p : Int)
        | none => false) ||
       (match y.dst with
        | some (a, b, p) => a == n && b == sl && countOf x.moved (32 + p) != (y.c : Int)
        | none => false))) s.streams

/-- The station is at a round boundary after `fired` firings of its run. -/
def atRound (mode q fired firings : Nat) : Bool := mode != 0 || fired % q == 0 || fired == firings

/-- A snapshot of a station is begun: its registers and counts now, the rest when its round has completed (R178). -/
def State.takeSnap (s : State) (n sl : Nat) : State :=
  let c := s.core n
  let s := s.onStn n sl (fun x => { x with
    snaps := x.snaps ++ [{ upto := c.issued, pc := x.pc, loops := x.loops, regs := x.regs,
                           holds := (s.rd .CO_HOLDS n sl).toNat, fired := x.fired, runsDone := x.runsDone,
                           total := x.total, mm := if sl = 0 then c.mm0 else if sl = 1 then c.mm1 else 0,
                           holdsOf := x.holdsOf, drain := if sl < 2 then s.dr (2 * n + sl) else {} }],
    inRound := false })
  s.promote n sl

/-- One iteration of the outermost LOOP has ended. Log entry 147 (DEDUCED). -/
def State.firingEnd (s : State) (n sl : Nat) : State :=
  match s.stn? n sl with
  | none => s
  | some x =>
    let miss := if s.sectMode = 0 then s.rateMiss n sl x else none
    let s := s.onStn n sl (fun x => { x with fired := x.fired + 1, moved := [] })
    let s := if s.flag F.CO_CNT_X_STN_EN n then s.bump F.CO_STN_FIRINGS_COUNT n sl else s
    let s := if sl = 0 then s.put F.CO_ROUND_ROUNDS (if s.sectMode = 0 then (x.fired + 1) / x.q else x.fired + 1) n else s
    let s := match miss with
      | some y => s.protoFault n y.qnum 5 y.id
      | none => s
    if atRound s.sectMode x.q (x.fired + 1) x.firings then s.takeSnap n sl else s

/-- The station has run past the end of its program: its run is finished, and its next run begins while the section
has runs left (R186, R262). The fetch engines of its inputs start their lists again (R301). -/
def State.runEnd (s : State) (n sl runs : Nat) : State :=
  match s.stn? n sl with
  | none => s
  | some x =>
    if x.runsDone + 1 < runs then
      let s := s.onStn n sl (fun x => { x with runsDone := x.runsDone + 1, pc := 0, loops := [], fired := 0, holdsOf := [] })
      let s := s.put F.CO_HOLDS_COUNT 0 n sl
      let s := if sl = 0 then s.put F.CO_ROUND_ROUNDS 0 n else s
      { s with streams := s.streams.map (fun y =>
          match y.dst with
          | some (a, b, _) => if a = n ∧ b = sl ∧ y.fed = true then { y with fi := 0, runIx := y.runIx + 1 } else y
          | none => y) }
    else s.onStn n sl (fun x => { x with runsDone := x.runsDone + 1 })

/-- Loop bodies that end where the context stands (R262): the innermost repeats or ends; ending an iteration of the
outermost is the end of a firing. `fuel` is the nesting depth. -/
def State.unwind (s : State) (n sl : Nat) : Nat → State
  | 0 => s
  | fuel + 1 =>
    match s.stn? n sl with
    | none => s
    | some x =>
      match x.loops.getLast? with
      | none => s
      | some l =>
        if x.pc ≠ l.stop then s
        else
          let again := decide (1 < l.left)
          let loops := if again then x.loops.dropLast ++ [{ l with left := l.left - 1 }] else x.loops.dropLast
          let s := s.onStn n sl (fun x => { x with loops := loops, pc := if again then l.first else x.pc })
          let s := if x.loops.length = 1 then s.firingEnd n sl else s
          if again then s else s.unwind n sl fuel

/-- The context goes on to its next instruction at `pc`. -/
def State.goTo (s : State) (n sl pc : Nat) : State :=
  let s := s.onStn n sl (fun x => { x with pc := pc })
  let s := s.unwind n sl 5
  let s := match s.stn? n sl with
    | some x =>
      if x.finished then
        (s.runEnd n sl (match s.sect with | some y => y.runs | none => 1)).takeSnap n sl
      else s
    | none => s
  s.onStn n sl (fun x => { x with mark := (s.core n).issued })

/-- The post-increment of a word (R207, R214, R579). -/
def postInc (x : StnSt) (w : Nat) : StnSt :=
  let op := wOp w
  if !bit w 113 then x
  else if op = 0x10 ∨ op = 0x11 ∨ op = 0x12 ∨ (0x20 ≤ op ∧ op ≤ 0x25) ∨ op = 0x52 then
    x.setPd (bits w 115 114) (x.pd (bits w 115 114) + 64)
  else if op = 0x26 ∨ op = 0x30 ∨ op = 0x31 ∨ op = 0x42 ∨ op = 0x50 ∨ op = 0x51 then
    let i := bits w 75 72
    x.setAd i (encInt 64 ((x.ad i : Int) + 64 * signed 16 (bits w 47 32)))
  else x

/-- The number the next accepted instruction of a core gets. -/
def State.nextId (s : State) (n : Nat) : Nat := (s.core n).issued

/-- An instruction is accepted (R165, R208): it takes the core's next issue number, its post-increment is applied, and
the context goes on to `pc`. -/
def State.accept (s : State) (n sl w pc : Nat) : State :=
  let c := s.core n
  let s := s.setCore n { c with issued := c.issued + 1, lastSlot := sl }
  let s := s.onStn n sl (fun x =>
    { postInc x w with outst := x.outst ++ [⟨c.issued, wOp w, false⟩], inRound := true, acted := true })
  (s.moved).goTo n sl pc

/-- An accepted instruction that completes at once. -/
def State.acceptDone (s : State) (n sl w : Nat) : State :=
  match s.stn? n sl with
  | none => s
  | some x =>
    let id := s.nextId n
    (s.accept n sl w (x.pc + 1)).complete n sl id

/-- An accepted instruction that completes later. -/
def State.acceptOnly (s : State) (n sl w : Nat) : State :=
  match s.stn? n sl with
  | none => s
  | some x => s.accept n sl w (x.pc + 1)

end Sys2Proof.Machine
end

