-- ==== Sys2Proof/Machine/Shard.lean ====
section
/-! DEFINITION. The shard table (R374 to R376): its entries, banks and locks, the owner's judgement of a gather (R257),
and what an abort restores. -/

namespace Sys2Proof.Machine

/-- The bound shard table: address and entries. -/
def State.shBase (s : State) : Nat := 64 * s.fld F.CMD_SHTAB_LO_ADDR_LO + s.fld F.CMD_SHTAB_HI_ADDR_HI * 2 ^ 32
def State.shBound (s : State) : Bool := s.flag F.CMD_SHTAB_N_BOUND
def State.shCount (s : State) : Nat := if s.shBound then s.fld F.CMD_SHTAB_N_NSH else 0

/-- The address of entry `i` (Table 13.5). -/
def State.shAddr (s : State) (i : Nat) : Nat := s.shBase + 64 * i

def State.shField (s : State) (i o w : Nat) : Nat := s.load (s.shAddr i + o) w
def State.shId (s : State) (i : Nat) : Nat := s.shField i 0 4
def State.shElems (s : State) (i : Nat) : Nat := s.shField i 4 4
def State.shBank (s : State) (i b : Nat) : Nat := s.shField i (if b = 0 then 8 else 16) 8
def State.shE (s : State) (i : Nat) : Nat := s.shField i 24 4
def State.shKept (s : State) (i : Nat) : Nat := s.shField i 28 4
def State.shFlags (s : State) (i : Nat) : Nat := s.shField i 32 1
def State.shCur (s : State) (i : Nat) : Nat := s.shFlags i % 2
def State.shLocked (s : State) (i : Nat) : Bool := bit (s.shFlags i) 1
def State.shCommitted (s : State) (i : Nat) : Bool := bit (s.shFlags i) 2
def State.shWorld (s : State) (i : Nat) : World := World.ofBit (bit (s.shFlags i) 3)
def State.shKeptCur (s : State) (i : Nat) : Bool := bit (s.shFlags i) 4
def State.shLockStep (s : State) (i : Nat) : Nat := s.shField i 36 4

/-- A field of a shard table entry written. -/
def State.setSh (s : State) (i o w v : Nat) : State := s.store (s.shAddr i + o) w v

/-- The entry of a shard homed on the device. -/
def State.shardIx (s : State) (id : Nat) : Option Nat := firstWhere (fun i => s.shId i == id) (List.range s.shCount)

/-- Offsets of the extension and of the working copy in a bank of `count` elements (R374). -/
def extOff (count : Nat) : Nat := roundUp (4 * count) 64
def workOff (count : Nat) : Nat := roundUp (extOff count + 2 * count) 64

/-- Bytes of a whole bank. -/
def bankLen (count : Nat) : Nat := workOff count + 2 * count

/-- A range meets a bank of a locked shard: a write to it is refused (R258, R375).
Log entries 150 (DEDUCED), 188 (DEDUCED). -/
def State.lockedAt (s : State) (a len : Nat) : Bool :=
  decide (0 < len) && (List.range s.shCount).any (fun i =>
    s.shLocked i && [0, 1].any (fun b =>
      decide (s.shBank i b < a + len) && decide (a < s.shBank i b + bankLen (s.shElems i))))

/-- Pending reads of the lines that a write reaches take no more reads (R323). -/
def State.linesWritten (s : State) (a len : Nat) : State :=
  { s with reads := s.reads.map (fun r =>
      if 0 < len ∧ a / 128 ≤ r.line ∧ 128 * r.line < a + len then { r with merges := false } else r) }

/-- The parts of a write by shared-cache line. Log entry 188 (DEDUCED). -/
def byLine (a : Nat) (bs : List Byte) : List (Nat × List Byte) :=
  let h := 128 - a % 128
  (a, bs.take h) :: (chunks 128 (bs.drop h)).zipIdx.map (fun p => (a + h + 128 * p.2, p.1))

/-- A write from the host, through BAR4 or by COPY: the slices refuse its parts that meet a locked shard (R375).
Log entry 188 (DEDUCED). -/
def State.hostStore (s : State) (a : Nat) (bs : List Byte) : State :=
  (if s.lockedAt a bs.length then
      (byLine a bs).foldl (fun t p => if s.lockedAt p.1 p.2.length then t else t.setBytes p.1 p.2) s
    else s.setBytes a bs).linesWritten a bs.length

/-- What the owner answers to a gather (R257). -/
inductive GatherJudge where
  | refuse (cause : Nat)
  | serve (i : Nat)
  | hold
  | epoch (e : Nat)
  deriving DecidableEq, Repr

/-- The owner's judgement: shard, expected epoch, requester's step, world, offset and length. -/
def State.judgeGather (s : State) (shard e : Nat) (w : World) (off len : Nat) : GatherJudge :=
  match s.shardIx shard with
  | none => .refuse 3
  | some i =>
    if 2 * s.shElems i < off + len then .refuse 3
    else if s.shWorld i ≠ w then .refuse 2
    else if s.shE i = e then .serve i
    else if s.shE i < e ∧ s.shLocked i = true ∧ s.shLockStep i = e then .hold
    else .epoch (s.shE i)

/-- A served gather locks a free shard for the requester's step. -/
def State.lockFor (s : State) (i step : Nat) : State :=
  if s.shLocked i then s else (s.setSh i 32 1 (setBit (s.shFlags i) 1)).setSh i 36 4 step

/-- The address of a byte of the current bank's working copy. -/
def State.workAddr (s : State) (i off : Nat) : Nat := s.shBank i (s.shCur i) + workOff (s.shElems i) + off

/-- A step abort of `step` on one shard (R376). Log entry 189 (DEDUCED). -/
def State.restoreShard (s : State) (step i : Nat) : State :=
  let s := if s.shE i = step ∧ s.shCommitted i = false then
      let f := s.shFlags i
      let f := if bit f 4 then f else putBit f 0 (!bit f 0)
      ((s.setSh i 24 4 (s.shKept i)).setSh i 28 4 0xFFFFFFFF).setSh i 32 1 (clrBit f 4)
    else s
  if s.shLocked i ∧ s.shLockStep i = step then s.setSh i 32 1 (clrBit (s.shFlags i) 1) else s

/-- A step abort on the whole table. -/
def State.restoreShards (s : State) (step : Nat) : State := forN s.shCount (fun i s => s.restoreShard step i) s

end Sys2Proof.Machine
end

