-- ==== Sys2Proof/Machine/Move.lean ====
section
/-! DEFINITION. Movement and control instructions (chapter 8): the checks at issue and the effect of each, remote
transfers in packets (R344, R345), and atomics (R255, R256). -/

namespace Sys2Proof.Machine

/-! ## Transfer descriptors (R246, Table 8.3) -/

/-- A transfer descriptor as read at issue. -/
structure XDesc where
  addr : Nat
  addr2 : Nat
  ld : Nat
  len : Nat
  vrows : Nat
  vcols : Nat
  fmt : Nat
  scale : Nat
  lastt : Nat
  tensor : Nat
  row0 : Nat
  col0 : Nat
  shard : Nat
  count : Nat
  factor : Nat
  spare : Bool

def xdescOf (b : List Byte) : XDesc :=
  { addr := fieldAt b 0 8, addr2 := fieldAt b 8 8, ld := fieldAt b 16 4, len := fieldAt b 20 4,
    vrows := fieldAt b 24 2, vcols := fieldAt b 26 2, fmt := byteAt b 28, scale := byteAt b 29,
    lastt := byteAt b 30 % 2, tensor := fieldAt b 32 4, row0 := fieldAt b 36 4, col0 := fieldAt b 40 4,
    shard := fieldAt b 44 4, count := fieldAt b 48 4, factor := fieldAt b 52 4,
    spare := byteAt b 30 / 2 != 0 || byteAt b 31 != 0 || fieldAt b 56 8 != 0 }

def State.xdesc (s : State) (x : StnSt) (w : Nat) : XDesc := xdescOf (s.bytes (descAddr x w) 64)

/-- The descriptor's address fails check 3 (R214). -/
def State.descBad (s : State) (n : Nat) (x : StnSt) (w : Nat) : Bool :=
  !aligned (descAddr x w) 64 || !s.nearOk n (descAddr x w) 64

/-! ## Global addresses (R247, R344) -/

/-- Where an address that may be global leads. -/
inductive Target where
  | bad
  | near (a : Nat)
  | far (dev a : Nat)
  deriving DecidableEq, Repr

def State.target (s : State) (a : Nat) : Target :=
  let dev := bits a 63 49
  if bit a 48 then
    if dev = s.selfLog then .near (a % 2 ^ 48)
    else if s.devInRange dev then .far dev (a % 2 ^ 48) else .bad
  else if dev = 0 then .near a else .bad

/-- The local ranges among an address that may be global. -/
def Target.nears (t : Target) (len : Nat) : List (Nat × Nat) :=
  match t with
  | .near a => [(a, len)]
  | _ => []

def Target.isBad : Target → Bool
  | .bad => true
  | _ => false

/-! ## Remote transfers (R345) -/

/-- Remote requests that a device may have outstanding. -/
def reqLimit : Nat := 4096

def State.reqCount (s : State) : Nat := s.reqs.ents.length

/-- IKF_REQ_OUT follows the requests outstanding. -/
def State.reqView (s : State) : State := s.put F.IKF_REQ_OUT_COUNT s.reqCount

/-- The next TAG that no request holds, looking at `fuel` of them. Log entry 155 (DEDUCED). -/
def State.freeTag (s : State) : Nat → Nat → Nat
  | 0, t => t
  | f + 1, t => if ((s.reqs.get t none).isSome) then s.freeTag f ((t + 1) % 2 ^ 32) else t

/-- One request of a transfer leaves (Table 12.4). Log entry 155 (DEDUCED). -/
def State.sendReq (s : State) (x : Xfer) (p : XferPart) : State :=
  let t := s.freeTag (reqLimit + 1) s.nextTag
  let s := { s with reqs := s.reqs.set t none (some ⟨x.core, x.iid, p, s.now, false⟩), nextTag := (t + 1) % 2 ^ 32 }
  let base : PktInfo := { type := 0, world := x.world, dst := x.dev, dstp := x.dstp, tag := t, addr := p.remote }
  s.sendPkt
    (match x.op with
     | 0x25 => { base with type := 0x01, sub := p.len / 64 }
     | 0x26 => { base with type := 0x05, sub := x.aop + (if x.width = 8 then 16 else 0) + (if x.ret.isSome then 32 else 0),
                           opnd := x.imm, cmpv := x.cmp }
     | 0x22 => { base with type := 0x08, sub := p.len / 64, cmpv := x.shard, aux := x.epoch,
                           aux2 := (s.rd .CO_STEP x.core).toNat }
     | _ => { base with type := 0x03, payload := p.data })

/-- A transfer kept again under its core and issue number. -/
def State.setXfer (s : State) (x : Xfer) : State :=
  { s with xfers := s.xfers.map (fun y => if y.core = x.core ∧ y.iid = x.iid then x else y) }

/-- Send parts of a transfer while fewer than 4,096 requests are outstanding; `fuel` bounds the parts. -/
def State.pump (s : State) (x : Xfer) : Nat → State
  | 0 => s.reqView
  | f + 1 =>
    match x.todo with
    | [] => s.reqView
    | p :: ps =>
      if reqLimit ≤ s.reqCount then s.reqView
      else
        let x' := { x with todo := ps, open_ := x.open_ + 1 }
        ((s.sendReq x p).setXfer x').pump x' f

/-- A transfer begins. -/
def State.startXfer (s : State) (x : Xfer) : State := ({ s with xfers := s.xfers ++ [x] }).pump x (x.todo.length + 1)

/-- Ranges of up to 512 bytes that cover `len` bytes. -/
def partsOf (remote near len : Nat) : List XferPart :=
  (List.range (ceilDiv len 512)).map (fun k => ⟨remote + 512 * k, near + 512 * k, Nat.min 512 (len - 512 * k), []⟩)

/-- Data cut into WRITE parts of up to 512 bytes; a last unit that is not full is filled with zeros. -/
def dataParts (remote : Nat) (data : List Byte) : List XferPart :=
  ((chunks 512 (padTo (roundUp data.length 64) data)).zipIdx).map (fun p => ⟨remote + 512 * p.2, 0, p.1.length, p.1⟩)

/-- A write to a local range by a station's instruction: refused when the range meets a locked shard (R258). -/
def State.storeNear (s : State) (n sl id op a len : Nat) (f : State → State) : State :=
  if s.lockedAt a len then s.moveFault n sl op 1 s.selfLog else ((f s).linesWritten a len).complete n sl id

/-! ## The checks and effects of each instruction

`judge…` answers the first failing check's code of Table 7.3 (checks 3 to 9); `do…` is the effect of the accepted
instruction. -/

def wPort (w : Nat) : Nat := bits w 91 86
def wPort2 (w : Nat) : Nat := bits w 85 80

/-- An output port that sends tiles. -/
def State.sendPort (s : State) (n sl p : Nat) : Option StreamSt :=
  if 31 < p then none
  else match s.outStrm n sl p with
    | some y => if y.sends then some y else none
    | none => none

/-- An input port with a tile queue. -/
def State.takePort (s : State) (n sl p : Nat) : Option StreamSt :=
  if 31 < p then none
  else match s.inStrm n sl p with
    | some y => if y.hasQueue && !y.peg then some y else none
    | none => none

/-- A memory-sink port. -/
def State.sinkPort (s : State) (n sl p : Nat) : Option StreamSt :=
  if 31 < p then none
  else match s.outStrm n sl p with
    | some y => if y.kind == 2 then some y else none
    | none => none

/-! ### LDT (R248) -/

/-- Log entry 151 (DEDUCED). -/
def State.judgeLdt (s : State) (n sl : Nat) (x : StnSt) (w : Nat) : Option Nat :=
  let d := s.xdesc x w
  if s.descBad n x w then some 3
  else match s.sendPort n sl (wPort w) with
    | none => some 4
    | some y =>
      if d.spare || d.ld % 64 != 0 || d.fmt != y.fmt then some 4
      else if y.rows < d.vrows ∨ y.cols < d.vcols then some 7
      else if !aligned d.addr 64 then some 3
      else s.rangesFault (s.localOk n) [(d.addr, stridedSpan y.fmt y.mxcol d.vrows d.vcols d.ld)]

/-- The tile that LDT and a fetch engine build from a strided array (R248, R299). -/
def State.builtTile (s : State) (n : Nat) (y : StreamSt) (fmt lastt vrows vcols scale tensor row0 col0 a ld : Nat) : List Byte :=
  if vrows = 0 ∨ vcols = 0 then
    (s.tileHdr n y fmt (1 + 2 * lastt) 0 0 scale tensor row0 col0).bytes
  else
    (s.tileHdr n y fmt (2 * lastt) vrows vcols scale tensor row0 col0).bytes
      ++ s.stridedPayload fmt y.mxcol y.rows y.cols vrows vcols a ld

def State.doLdt (s : State) (n sl : Nat) (x : StnSt) (w : Nat) : State :=
  let d := s.xdesc x w
  match s.sendPort n sl (wPort w) with
  | none => s
  | some y =>
    let t := s.builtTile n y d.fmt d.lastt d.vrows d.vcols d.scale d.tensor d.row0 d.col0 d.addr d.ld
    ((s.pushTile y.id t).countPort n sl (wPort w) 1).acceptDone n sl w

/-! ### STT (R249) -/

/-- The stream of the newest chain's output port on a drain: what an accepted problem's tiles go to.
Log entry 117 (DEDUCED). -/
def State.newestChain (s : State) (e : Nat) : Option Chain :=
  match (s.dr e).next with
  | some c => some c
  | none => (s.dr e).force

/-- The serial of the chain whose tile is number `k` among the tiles still to be released; byte 42 of a problem's
descriptor is its MTILES (Table 7.4). -/
def claimSerial : List Problem → Nat → Option Nat
  | [], _ => none
  | p :: ps, k =>
    let left := byteAt p.desc 42 - p.released
    if k < left then some p.chain else claimSerial ps (k - left)

/-- The chain of the next tile that a drain releases and no earlier STT has claimed (R249): that of an accepted problem,
or the newest chain. Log entry 117 (DEDUCED). -/
def State.claimChain (s : State) (e : Nat) : Option Chain :=
  match claimSerial (s.eng e).probs (s.dr e).claims.length with
  | none => s.newestChain e
  | some k =>
    match (s.dr e).force with
    | some c => if c.serial = k then some c else s.newestChain e
    | none => s.newestChain e

/-- A tile image's header fails check 4 of SND or STT. -/
def imageDescBad (t : List Byte) (fmt : Nat) : Bool := decide (0xC < tFmt t) || tFmt t != fmt || !tCrcOk t

/-- A tile image's header fails check 7. -/
def imageExtentBad (t : List Byte) (rows cols : Nat) : Bool :=
  tRows t != rows || tCols t != cols || decide (tRows t < tVrows t) || decide (tCols t < tVcols t)
    || (tEmpty t && (tVrows t != 0 || tVcols t != 0)) || (!tEmpty t && (tVrows t == 0 || tVcols t == 0))

def State.judgeStt (s : State) (n sl : Nat) (x : StnSt) (w : Nat) : Option Nat :=
  let d := s.xdesc x w
  let src := bits w 61 60
  if s.descBad n x w then some 3
  else match s.sinkPort n sl (wPort w) with
    | none => some 4
    | some y =>
      let img := s.bytes d.addr2 64
      let seen := aligned d.addr2 64 && s.localOk n d.addr2 64
      if d.spare || d.ld % 64 != 0 || (src == 0 && (s.takePort n sl (wPort2 w)).isNone) then some 4
      else if src == 1 && seen && imageDescBad img y.fmt then some 4
      else if src == 1 && seen && imageExtentBad img y.rows y.cols then some 7
      else if src == 2 && (match s.claimChain (2 * n + sl) with
          | none => true
          | some c => match s.outStrm n sl c.oport with
            | none => true
            | some o => o.fmt != y.fmt || o.rows != y.rows || o.cols != y.cols) then some 7
      else if !aligned d.addr 64 || (src == 1 && !aligned d.addr2 64) then some 3
      else s.rangesFault (s.localOk n)
        ((d.addr, stridedSpan y.fmt y.mxcol y.rows y.cols d.ld) ::
          (if src = 1 then [(d.addr2, imageLen img y.mxcol)] else []))

/-- A tile's bytes in memory and the range they take. -/
def State.sinkTile (s : State) (n sl id : Nat) (y : StreamSt) (t : List Byte) (a ld : Nat) : State :=
  if tEmpty t then s.complete n sl id
  else s.storeNear n sl id 0x21 a (stridedSpan y.fmt y.mxcol (tVrows t) (tVcols t) ld) (fun s => s.storeStrided t y.mxcol a ld)

def State.doSttPort (s : State) (n sl : Nat) (x : StnSt) (w : Nat) : State :=
  let d := s.xdesc x w
  match s.sinkPort n sl (wPort w), s.takePort n sl (wPort2 w) with
  | some y, some q =>
    let t := q.queue.headD []
    let id := s.nextId n
    let s := (s.countPort n sl (wPort w) 1).countPort n sl (32 + wPort2 w) 1
    let s := (s.takeHead q.id).acceptOnly n sl w
    (s.sinkTile n sl id y t d.addr d.ld).dropHeld q.id
  | _, _ => s

def State.doSttImage (s : State) (n sl : Nat) (x : StnSt) (w : Nat) : State :=
  let d := s.xdesc x w
  match s.sinkPort n sl (wPort w) with
  | some y =>
    let id := s.nextId n
    let t := s.bytes d.addr2 (imageLen (s.bytes d.addr2 64) y.mxcol)
    ((s.countPort n sl (wPort w) 1).acceptOnly n sl w).sinkTile n sl id y t d.addr d.ld
  | none => s

/-- STT with SRC 2 claims the next tile that its drain releases; that tile counts on the sink and not on the drain's
output port (R243, R249). -/
def State.doSttDrain (s : State) (n sl : Nat) (x : StnSt) (w : Nat) : State :=
  let d := s.xdesc x w
  let e := 2 * n + sl
  let id := s.nextId n
  let s := s.countPort n sl (wPort w) 1
  let s := match s.claimChain e with
    | some c => s.countPort n sl c.oport (-1)
    | none => s
  (s.setDr e { s.dr e with claims := (s.dr e).claims ++ [(id, wPort w, d.addr, d.ld)] }).acceptOnly n sl w

/-! ### SND and RCV (R250, R251) -/

def wAd (x : StnSt) (w : Nat) : Nat := x.ad (bits w 75 72)

def State.judgeSnd (s : State) (n sl : Nat) (x : StnSt) (w : Nat) : Option Nat :=
  let a := wAd x w
  let img := s.bytes a 64
  let seen := aligned a 64 && s.localOk n a 64
  match s.sendPort n sl (wPort w) with
  | none => some 4
  | some y =>
    if seen && imageDescBad img y.fmt then some 4
    else if seen && imageExtentBad img y.rows y.cols then some 7
    else if !aligned a 64 then some 3
    else s.rangesFault (s.localOk n) [(a, imageLen img y.mxcol)]

/-- A tile sent on stream `y` with the fields that its image gives (R250). -/
def State.resend (s : State) (n : Nat) (y : StreamSt) (img : List Byte) : List Byte :=
  (s.tileHdr n y (tFmt img) (tFlags img % 8) (tVrows img) (tVcols img) (byteAt img 10) (fieldAt img 20 4)
    (fieldAt img 28 4) (fieldAt img 32 4)).bytes ++ img.drop 64

def State.doSnd (s : State) (n sl : Nat) (x : StnSt) (w : Nat) : State :=
  match s.sendPort n sl (wPort w) with
  | some y =>
    let img := s.bytes (wAd x w) (imageLen (s.bytes (wAd x w) 64) y.mxcol)
    ((s.pushTile y.id (s.resend n y img)).countPort n sl (wPort w) 1).acceptDone n sl w
  | none => s

def State.judgeRcv (s : State) (n sl : Nat) (x : StnSt) (w : Nat) : Option Nat :=
  match s.takePort n sl (wPort w) with
  | none => some 4
  | some y =>
    if wSub w ≠ 0 then none
    else if !aligned (wAd x w) 64 then some 3
    else s.rangesFault (s.localOk n) [(wAd x w, imageLen (y.queue.headD []) y.mxcol)]

def State.doRcvCopy (s : State) (n sl : Nat) (x : StnSt) (w : Nat) : State :=
  match s.takePort n sl (wPort w) with
  | some y =>
    let t := y.queue.headD []
    let a := wAd x w
    let len := imageLen t y.mxcol
    let id := s.nextId n
    let s := ((s.takeHead y.id).countPort n sl (32 + wPort w) 1).acceptOnly n sl w
    (s.storeNear n sl id 0x31 a len (fun s => s.setBytes a (t.take len))).dropHeld y.id
  | none => s

def State.doRcvDiscard (s : State) (n sl : Nat) (_x : StnSt) (w : Nat) : State :=
  match s.takePort n sl (wPort w) with
  | some y => (((s.takeHead y.id).dropHeld y.id).countPort n sl (32 + wPort w) 1).acceptDone n sl w
  | none => s

/-! ### PUT and GET (R252) -/

/-- Log entry 151 (DEDUCED). -/
def State.judgePutGet (s : State) (n _sl : Nat) (x : StnSt) (w : Nat) : Option Nat :=
  let d := s.xdesc x w
  if s.descBad n x w then some 3
  else if d.spare || d.len % 64 != 0 || decide (67108864 < d.len) then some 4
  else if (s.target d.addr).isBad || !aligned d.addr 64 || !aligned d.addr2 64 then some 3
  else s.rangesFault (s.localOk n) ((d.addr2, d.len) :: (s.target d.addr).nears d.len)

/-- A transfer of an instruction to or from a device. -/
def xferOf (n sl id op dev : Nat) (w : World) (parts : List XferPart) : Xfer :=
  ⟨n, sl, id, op, dev, w, parts, 0, 0, 0, 0, 0, none, 0, 0, none, none⟩

def State.doPut (s : State) (n sl : Nat) (x : StnSt) (w : Nat) : State :=
  let d := s.xdesc x w
  let id := s.nextId n
  let s := s.acceptOnly n sl w
  if d.len = 0 then s.complete n sl id
  else match s.target d.addr with
    | .near a => s.storeNear n sl id 0x24 a d.len (fun s => s.copyBytes d.addr2 a d.len)
    | .far dev a => s.startXfer (xferOf n sl id 0x24 dev s.sectWorld (dataParts a (s.bytes d.addr2 d.len)))
    | .bad => s

def State.doGet (s : State) (n sl : Nat) (x : StnSt) (w : Nat) : State :=
  let d := s.xdesc x w
  let id := s.nextId n
  let s := s.acceptOnly n sl w
  if d.len = 0 then s.complete n sl id
  else match s.target d.addr with
    | .near a => s.storeNear n sl id 0x25 d.addr2 d.len (fun s => s.copyBytes a d.addr2 d.len)
    | .far dev a => s.startXfer (xferOf n sl id 0x25 dev s.sectWorld (partsOf a d.addr2 d.len))
    | .bad => s

/-! ### SCT (R253) -/

/-- The bytes of a valid row of a tile as a strided row holds them: elements, then its block scales (R216).
Log entry 148 (DESIGN CHOICE). -/
def rowBytes (t : List Byte) (mxcol : Bool) (r : Nat) : List Byte :=
  let vc := tVcols t
  let el := packCodes (tFmt t) (packedBytes (tFmt t) vc) ((List.range vc).map (tCode t r))
  if fmtMx (tFmt t) && !mxcol then
    padTo (packedBytes (tFmt t) (32 * ceilDiv vc 32)) el
      ++ (List.range (ceilDiv vc 32)).map (fun b => BitVec.ofNat 8 (tScaleCode t (r * (tCols t / 32) + b)))
  else el

/-- The rows that a scatter writes: row, address. Log entry 148 (DESIGN CHOICE). -/
def State.sctRows (s : State) (t : List Byte) (d : XDesc) (a : Nat) : List (Nat × Nat) :=
  (List.range (tVrows t)).filterMap (fun r =>
    let ix := s.load (d.addr2 + 4 * r) 4
    if ix = 0xFFFFFFFF then none else some (r, a + ix * d.ld))

def State.judgeSct (s : State) (n sl : Nat) (x : StnSt) (w : Nat) : Option Nat :=
  let d := s.xdesc x w
  if s.descBad n x w then some 3
  else match s.takePort n sl (wPort w) with
    | none => some 4
    | some y =>
      let t := y.queue.headD []
      if d.spare || d.ld % 64 != 0 then some 4
      else if (s.target d.addr).isBad || !aligned d.addr 64 || !aligned d.addr2 64 then some 3
      else s.rangesFault (s.localOk n)
        ((d.addr2, 4 * tVrows t) ::
          (match s.target d.addr with
           | .near a => (s.sctRows t d a).map (fun p => (p.2, (rowBytes t y.mxcol p.1).length))
           | _ => []))

def State.doSct (s : State) (n sl : Nat) (x : StnSt) (w : Nat) : State :=
  let d := s.xdesc x w
  match s.takePort n sl (wPort w) with
  | none => s
  | some y =>
    let t := y.queue.headD []
    let id := s.nextId n
    let s := ((s.takeHead y.id).countPort n sl (32 + wPort w) 1).acceptOnly n sl w
    if tEmpty t then (s.dropHeld y.id).complete n sl id
    else match s.target d.addr with
      | .near a =>
        let rows := (s.sctRows t d a).map (fun p => (p.2, rowBytes t y.mxcol p.1))
        if rows.any (fun r => s.lockedAt r.1 r.2.length) then s.moveFault n sl 0x23 1 s.selfLog
        else ((forEach rows (fun r s => s.setBytes r.1 r.2) s).dropHeld y.id).complete n sl id
      | .far dev a =>
        let parts := (s.sctRows t d a).flatMap (fun p => dataParts p.2 (rowBytes t y.mxcol p.1))
        if parts.isEmpty then (s.dropHeld y.id).complete n sl id
        else s.startXfer { xferOf n sl id 0x23 dev s.sectWorld parts with stream := some y.id }
      | .bad => s

/-! ### ATM (R255) -/

def atmWidth (w : Nat) : Nat := if bit w 61 then 8 else 4

def State.judgeAtm (s : State) (n _sl : Nat) (x : StnSt) (w : Nat) : Option Nat :=
  let a := wAd x w
  let wd := atmWidth w
  let old := if bit w 60 then [(x.ad (bits w 71 68), wd)] else []
  if (s.target a).isBad || !aligned a wd || old.any (fun r => !aligned r.1 wd) then some 3
  else if ((s.target a).nears wd).any (fun r => !s.inShared r.1 r.2) then some 3
  else s.rangesFault (s.localOk n) (old ++ (s.target a).nears wd)

def State.doAtm (s : State) (n sl : Nat) (x : StnSt) (w : Nat) : State :=
  let id := s.nextId n
  let wd := atmWidth w
  let opnd := encInt (8 * wd) (signed 32 (bits w 31 0))
  let cmp := x.ct (bits w 64 62)
  let ret := if bit w 60 then some (x.ad (bits w 71 68)) else none
  let s := s.acceptOnly n sl w
  match s.target (wAd x w) with
  | .near a => { s with atoms := s.atoms ++ [⟨a, wSub w, wd, opnd, cmp, s.sectWorld, some (n, sl, id, ret), []⟩] }
  | .far dev a =>
    s.startXfer { xferOf n sl id 0x26 dev s.sectWorld [⟨a, 0, wd, []⟩] with
                  aop := wSub w, imm := opnd, cmp := cmp, width := wd, ret := ret }
  | .bad => s

/-- The new value of an atomic (Table 8.4). -/
def atomNew (op width old opnd cmp : Nat) : Nat :=
  match op with
  | 0 => (old + opnd) % 2 ^ (8 * width)
  | 1 => Nat.max old opnd
  | 2 => Nat.min old opnd
  | 3 => opnd
  | 4 => if old = cmp then opnd else old
  | 5 => Nat.land old opnd
  | 6 => Nat.lor old opnd
  | _ => Nat.xor old opnd

/-! ### GAT (R257) -/

/-- Log entry 149 (DEDUCED). -/
def State.judgeGat (s : State) (n _sl : Nat) (x : StnSt) (w : Nat) : Option Nat :=
  let d := s.xdesc x w
  let dev := bits d.addr 63 49
  if s.descBad n x w then some 3
  else if d.spare || d.len % 64 != 0 || decide (67108864 < d.len) then some 4
  else if (dev != s.selfLog && !s.devInRange dev) || !aligned d.addr2 64 || !aligned (d.addr % 2 ^ 48) 64 then some 3
  else s.rangesFault (s.localOk n) [(d.addr2, d.len)]

/-- The owner's answer to a local gather of instruction `id`. Log entry 150 (DEDUCED). -/
def State.gatherNear (s : State) (n sl id shard e step : Nat) (w : World) (off len dst : Nat) : State :=
  match s.judgeGather shard e w off len with
  | .refuse c =>
    let s := if c = 2 then s.worldViol 4 n off else s
    s.moveFault n sl 0x22 c s.selfLog
  | .serve i =>
    let t := s.lockFor i step
    if len ≠ 0 ∧ t.lockedAt dst len = true then t.moveFault n sl 0x22 1 s.selfLog
    else (t.copyBytes (s.workAddr i off) dst len).complete n sl id
  | .hold => { s with held := s.held ++ [⟨shard, e, step, w, off, len, some (n, sl, id, dst), []⟩] }
  | .epoch k => s.shardEpoch n sl 0x22 s.selfLog k

/-- Log entry 149 (DEDUCED). -/
def State.doGat (s : State) (n sl : Nat) (x : StnSt) (w : Nat) : State :=
  let d := s.xdesc x w
  let dev := bits d.addr 63 49
  let off := d.addr % 2 ^ 48
  let e := x.ct (bits w 67 65)
  let id := s.nextId n
  let step := (s.rd .CO_STEP n).toNat
  let s := s.acceptOnly n sl w
  if dev = s.selfLog then s.gatherNear n sl id d.shard e step s.sectWorld off d.len d.addr2
  else
    let parts := if d.len = 0 then [⟨off, d.addr2, 0, []⟩] else partsOf off d.addr2 d.len
    s.startXfer { xferOf n sl id 0x22 dev s.sectWorld parts with shard := d.shard, epoch := e }

/-! ### LOOP, HOLD, WAIT, FENCE (R262 to R264, R268) -/

def State.judgeLoop (s : State) (_n _sl : Nat) (x : StnSt) (w : Nat) : Option Nat :=
  let body := bits w 47 32
  let stop := x.pc + 1 + body
  let inside := match x.loops.getLast? with
    | some l => decide (l.stop < stop)
    | none => false
  if body = 0 ∨ x.prog.length < stop ∨ inside = true ∨ 4 ≤ x.loops.length ∨ (wSub w = 2 ∧ x.loops ≠ [])
      ∨ (s.sectMode = 0 ∧ x.loops = [] ∧ wSub w ≠ 2) then some 4 else none

def State.doLoop (s : State) (n sl : Nat) (x : StnSt) (w : Nat) : State :=
  let body := bits w 47 32
  let count := match wSub w with
    | 0 => bits w 31 0
    | 1 => x.ct (bits w 67 65)
    | _ => x.firings
  let id := s.nextId n
  if count = 0 then (s.accept n sl w (x.pc + 1 + body)).complete n sl id
  else
    let s := s.onStn n sl (fun x => { x with loops := x.loops ++ [⟨x.pc + 1, x.pc + 1 + body, count⟩] })
    (s.accept n sl w (x.pc + 1)).complete n sl id

/-- Instructions of a slot that issued before mark `m`, are not complete and pass a test on the opcode. -/
def State.earlier (s : State) (n sl m : Nat) (p : Nat → Bool) : Bool :=
  match s.stn? n sl with
  | some x => x.outst.any (fun i => decide (i.id < m) && !i.done && p i.op)
  | none => false

/-- The HOLD's condition fails still. -/
def State.holdWaits (s : State) (n : Nat) (x : StnSt) (w : Nat) : Bool :=
  (List.range 6).any (fun i => bit (bits w 37 32) i && s.earlier n i x.mark (fun op => op / 16 == 2 || op / 16 == 5))

/-- HOLD marks that name a port, counted. -/
def bumpHolds (imm : Nat) (hs : List (Nat × Nat)) : List (Nat × Nat) :=
  (List.range 32).filterMap (fun p =>
    let c := (match firstWhere (fun (h : Nat × Nat) => h.1 == p) hs with | some h => h.2 | none => 0)
      + (if bit imm p then 1 else 0)
    if c = 0 then none else some (p, c))

def State.doHold (s : State) (n sl : Nat) (_x : StnSt) (w : Nat) : State :=
  let s := s.bump F.CO_HOLDS_COUNT n sl
  let s := s.onStn n sl (fun x => { x with holdsOf := bumpHolds (bits w 31 0) x.holdsOf })
  s.acceptDone n sl w

def State.judgeWait (s : State) (n _sl : Nat) (x : StnSt) (w : Nat) : Option Nat :=
  if wSub w = 0 then (if 5 < bits w 2 0 then some 4 else none)
  else if !aligned (wAd x w) 4 then some 3
  else s.rangesFault (s.localOk n) [(wAd x w, 4)]

/-- The WAIT's condition fails still. -/
def State.waitWaits (s : State) (n : Nat) (x : StnSt) (w : Nat) : Bool :=
  let c := x.ct (bits w 67 65)
  match wSub w with
  | 0 => decide (signed 32 ((s.rd .CO_DONE n (bits w 2 0)).toNat + 2 ^ 32 - c) < 0)
  | 1 => decide (s.load (wAd x w) 4 < c)
  | 2 => s.load (wAd x w) 4 == c
  | _ => false

def State.doWait (s : State) (n sl : Nat) (x : StnSt) (w : Nat) : State :=
  let v := s.load (wAd x w) 4
  let s := if wSub w ≠ 0 ∧ bit w 3 = true then s.onStn n sl (fun x => x.setCt (bits w 64 62) v) else s
  s.acceptDone n sl w

/-- The FENCE's condition fails still. -/
def State.fenceWaits (s : State) (n sl : Nat) (x : StnSt) (w : Nat) : Bool :=
  (if wSub w = 0 then [sl] else List.range 6).any (fun i => s.earlier n i x.mark (fun op => op / 16 != 4))

/-! ### PEG and STEER (R265 to R267) -/

/-- The bytes of a peg (Table 8.6). -/
def pegBytes (value outset : Nat) (w : World) (epoch : Nat) : List Byte :=
  leBytes 2 value ++ leBytes 1 (outset % 16) ++ leBytes 1 w.bit ++ leBytes 4 epoch

/-- A bound peg port: sending or taking. -/
def State.pegOut (s : State) (n sl p : Nat) : Option StreamSt :=
  if 31 < p then none
  else match s.outStrm n sl p with
    | some y => if y.peg then some y else none
    | none => none
def State.pegIn (s : State) (n sl p : Nat) : Option StreamSt :=
  if 31 < p then none
  else match s.inStrm n sl p with
    | some y => if y.peg then some y else none
    | none => none

def State.judgePeg (s : State) (n sl : Nat) (_x : StnSt) (w : Nat) : Option Nat :=
  if wSub w = 0 then (if (s.pegOut n sl (wPort w)).isNone then some 4 else none)
  else if (s.pegIn n sl (wPort w)).isNone then some 4 else none

/-- A peg on its way: to the queue, or as a CONTROL packet to another device (R193). -/
def State.pushPeg (s : State) (y : StreamSt) (b : List Byte) : State :=
  let s := s.moved
  if y.kind = 4 then
    (s.setStrm { y with credits := y.credits - 1 }).sendControl 4 y.peer s.sectWorld b y.peerStream
  else s.setStrm { y with credits := y.credits - 1, flight := y.flight ++ [b] }

def State.doPegSend (s : State) (n sl : Nat) (x : StnSt) (w : Nat) : State :=
  match s.pegOut n sl (wPort w) with
  | some y =>
    let b := pegBytes (x.ct (bits w 67 65) % 65536) (bits w 3 0) s.sectWorld y.wepoch
    (s.pushPeg y b).acceptDone n sl w
  | none => s

def State.doPegTake (s : State) (n sl : Nat) (_x : StnSt) (w : Nat) : State :=
  match s.pegIn n sl (wPort w) with
  | some y =>
    let v := fieldAt (y.queue.headD []) 0 2
    let s := (s.takeHead y.id).dropHeld y.id
    (s.onStn n sl (fun x => x.setCt (bits w 64 62) v)).acceptDone n sl w
  | none => s

/-- The output ports of a STEER, 0x3F unused. -/
def steerOuts (w : Nat) : List Nat := [bits w 5 0, bits w 13 8, bits w 21 16, bits w 29 24]

def State.judgeSteer (s : State) (n sl : Nat) (_x : StnSt) (w : Nat) : Option Nat :=
  if (s.takePort n sl (wPort w)).isNone || (s.pegIn n sl (wPort2 w)).isNone
      || (steerOuts w).any (fun p => p != 0x3F && (s.sendPort n sl p).isNone) then some 4 else none

/-- The outputs that a peg names, and whether it names none or an unused one. -/
def pegOuts (w : Nat) (peg : List Byte) : List Nat :=
  ((List.range 4).filter (fun i => bit (byteAt peg 2) i)).map (fun i => (steerOuts w).getD i 0x3F)

/-- Log entry 153 (DEDUCED). -/
def pegBad (w : Nat) (peg : List Byte) : Bool := (pegOuts w peg).isEmpty || (pegOuts w peg).contains 0x3F

/-- One pair of a STEER: the tile goes to every output that the peg names; the last pair completes the instruction.
Log entry 153 (DEDUCED). -/
def State.doSteer (s : State) (n sl : Nat) (x : StnSt) (w : Nat) : State :=
  let left := match x.steer with
    | some k => k
    | none => x.ct (bits w 67 65)
  if left = 0 then (s.onStn n sl (fun x => { x with steer := none })).acceptDone n sl w
  else match s.takePort n sl (wPort w), s.pegIn n sl (wPort2 w) with
    | some q, some g =>
      let t := q.queue.headD []
      let p := g.queue.headD []
      if pegBad w p then (s.protoFault n g.qnum 2 g.id).onStn n sl (fun x => { x with halted := true })
      else
        let s := forEach (pegOuts w p) (fun o s =>
          match s.sendPort n sl o with
          | some y => (s.pushTile y.id (s.resend n y t)).countPort n sl o 1
          | none => s) s
        let s := ((s.takeHead q.id).dropHeld q.id).countPort n sl (32 + wPort w) 1
        let s := (s.takeHead g.id).dropHeld g.id
        if left = 1 then (s.onStn n sl (fun x => { x with steer := none })).acceptDone n sl w
        else s.onStn n sl (fun x => { x with steer := some (left - 1) })
    | _, _ => s

end Sys2Proof.Machine
end

