-- ==== Sys2Proof/Machine/Trans.lean ====
section
/-! DEFINITION. Correctly rounded exp, exp2, log, log2, tanh, sigmoid, sin and cos (R134): fixed-point approximations
with a bound on their error, at rising precision until both ends of the interval round to one code. -/

namespace Sys2Proof.Machine

/-- An approximation: sign, magnitude, error and exponent: the true magnitude lies within `err` of `m`, times
2^exp. -/
structure Approx where
  neg : Bool
  m : Nat
  err : Nat
  exp : Int

/-- Both ends of an approximation round to one value. -/
def Approx.settle (f : FFmt) (a : Approx) : Option Val :=
  if a.m ≤ a.err then none
  else
    let lo := rnd f .nearest (.fin a.neg (a.m - a.err) a.exp)
    let hi := rnd f .nearest (.fin a.neg (a.m + a.err) a.exp)
    if lo = hi then some lo else none

/-- The first precision of a list that settles. -/
def zivLoop (f : FFmt) (approx : Nat → Approx) : List Nat → Option Val
  | [] => none
  | p :: ps =>
    match (approx p).settle f with
    | some v => some v
    | none => zivLoop f approx ps

/-- The precisions tried. -/
def zivBits : List Nat := [128, 256, 512, 1024, 2048, 4096, 8192]

/-- The error bound of the series below, in units of 2^-p. -/
def serErr : Nat := 2 ^ 32

/-! ## Series, as integers in units of 2^-p -/

/-- atanh(1/k) (`alt` false) or atan(1/k) (`alt` true). -/
def atanLoop (alt : Bool) (k2 : Nat) : Nat → Nat → Nat → Bool → Int → Int
  | 0, _, _, _, acc => acc
  | fuel + 1, t, d, neg, acc =>
    if t = 0 then acc
    else
      let x : Int := (t / d : Nat)
      atanLoop alt k2 fuel (t / k2) (d + 2) (alt && !neg) (if neg then acc - x else acc + x)

def atanInv (alt : Bool) (k p : Nat) : Int := atanLoop alt (k * k) (p + 2) (2 ^ p / k) 1 false 0

/-- ln 2. -/
def ln2At (p : Nat) : Nat := (18 * atanInv false 26 p - 2 * atanInv false 4801 p + 8 * atanInv false 8749 p).toNat

/-- π. -/
def piAt (p : Nat) : Nat := (16 * atanInv true 5 p - 4 * atanInv true 239 p).toNat

/-- Σ t^k / k! from the term `x` on, `t` and `x` in units of 2^-p. -/
def expLoop (p t : Nat) : Nat → Nat → Nat → Nat → Nat
  | 0, _, _, acc => acc
  | fuel + 1, k, x, acc => if x = 0 then acc else expLoop p t fuel (k + 1) (x * t / 2 ^ p / (k + 1)) (acc + x)

/-- e^t for 0 ≤ t < 1. -/
def expFrac (p t : Nat) : Nat := expLoop p t (p + 4) 0 (2 ^ p) 0

/-- Σ ± t^k / k! over every other k: sine from `x = t, k = 1`, cosine from `x = 1, k = 0`. -/
def trigLoop (p t : Nat) : Nat → Nat → Nat → Bool → Int → Int
  | 0, _, _, _, acc => acc
  | fuel + 1, k, x, neg, acc =>
    if x = 0 then acc
    else trigLoop p t fuel (k + 2) (x * t / 2 ^ p * t / 2 ^ p / ((k + 1) * (k + 2))) (!neg)
      (if neg then acc - (x : Int) else acc + (x : Int))

/-- Σ z^(2k+1) / (2k+1): atanh z for 0 ≤ z ≤ 1/3. -/
def atanhLoop (p z2 : Nat) : Nat → Nat → Nat → Nat → Nat
  | 0, _, _, acc => acc
  | fuel + 1, d, t, acc => if t = 0 then acc else atanhLoop p z2 fuel (d + 2) (t * z2 / 2 ^ p) (acc + t / d)

/-- `m · 2^e` in units of 2^-p, rounded down. -/
def fixAt (p m : Nat) (e : Int) : Nat :=
  let k := e + p
  if 0 ≤ k then m * 2 ^ k.toNat else m / 2 ^ (-k).toNat

/-! ## The functions of a positive magnitude -/

/-- e^(±x) for x = m·2^e < 2^12: a mantissa in units of 2^-p and a power of two. -/
def expParts (p : Nat) (neg : Bool) (m : Nat) (e : Int) : Nat × Int :=
  let l := ln2At (p + 16)
  let x := fixAt (p + 16) m e
  let k := x / l
  let r := x % l
  if neg then
    if r = 0 then (2 ^ p, -(k : Int)) else (expFrac p ((l - r) / 2 ^ 16), -(k : Int) - 1)
  else (expFrac p (r / 2 ^ 16), k)

/-- ln of m·2^e: sign and magnitude in units of 2^-p. -/
def lnParts (p m : Nat) (e : Int) : Bool × Nat :=
  let b := Nat.log2 m
  let y := fixAt p m (-(b : Int))
  let z := (y - 2 ^ p) * 2 ^ p / (y + 2 ^ p)
  let ly := 2 * atanhLoop p (z * z / 2 ^ p) (p + 2) 1 z 0
  let v : Int := (e + b) * (ln2At p : Int) + ly
  (decide (v < 0), v.natAbs)

/-- sin or cos of m·2^e: sign and magnitude in units of 2^-p. -/
def trigParts (p : Nat) (isCos : Bool) (m : Nat) (e : Int) : Bool × Nat :=
  let top := (max 0 (e + (Nat.log2 m : Nat) + 1)).toNat
  let q := p + top + 16
  let h := piAt q
  let x := 2 * fixAt q m e
  -- x and h in halves of a quarter turn: n quarter turns and a remainder in [0, π/2)
  let n := x / h
  let r := x % h / 2 / 2 ^ (top + 16)
  let sn := trigLoop p r (p + 4) 1 r false 0
  let cs := trigLoop p r (p + 4) 0 (2 ^ p) false 0
  let qd := (n + (if isCos then 1 else 0)) % 4
  let v := if qd = 0 then sn else if qd = 1 then cs else if qd = 2 then -sn else -cs
  (decide (v < 0), v.natAbs)

/-- x = m·2^e is at least 2^k, or below it. -/
def magAtLeast (m : Nat) (e k : Int) : Bool := decide (k ≤ e + (Nat.log2 m : Nat))

/-- The value is an integer: its integer part by sign and magnitude. -/
def asInt (neg : Bool) (m : Nat) (e : Int) : Option Int :=
  if 0 ≤ e then some (if neg then -((m * 2 ^ e.toNat : Nat) : Int) else ((m * 2 ^ e.toNat : Nat) : Int))
  else if m % 2 ^ (-e).toNat = 0 then
    some (if neg then -((m / 2 ^ (-e).toNat : Nat) : Int) else ((m / 2 ^ (-e).toNat : Nat) : Int))
  else none

/-- The magnitude is an exact power of two. -/
def powerOfTwo (m : Nat) : Bool := m == 2 ^ Nat.log2 m

/-- The quarter-rate operations of Table 4.3 that are not correctly rounded by an exact quotient or root: EXP 0x14,
EXP2 0x15, LOG 0x16, LOG2 0x17, TANH 0x18, SIGMOID 0x19, SIN 0x1A, COS 0x1B, for a finite operand that is not zero.
`none` where no precision settles. -/
def transFin (f : FFmt) (op : Nat) (neg : Bool) (m : Nat) (e : Int) : Option Val :=
  match op with
  | 0x14 =>
    if magAtLeast m e 12 then some (if neg then vzero else .inf false)
    else zivLoop f (fun p => let r := expParts p neg m e; ⟨false, r.1, serErr, r.2 - p⟩) zivBits
  | 0x15 =>
    if magAtLeast m e 13 then some (if neg then vzero else .inf false)
    else match asInt neg m e with
      | some i => some (rnd f .nearest (.fin false 1 i))
      | none =>
        zivLoop f (fun p =>
          let x := fixAt (p + 16) m e
          let k := x / 2 ^ (p + 16)
          let r := x % 2 ^ (p + 16)
          let r' := if neg then 2 ^ (p + 16) - r else r
          let k' : Int := if neg then -(k : Int) - 1 else k
          ⟨false, expFrac p (r' * ln2At (p + 16) / 2 ^ (p + 32)), serErr, k' - p⟩) zivBits
  | 0x16 =>
    if neg then some .nan
    else if asInt false m e = some 1 then some vzero
    else zivLoop f (fun p => let r := lnParts p m e; ⟨r.1, r.2, serErr, -(p : Int)⟩) zivBits
  | 0x17 =>
    if neg then some .nan
    else if powerOfTwo m then some (rnd f .nearest (ofInt (e + (Nat.log2 m : Nat)) 0))
    else zivLoop f (fun p =>
      let r := lnParts (p + 16) m e
      ⟨r.1, r.2 * 2 ^ p / ln2At (p + 16), serErr, -(p : Int)⟩) zivBits
  | 0x18 =>
    if !magAtLeast m e (-40) then some (.fin neg m e)
    else if magAtLeast m e 6 then some (.fin neg 1 0)
    else zivLoop f (fun p =>
      let r := expParts p true m (e + 1)
      let ex := fixAt p r.1 (r.2 - p)
      ⟨neg, (2 ^ p - ex) * 2 ^ p / (2 ^ p + ex), serErr, -(p : Int)⟩) zivBits
  | 0x19 =>
    if !magAtLeast m e (-70) then some (.fin false 1 (-1))
    else if magAtLeast m e 12 then some (if neg then vzero else .fin false 1 0)
    else zivLoop f (fun p =>
      let r := expParts p true m e
      let one := 2 ^ p + fixAt p r.1 (r.2 - p)
      if neg then ⟨false, r.1 * 2 ^ p / one, serErr, r.2 - p⟩ else ⟨false, 2 ^ p * 2 ^ p / one, serErr, -(p : Int)⟩) zivBits
  | 0x1A =>
    if !magAtLeast m e (-40) then some (.fin neg m e)
    else zivLoop f (fun p => let r := trigParts p false m e; ⟨r.1 != neg, r.2, serErr, -(p : Int)⟩) zivBits
  | _ =>
    if !magAtLeast m e (-40) then some (.fin false 1 0)
    else zivLoop f (fun p => let r := trigParts p true m e; ⟨r.1, r.2, serErr, -(p : Int)⟩) zivBits

/-- The special cases of IEEE 754 for the same operations (R134). -/
def transSpecial (op : Nat) (v : Val) : Option Val :=
  match v with
  | .nan => some .nan
  | .inf s =>
    match op with
    | 0x14 | 0x15 => some (if s then vzero else .inf false)
    | 0x16 | 0x17 => some (if s then .nan else .inf false)
    | 0x18 => some (.fin s 1 0)
    | 0x19 => some (if s then vzero else .fin false 1 0)
    | _ => some .nan
  | .fin s m _ =>
    if m ≠ 0 then none
    else
      match op with
      | 0x14 | 0x15 | 0x1B => some (.fin false 1 0)
      | 0x16 | 0x17 => some (.inf true)
      | 0x19 => some (.fin false 1 (-1))
      | _ => some (.fin s 0 0)

/-- A transcendental operation in a format: the code of its correctly rounded result. -/
def transCode (f : FFmt) (op : Nat) (v : Val) : Nat :=
  match transSpecial op v with
  | some r => encodeIeee f r
  | none =>
    match v with
    | .fin s m e =>
      match transFin f op s m e with
      | some r => encodeIeee f r
      | none => Config.hardCase op f.p (encodeIeee f v)
    | w => encodeIeee f w

end Sys2Proof.Machine
end

