-- ==== Sys2Proof/Machine/Vector.lean ====
section
/-! DEFINITION. The vector engine's instructions VOP and RDX (R133 to R135, R234 to R237): operations, checks, ranges
and effect. -/

namespace Sys2Proof.Machine

/-- FMT of VOP and RDX: 0 FP32, 1 BF16, 2 FP64. -/
def vfmt (k : Nat) : FFmt := if k = 1 then bf16 else if k = 2 then fp64 else fp32
def vwidth (k : Nat) : Nat := if k = 1 then 2 else if k = 2 then 8 else 4

/-- The rounding mode of a word. -/
def wRm (w : Nat) : RM :=
  match bits w 105 104 with
  | 0 => .nearest
  | 1 => .zero
  | 2 => .up
  | _ => .down

/-- The result code of a VOP operation (Table 7.9, R134, R235). -/
def vopCode (o k cfmt : Nat) (rm : RM) (a b c : Val) : Nat :=
  let f := vfmt k
  match o with
  | 0x01 => encodeIeee f (faddF f rm a b)
  | 0x02 => encodeIeee f (fsubF f rm a b)
  | 0x03 => encodeIeee f (fmulF f rm a b)
  | 0x04 => encodeIeee f (ffmaF f rm a b c)
  | 0x05 => encodeIeee f (vmax a b)
  | 0x06 => encodeIeee f (vmin a b)
  | 0x07 => encodeIeee f a.abs
  | 0x08 => encodeIeee f a.neg
  | 0x09 => encodeElem cfmt (rnd (fmtF cfmt) rm a)
  | 0x0A => encodeIeee f (if c.isZero then b else a)
  | 0x10 => encodeIeee f (fdivF f .nearest a b)
  | 0x11 => encodeIeee f (fsqrtF f .nearest a)
  | 0x12 => encodeIeee f (fdivF f .nearest (.fin false 1 0) a)
  | 0x13 => encodeIeee f (frsqrtF f .nearest a)
  | _ => transCode f o a

/-- Bytes of a destination element. -/
def vopOut (o k cfmt : Nat) : Nat := if o = 9 then fmtBits cfmt / 8 else vwidth k

/-- A VOP word and its registers, read at issue. -/
structure Vop where
  o : Nat
  k : Nat
  cfmt : Nat
  rm : RM
  dst : Nat
  sa : Nat
  sb : Option Nat
  sc : Option Nat
  imm : Nat
  cnt : Nat

def vopOf (x : StnSt) (w : Nat) : Vop :=
  let o := bits w 115 108
  { o := o, k := bits w 107 106, cfmt := bits w 83 80, rm := wRm w, dst := x.ad (bits w 103 100), sa := x.ad (bits w 99 96),
    sb := if vopUnary o || bit w 84 then none else some (x.ad (bits w 95 92)),
    sc := if vopThree o then some (x.ad (bits w 91 88)) else none,
    imm := bits w 63 0, cnt := x.ct (bits w 87 85) }

/-- The ranges that an operation reads and writes, with the element widths they are aligned to. -/
def Vop.ranges (v : Vop) : List (Nat × Nat × Nat) :=
  let src := fun a => (a, v.cnt * vwidth v.k, vwidth v.k)
  (v.dst, v.cnt * vopOut v.o v.k v.cfmt, vopOut v.o v.k v.cfmt) :: src v.sa :: (v.sb.toList.map src ++ v.sc.toList.map src)

/-- Checks 8 and 9 of VOP and RDX over ranges with alignments. -/
def State.nearFault (s : State) (n : Nat) (rs : List (Nat × Nat × Nat)) : Option Nat :=
  if rs.any (fun r => !aligned r.1 r.2.2) then some 3
  else s.rangesFault (s.nearOk n) (rs.map (fun r => (r.1, r.2.1)))

/-- Log entry 123 (DESIGN CHOICE). -/
def State.judgeVop (s : State) (n _sl : Nat) (x : StnSt) (w : Nat) : Option Nat :=
  if (vopOf x w).cnt = 0 then none else s.nearFault n (vopOf x w).ranges

/-- Elements of a chunk (R236). -/
def vlen (k : Nat) : Nat := if k = 1 then 4096 else if k = 2 then 1024 else 2048

/-- The elements `i0 … i0+c-1` of the destination, every source of the chunk read first. -/
def State.vopChunk (s : State) (v : Vop) (i0 c : Nat) : State :=
  let f := vfmt v.k
  let wd := vwidth v.k
  let rd := fun a i => decodeIeee f true (s.load (a + i * wd) wd)
  let out := vopOut v.o v.k v.cfmt
  let res := (upFrom i0 c).flatMap (fun i =>
    let b := match v.sb with
      | some a => rd a i
      | none => decodeIeee f true (v.imm % 2 ^ (8 * wd))
    let cc := match v.sc with
      | some a => rd a i
      | none => vzero
    leBytes out (vopCode v.o v.k v.cfmt v.rm (rd v.sa i) b cc))
  s.setBytes (v.dst + i0 * out) res

/-- An address in a cluster store. -/
def State.inCluster (s : State) (a : Nat) : Bool :=
  match s.place a with
  | .cl _ => true
  | _ => false

/-- Cycles of `n` elements (R236): four times for quarter-rate operations, double with an operand in the cluster
store. -/
def vecCycles (k n : Nat) (quarter cluster : Bool) : Nat :=
  ceilDiv n (vlen k) * (if quarter then 4 else 1) * (if cluster then 2 else 1)

/-- The vector engine's cycle counters (Table 4.6). -/
def State.vecCount (s : State) (n k cycles : Nat) (quarter : Bool) : State :=
  let s := s.bump F.VE_CYC_BUSY_COUNT n 0 cycles
  let s := if quarter then s.bump F.VE_CYC_QTR_COUNT n 0 cycles else s
  if k = 2 then s.bump F.VE_CYC_FP64_COUNT n 0 cycles else s

/-- Advance ad register `i` by `d` bytes, when INC. -/
def StnSt.advance (x : StnSt) (i d : Nat) : StnSt := x.setAd i (x.ad i + d)

/-- The post-increment of VOP: each used register once; a register named twice advances by its first use's width. -/
def vopInc (x : StnSt) (w : Nat) (v : Vop) : StnSt :=
  if !bit w 79 then x
  else
    let uses := [(bits w 103 100, v.cnt * vopOut v.o v.k v.cfmt), (bits w 99 96, v.cnt * vwidth v.k)]
      ++ (if v.sb.isSome then [(bits w 95 92, v.cnt * vwidth v.k)] else [])
      ++ (if v.sc.isSome then [(bits w 91 88, v.cnt * vwidth v.k)] else [])
    (List.range 16).foldl (fun y i =>
      match firstWhere (fun (u : Nat × Nat) => u.1 == i) uses with
      | some u => y.advance i u.2
      | none => y) x

/-- Log entries 123 (DESIGN CHOICE), 124 (DESIGN CHOICE). -/
def State.doVop (s : State) (n sl : Nat) (x : StnSt) (w : Nat) : State :=
  let v := vopOf x w
  let q := decide (0x10 ≤ v.o)
  let s := s.vecCount n v.k (vecCycles v.k v.cnt q (v.ranges.any (fun r => s.inCluster r.1))) q
  let s := forN (ceilDiv v.cnt (vlen v.k)) (fun c s =>
    s.vopChunk v (c * vlen v.k) (Nat.min (vlen v.k) (v.cnt - c * vlen v.k))) s
  (s.onStn n sl (fun x => vopInc x w v)).acceptDone n sl w

/-! ## RDX (R135, R237) -/

/-- One level of the pairwise tree. -/
def redPairs (op : Val → Val → Val) : List Val → List Val
  | a :: b :: rest => op a b :: redPairs op rest
  | rest => rest

/-- `n` levels. -/
def redTree (op : Val → Val → Val) : Nat → List Val → List Val
  | 0, vs => vs
  | n + 1, vs => if vs.length ≤ 1 then vs else redTree op n (redPairs op vs)

/-- The reduction of a segment: 0 SUM, 1 MAX, 2 MIN, 3 SUMSQ. -/
def rdxVal (f : FFmt) (rm : RM) (op : Nat) (vs : List Val) : Val :=
  match op with
  | 1 => (redTree vmax 40 vs).headD (.inf true)
  | 2 => (redTree vmin 40 vs).headD (.inf false)
  | 3 => (redTree (faddF f rm) 40 (vs.map (fun v => fmulF f rm v v))).headD vzero
  | _ => (redTree (faddF f rm) 40 vs).headD vzero

/-- An RDX word and its registers. -/
structure Rdx where
  op : Nat
  k : Nat
  rm : RM
  dst : Nat
  src : Nat
  ctn : Nat
  cts : Nat
  ctd : Nat

def rdxOf (x : StnSt) (w : Nat) : Rdx :=
  { op := bits w 115 112, k := bits w 107 106, rm := wRm w, dst := x.ad (bits w 103 100), src := x.ad (bits w 99 96),
    ctn := x.ct (bits w 87 85), cts := x.ct (bits w 84 82), ctd := x.ct (bits w 81 79) }

def Rdx.ranges (r : Rdx) : List (Nat × Nat × Nat) :=
  let wd := vwidth r.k
  (r.dst, r.cts * wd, wd) :: (if r.ctn = 0 then [] else [(r.src, ((r.cts - 1) * r.ctd + r.ctn) * wd, wd)])

/-- Log entry 123 (DESIGN CHOICE). -/
def State.judgeRdx (s : State) (n _sl : Nat) (x : StnSt) (w : Nat) : Option Nat :=
  if (rdxOf x w).cts = 0 then none else s.nearFault n (rdxOf x w).ranges

/-- Segment `i` of an RDX. -/
def State.rdxSeg (s : State) (r : Rdx) (i : Nat) : State :=
  let f := vfmt r.k
  let wd := vwidth r.k
  let vs := (List.range r.ctn).map (fun j => decodeIeee f true (s.load (r.src + (i * r.ctd + j) * wd) wd))
  s.store (r.dst + i * wd) wd (encodeIeee f (rdxVal f r.rm r.op vs))

/-- Log entry 123 (DESIGN CHOICE). -/
def State.doRdx (s : State) (n sl : Nat) (x : StnSt) (w : Nat) : State :=
  let r := rdxOf x w
  let s := s.vecCount n r.k (vecCycles r.k (r.ctn * r.cts) false (r.ranges.any (fun p => s.inCluster p.1))) false
  let s := forN r.cts (fun i s => s.rdxSeg r i) s
  let s := if bit w 78 then
      s.onStn n sl (fun x =>
        let y := x.advance (bits w 103 100) (r.cts * vwidth r.k)
        if bits w 99 96 = bits w 103 100 then y else y.advance (bits w 99 96) (r.cts * r.ctd * vwidth r.k))
    else s
  s.acceptDone n sl w

end Sys2Proof.Machine
end

