-- ==== Sys2Proof/Machine/Matrix.lean ====
section
/-! DEFINITION. MMA and MMQ at issue (R214 to R226, R233, R272 to R274): the problem descriptor, its checks, what an
accepted problem takes, and the weight loads it makes known. -/

namespace Sys2Proof.Machine

/-! ## The problem descriptor (Table 7.4) -/

/-- A problem descriptor as read at issue. -/
structure PDesc where
  afmt : Nat
  wfmt : Nat
  accw : Nat
  acc16 : Bool
  kt : Bool
  num : Bool
  bkt : Nat
  asrc : Bool
  wsrc : Bool
  m : Nat
  n : Nat
  k : Nat
  aopd : Nat
  wopd : Nat
  lda : Nat
  ldw : Nat
  psb0 : Nat
  mtiles : Nat
  lastp : Bool
  pb : Nat
  ascSrc : Nat
  ascReg : Nat
  ascImm : Int
  wscSrc : Nat
  wscReg : Nat
  wscImm : Int
  mxb : Int
  caddr : Nat
  ldc : Nat
  /-- A reserved bit is 1. -/
  spare : Bool

def pdescOf (b : List Byte) : PDesc :=
  let asrc := bit (byteAt b 3) 0
  let wsrc := bit (byteAt b 3) 2
  { afmt := byteAt b 0 % 16, wfmt := byteAt b 0 / 16, accw := byteAt b 1 % 4, acc16 := bit (byteAt b 1) 2,
    kt := bit (byteAt b 1) 3, num := bit (byteAt b 1) 4, bkt := byteAt b 2 % 64, asrc := asrc, wsrc := wsrc,
    m := fieldAt b 4 4, n := fieldAt b 8 4, k := fieldAt b 12 4,
    aopd := if asrc then fieldAt b 16 8 % 32 else fieldAt b 16 8,
    wopd := if wsrc then fieldAt b 24 8 % 32 else fieldAt b 24 8,
    lda := fieldAt b 32 4, ldw := fieldAt b 36 4, psb0 := fieldAt b 40 2, mtiles := byteAt b 42,
    lastp := bit (byteAt b 43) 0, pb := fieldAt b 44 2, ascSrc := byteAt b 46 % 4, ascReg := bits (byteAt b 46) 4 2,
    ascImm := signed 8 (byteAt b 47), wscSrc := byteAt b 48 % 4, wscReg := bits (byteAt b 48) 4 2,
    wscImm := signed 8 (byteAt b 49), mxb := signed 8 (byteAt b 50), caddr := fieldAt b 52 8, ldc := fieldAt b 60 4,
    spare := bits (byteAt b 1) 7 5 != 0 || bits (byteAt b 2) 7 6 != 0 || bits (byteAt b 3) 7 3 != 0 || bit (byteAt b 3) 1
      || bits (byteAt b 43) 7 1 != 0 || bits (byteAt b 46) 7 5 != 0 || bits (byteAt b 48) 7 5 != 0 || byteAt b 51 != 0
      || (asrc && fieldAt b 16 8 / 32 != 0) || (!asrc && fieldAt b 16 8 / 2 ^ 48 != 0)
      || (wsrc && fieldAt b 24 8 / 32 != 0) || (!wsrc && fieldAt b 24 8 / 2 ^ 48 != 0) }

/-- The row groups of Table 2.1; `none` for a format that no native problem takes. -/
def fmtGroup (f : Nat) : Option Nat :=
  if f = 0 ∨ f = 1 then some 0
  else if 2 ≤ f ∧ f ≤ 7 then some 1
  else if f = 8 then some 2
  else if f = 9 ∨ f = 0xA then some 3
  else none

/-- Formats and accumulation do not combine (R78, R81, R105). -/
def formatBad (d : PDesc) : Bool :=
  if d.num then
    d.accw != 0 || !((([0, 1, 0xB].contains d.afmt) && [0, 1, 0xB].contains d.wfmt)
      || ([2, 3].contains d.afmt && [2, 3].contains d.wfmt))
  else
    match fmtGroup d.afmt, fmtGroup d.wfmt with
    | some a, some b => a != b || (if a = 3 then d.accw != 2 else decide (1 < d.accw))
    | _, _ => true

/-- The exponent that a scale source chooses for an operand at an address (Table 7.4). -/
def scaleExp (x : StnSt) (src reg : Nat) (imm : Int) : Int :=
  match src with
  | 1 => x.sc reg
  | 2 => imm
  | _ => 0

/-- Rows of a K pass: 512, 128, or 256 for quad and heritage. -/
def passRows (d : PDesc) (quad : Bool) : Nat := if d.num || quad then 256 else if d.kt then 128 else 512

/-- K passes of the problem. -/
def passesOf (d : PDesc) (quad : Bool) : Nat := ceilDiv d.k (passRows d quad)

/-- A zero problem (R220). -/
def PDesc.zero (d : PDesc) : Bool := d.m == 0 || d.n == 0 || d.k == 0

/-- Tiles in a weight set (R217). -/
def setTiles (d : PDesc) : Nat := if d.num || d.kt then 1 else 2

/-- The shape of the tiles of a weight set. -/
def setShape (d : PDesc) : Nat × Nat := if d.num then (256, 256) else if d.kt then (128, 512) else (256, 512)

/-- Most columns of a problem. -/
def maxN (d : PDesc) (quad : Bool) : Nat := if d.num || quad then 256 else 512

/-- Valid rows of output tile `i` (R218). -/
def tileVrows (d : PDesc) (rows i : Nat) : Nat := Nat.min rows (d.m - rows * i)

/-- The stream that a matrix slot reads activations from by queue number. -/
def State.aStrm (s : State) (n sl q : Nat) : Option StreamSt :=
  match s.queueStrm n q with
  | some y => if (match y.dst with | some (_, b, _) => b == sl | none => false) && !y.peg then some y else none
  | none => none

/-- The stream that the fly loader of a core reads weights from by queue number. -/
def State.wStrm (s : State) (n q : Nat) : Option StreamSt :=
  match s.queueStrm n q with
  | some y => if (match y.dst with | some (_, b, _) => decide (b < 2) | none => false) && !y.peg then some y else none
  | none => none

/-- The output stream of a chain. -/
def State.chainOut (s : State) (n sl : Nat) (c : Chain) : Option StreamSt := s.outStrm n sl c.oport

/-! ## The checks -/

/-- Check 4: a reserved bit, a field out of range, or a port or chain that is not there (R215, R233). -/
def State.probDescBad (s : State) (n sl : Nat) (d : PDesc) : Bool :=
  let nb := match s.sect with | some x => x.nbkt | none => 0
  d.spare || decide (nb ≤ d.bkt) || decide (16777215 < d.m) || d.mtiles == 0 || decide (4 < d.mtiles)
    || ((d.asrc || d.wsrc) && d.pb == 0) || d.ascSrc == 3 || d.wscSrc == 3
    || (d.asrc && d.ascSrc != 0) || (d.wsrc && d.wscSrc != 0) || d.caddr != 0 || d.ldc != 0
    || (!d.asrc && d.lda % 64 != 0) || (!d.wsrc && d.ldw % 64 != 0)
    || (d.asrc && (s.aStrm n sl d.aopd).isNone) || (d.wsrc && (s.wStrm n d.wopd).isNone)
    || (s.newestChain (2 * n + sl)).isNone

/-- Check 5 (R78, R81, R215). -/
def probFormatBad (x : StnSt) (d : PDesc) : Bool :=
  formatBad d
    || (!d.asrc && !fmtPerTensor d.afmt && scaleExp x d.ascSrc d.ascReg d.ascImm != 0)
    || (!d.wsrc && !fmtPerTensor d.wfmt && scaleExp x d.wscSrc d.wscReg d.wscImm != 0)

/-- Check 7 (R218, R274). -/
def State.probExtentBad (s : State) (n sl : Nat) (d : PDesc) (quad : Bool) (o : StreamSt) : Bool :=
  decide (o.rows * d.mtiles < d.m) || decide (o.cols < d.n) || decide (maxN d quad < d.n)
    || ((d.asrc || d.wsrc) && decide (d.pb < passesOf d quad))
    || (d.asrc && (match s.aStrm n sl d.aopd with
        | some y => y.rows != o.rows || y.cols != passRows d quad || y.mxcol
        | none => true))
    || (d.wsrc && (match s.wStrm n d.wopd with
        | some y => (y.rows, y.cols) != setShape d || (fmtMx d.wfmt && !y.mxcol) || (!fmtMx d.wfmt && y.mxcol)
        | none => true))
    || (match (s.dr (2 * n + sl)).block with
        | some b => b != (d.m, d.mtiles)
        | none => false)

/-- The ranges of operands at addresses (R216). -/
def probRanges (d : PDesc) : List (Nat × Nat) :=
  (if d.asrc then [] else [(d.aopd, stridedSpan d.afmt false d.m d.k d.lda)])
    ++ (if d.wsrc then [] else [(d.wopd, stridedSpan d.wfmt true d.k d.n d.ldw)])

/-- Check 10 (R94, R226). -/
def psbSpanBad (d : PDesc) (quad : Bool) (rows : Nat) : Bool :=
  let twin := !d.num && d.accw != 2 && decide (128 < passesOf d quad)
  let cap := if quad then (if twin then 256 else 512) else if twin then 512 else 1024
  decide (cap < d.psb0 + rows * d.mtiles)

/-- Check 11 for a member of a quad group (R225). -/
def quadBad (x : StnSt) (d : PDesc) (q : Nat) : Bool :=
  d.wsrc || d.num ||
    (match x.group with
     | some (_, qs, b) =>
       let f := pdescOf b
       qs.contains q || decide (4 ≤ qs.length) || f.afmt != d.afmt || f.wfmt != d.wfmt || f.accw != d.accw
         || f.acc16 != d.acc16 || passesOf f true != passesOf d true
     | none => false)

/-- MMA and MMQ issued by a slot. -/
def CoreSt.mm (c : CoreSt) (sl : Nat) : Nat := if sl = 0 then c.mm0 else c.mm1

/-- Both matrix slots of a core are bound. -/
def State.bothBound (s : State) (n : Nat) : Bool := (s.stn? n 0).isSome && (s.stn? n 1).isSome

/-- The partner's record of the same ordinal, when the other slot has issued it (R224). -/
def State.partner (s : State) (n sl : Nat) : Option WeightPair :=
  firstWhere (fun p => p.num == (s.core n).mm sl && p.bySlot != sl) (s.core n).pairs

/-- Check 12 (R224): the one that issues second does not agree. Log entry 128 (DEDUCED). -/
def State.wshareBad (s : State) (n sl op q : Nat) (gend : Bool) (d : PDesc) : Bool :=
  if !s.bothBound n then false
  else match s.partner n sl with
    | none => false
    | some p =>
      let f := pdescOf p.desc
      p.opcode != op || f.wfmt != d.wfmt || f.kt != d.kt || f.num != d.num || (op == 0x11 && (p.q != q || p.gend != gend))
        || (!p.zero && !d.zero &&
            (f.wsrc != d.wsrc || f.wopd != d.wopd || f.ldw != d.ldw || f.k != d.k || f.pb != d.pb))

/-- The checks of MMA and MMQ after the word's (R208). -/
def State.judgeMm (s : State) (quad : Bool) (n sl : Nat) (x : StnSt) (w : Nat) : Option Nat :=
  let a := descAddr x w
  let d := pdescOf (s.bytes a 64)
  if s.descBad n x w then some 3
  else if s.probDescBad n sl d then some 4
  else if probFormatBad x d then some 5
  else match s.newestChain (2 * n + sl) with
    | none => some 4
    | some c =>
      match s.chainOut n sl c with
      | none => some 4
      | some o =>
        if (match s.sect with | some y => y.bucket | none => 0) ≠ d.bkt then some 6
        else if s.probExtentBad n sl d quad o then some 7
        else if (!d.asrc && !aligned d.aopd 64) || (!d.wsrc && !aligned d.wopd 64) then some 3
        else match s.rangesFault (s.nearOk n) (probRanges d) with
          | some f => some f
          | none =>
            if psbSpanBad d quad o.rows then some 9
            else if quad && quadBad x d (bits w 95 94) then some 10
            else if s.wshareBad n sl (wOp w) (bits w 95 94) (bit w 93) d then some 11
            else none

/-! ## Room (R210, R111) -/

/-- The problem's passes of activation tiles, with those taken and discarded (R217). -/
def Problem.aPasses (p : Problem) : Nat :=
  let d := pdescOf p.desc
  if d.asrc then d.pb else p.passes

/-- Beats or activation tiles of the problem are still to come. -/
def Problem.open_ (p : Problem) : Bool := decide (p.pass < p.aPasses)

/-- Problems in hand on an engine, a quad group counting as one (R210). -/
def EngineSt.inHand (x : EngineSt) : Nat :=
  ((x.probs.filter (fun p => p.open_)).foldl (fun (acc : List Nat) p => if acc.contains p.pair then acc else acc ++ [p.pair]) []).length

/-- PSB rows from and to (exclusive) of the problem's unreleased tiles, in its half of the buffer. -/
def Problem.span (p : Problem) : Nat × Nat :=
  let d := pdescOf p.desc
  (d.psb0 + p.rows * p.released, d.psb0 + p.rows * d.mtiles)

/-- Two problems share PSB rows: full and heritage problems use every column of a row, a quadrant its own (Table
2.5). -/
def psbMeets (qa qb : Option Nat) (a b : Nat × Nat) : Bool :=
  let abs := fun (q : Option Nat) (r : Nat × Nat) => match q with
    | some k => if 2 ≤ k then (r.1 + 512, r.2 + 512) else r
    | none => r
  let x := abs qa a
  let y := abs qb b
  let cols := match qa, qb with
    | some i, some j => i % 2 == j % 2
    | _, _ => true
  cols && decide (x.1 < y.2) && decide (y.1 < x.2)

/-- A row that the new problem's first pass targets is still allocated (R111). -/
def State.psbTaken (s : State) (e : Nat) (quad : Option Nat) (d : PDesc) (rows : Nat) : Bool :=
  !d.zero && (s.eng e).probs.any (fun p =>
    decide (p.released < (pdescOf p.desc).mtiles) && !(pdescOf p.desc).zero
      && psbMeets p.quad quad p.span (d.psb0, d.psb0 + rows * d.mtiles))

/-- MMA or MMQ does not find room yet: the engine has stopped, holds two problems in hand, or a PSB row is
allocated. -/
def State.mmWaits (s : State) (quad : Bool) (n sl : Nat) (x : StnSt) (w : Nat) : Bool :=
  let e := 2 * n + sl
  let d := pdescOf (s.bytes (descAddr x w) 64)
  let full := decide (2 ≤ (s.eng e).inHand) && !(quad && x.group.isSome)
  if (s.eng e).stopped || full then true
  else if (s.judgeMm quad n sl x w).isSome then false
  else match s.newestChain e with
    | none => false
    | some c => match s.chainOut n sl c with
      | none => false
      | some o => s.psbTaken e (if quad then some (bits w 95 94) else none) d o.rows

/-! ## Acceptance -/

/-- CO_INHAND follows the units of a core (Table 7.10). -/
def State.handView (s : State) (n : Nat) : State :=
  let s := (s.put F.CO_INHAND_ME0 (Nat.min (s.eng (2 * n)).inHand 3) n).put F.CO_INHAND_ME1 (Nat.min (s.eng (2 * n + 1)).inHand 3) n
  let pend := fun e => if (s.dr e).next.isSome then 1 else 0
  (s.put F.CO_INHAND_DR0_PEND (pend (2 * n)) n).put F.CO_INHAND_DR1_PEND (pend (2 * n + 1)) n

/-- The cursor of the newest chain moves on by one problem, and the row block's M and MTILES are kept (R273, R274). -/
def State.advanceCursor (s : State) (e : Nat) (c : Chain) (d : PDesc) (rows cols : Nat) : State :=
  let x := s.dr e
  let col := x.curC + cols
  if c.nt * cols ≤ col then s.setDr e { x with curC := 0, curR := x.curR + rows * d.mtiles, block := none }
  else s.setDr e { x with curC := col, block := some (d.m, d.mtiles) }

/-- The per-firing counts of an accepted problem: output tiles, activation tiles, side tiles and statistics tiles
(R166, R243). -/
def State.countProblem (s : State) (n sl : Nat) (c : Chain) (d : PDesc) (quad lastN : Bool) : State :=
  let s := s.countPort n sl c.oport d.mtiles
  let s := if d.asrc then
      match s.aStrm n sl d.aopd with
      | some y => match y.dst with
        | some (_, _, p) => s.countPort n sl (32 + p) (d.mtiles * d.pb)
        | none => s
      | none => s
    else s
  let s := forEach ([0, 1].filter (fun i => c.side i != 0xFF && c.stages.any (fun r => stageCode r == 5 && byteAt r 4 == i)))
    (fun i s => s.countPort n sl (32 + c.side i) d.mtiles) s
  let _ := quad
  if lastN && c.has 0xB then s.countPort n sl c.statsPort d.mtiles else s

/-- Weight tiles taken by a pair count once, at the consumer's port (R243). -/
def State.countWeights (s : State) (n : Nat) (d : PDesc) (sets : Nat) : State :=
  if d.wsrc then
    match s.wStrm n d.wopd with
    | some y => match y.dst with
      | some (_, b, p) => s.countPort n b ((if y.kind = 5 then 64 else 32) + p) (sets * setTiles d)
      | none => s
    | none => s
  else s

/-- A job enters the loader's list. -/
def State.addJob (s : State) (n : Nat) (j : LoadJob) : State :=
  if j.passes = 0 ∧ j.extra = 0 then s else s.setCore n { s.core n with jobs := (s.core n).jobs ++ [j] }

/-- The fly loads that one problem or quad group needs (R217, R224, R226): its passes, then the padding sets. -/
def loadJobOf (pair : Nat) (quad : Bool) (parts : List LoadPart) : LoadJob :=
  match parts with
  | [] => ⟨pair, 0, 0, [], 0⟩
  | p :: _ =>
    let d := pdescOf p.desc
    let k := passesOf d quad
    ⟨pair, 0, k, parts, if d.wsrc then d.pb - k else 0⟩

/-- The records of a quad group's members, or of one MMA, by ordinals `lo … hi` of a slot. -/
def CoreSt.recsOf (c : CoreSt) (sl lo hi : Nat) : List WeightPair :=
  c.pairs.filter (fun p => p.bySlot == sl && decide (lo ≤ p.num) && decide (p.num ≤ hi))

def partOf (op : Nat) (r : WeightPair) : LoadPart := ⟨if op = 0x11 then some r.q else none, r.desc, r.ew⟩

/-- Weights of the instruction or group that has just closed, where only one matrix slot of the core is bound.
Log entry 111 (DEDUCED). -/
def State.loadAlone (s : State) (n sl op lo hi : Nat) : State :=
  let recs := (s.core n).recsOf sl lo hi
  let s := s.setCore n { s.core n with pairs := [] }
  match recs.filter (fun r => !r.zero) with
  | [] =>
    -- a zero problem takes and discards its padding sets (R220)
    match recs with
    | r :: _ =>
      let d := pdescOf r.desc
      if d.wsrc then (s.countWeights n d d.pb).addJob n ⟨lo, 0, 0, [partOf op r], d.pb⟩ else s
    | [] => s
  | r :: rs =>
    let d := pdescOf r.desc
    (s.countWeights n d d.pb).addJob n (loadJobOf lo (op == 0x11) ((r :: rs).map (partOf op)))

/-- Weights of a pair of instructions or groups, both matrix slots bound: known at the first of the two when none of its
members is a zero problem, else at the second (R224). Log entry 111 (DEDUCED). -/
def State.loadPair (s : State) (n sl op lo hi : Nat) : State :=
  let c := s.core n
  let own := c.recsOf sl lo hi
  let other := c.recsOf (1 - sl) lo hi
  let first := decide (other.length < own.length)
  if first then
    if own.any (fun r => r.zero) then s
    else
      match own with
      | [] => s
      | r :: _ =>
        let d := pdescOf r.desc
        let s := s.setCore n { c with pairs := c.pairs.map (fun p => if own.contains p then { p with known := true } else p) }
        (s.countWeights n d d.pb).addJob n (loadJobOf lo (op == 0x11) (own.map (partOf op)))
  else
    let s := s.setCore n { c with pairs := c.pairs.filter (fun p => !(own.contains p || other.contains p)) }
    if other.any (fun r => r.known) then s
    else
      let live := own.filterMap (fun r =>
        if !r.zero then some r
        else firstWhere (fun (p : WeightPair) => p.num == r.num && !p.zero) other)
      match live with
      | r :: rs =>
        let d := pdescOf r.desc
        (s.countWeights n d d.pb).addJob n (loadJobOf lo (op == 0x11) ((r :: rs).map (partOf op)))
      | [] =>
        -- both zero: slot 0's padding sets are taken once (R224)
        match (if sl = 0 then own else other) with
        | r :: _ =>
          let d := pdescOf r.desc
          if d.wsrc then (s.countWeights n d d.pb).addJob n ⟨lo, 0, 0, [partOf op r], d.pb⟩ else s
        | [] => s

/-- A filler ramp back to full density begins when MMA, MMQ or SLD issues below 100 %; with RAMP 0 it takes no
time (R70, R71). -/
def State.rampUp (s : State) (e : Nat) : State :=
  let x := s.eng e
  if 64 ≤ x.dens then s
  else if s.fld F.ME_FILL_X_RAMP e = 0 then s.setEng e { x with dens := 64, ramp := none }
  else s.setEng e { x with ramp := some true }

/-- An accepted MMA or MMQ (R221, R226, R273): the problem joins its engine, takes the cursor, and its weights become
known to the loader. -/
def State.doMm (s : State) (quad : Bool) (n sl : Nat) (x : StnSt) (w : Nat) : State :=
  let e := 2 * n + sl
  let b := s.bytes (descAddr x w) 64
  let d := pdescOf b
  match s.newestChain e with
  | none => s
  | some c =>
    match s.chainOut n sl c with
    | none => s
    | some o =>
      let id := s.nextId n
      let ord := (s.core n).mm sl
      let pair := match x.group with
        | some (g, _, _) => if quad then g else ord
        | none => ord
      let gend := !quad || bit w 93
      let lastN := decide (c.nt * o.cols ≤ (s.dr e).curC + o.cols)
      let p : Problem :=
        { id := id, heritage := d.num, quad := if quad then some (bits w 95 94) else none, pair := pair, desc := b,
          rows := o.rows, cols := o.cols, passes := if d.zero then 0 else passesOf d quad,
          ea := scaleExp x d.ascSrc d.ascReg d.ascImm, ew := scaleExp x d.wscSrc d.wscReg d.wscImm,
          row0 := (s.dr e).curR, col0 := (s.dr e).curC, lastN := lastN, chain := c.serial, closed := gend }
      let y := s.eng e
      let s := s.setEng e { y with probs := (y.probs.map (fun r => if gend && r.pair == pair then { r with closed := true } else r)) ++ [p] }
      let s := (s.advanceCursor e c d o.rows o.cols).countProblem n sl c d quad lastN
      let k := s.core n
      let r : WeightPair := ⟨ord, sl, b, wOp w, bits w 95 94, bit w 93, d.zero, p.ew, false⟩
      let s := s.setCore n { k with pairs := k.pairs ++ [r], mm0 := if sl = 0 then k.mm0 + 1 else k.mm0,
                                    mm1 := if sl = 0 then k.mm1 else k.mm1 + 1 }
      let s := if gend then (if s.bothBound n then s.loadPair n sl (wOp w) pair ord else s.loadAlone n sl (wOp w) pair ord) else s
      let s := s.onStn n sl (fun x => { x with group :=
        if gend then none
        else match x.group with
          | some (g, qs, f) => some (g, qs ++ [bits w 95 94], f)
          | none => some (ord, [bits w 95 94], b) })
      ((s.acceptOnly n sl w).rampUp e).handView n

end Sys2Proof.Machine
end

