-- ==== Sys2Proof/Machine/Engine.lean ====
section
/-! DEFINITION. The matrix engine at work (chapter 2): the fly loader, beats, the check of a beat with the miss ladder,
the PSB, and the even-load filler. -/

namespace Sys2Proof.Machine

/-! ## Units -/

/-- A matrix slot has a pitched station on a usable engine of a core that is not fenced: the engines that the fly loader
waits for (R46). Log entry 111 (DEDUCED). -/
def State.engBound (s : State) (n sl : Nat) : Bool :=
  let e := 2 * n + sl
  (s.stn? n sl).isSome && !s.flag F.ME_STATUS_UNAVAIL e && !s.flag F.ME_STATUS_CORE_FENCED e

/-- The cluster of a core has its clock: it neither dozes nor is in bivouac. -/
def State.coreRuns (s : State) (n : Nat) : Bool := s.fld F.BC_CL_STATE (coreCluster n) == 0

/-- Activation vectors in a beat (Table 2.1, R107). Log entry 112 (DESIGN CHOICE). -/
def beatVectors (d : PDesc) : Nat :=
  if d.num then 1
  else match fmtGroup d.afmt with
    | some 1 => if d.accw = 1 then 2 else 1
    | some 2 => if d.accw = 1 then 4 else 2
    | _ => 1

/-- How the engine sums the problem's products. -/
def numMode (d : PDesc) : NumMode :=
  if d.num then .heritage
  else if d.accw = 2 then .int (d.afmt == 0xA || d.wfmt == 0xA) d.mxb
  else .native (accFmt d.accw d.acc16)

/-- The height of a pass: its valid K rows (R90). -/
def passHeight (d : PDesc) (quad : Bool) (pass : Nat) : Nat :=
  Nat.min (passRows d quad) (d.k - pass * passRows d quad)

/-! ## Operands (R216, R276) -/

/-- The activation vector of one output row in a pass, from its address or from a tile; masked positions are 0.
Log entry 125 (DEDUCED). -/
def State.actVec (s : State) (d : PDesc) (quad : Bool) (tile : Option (List Byte)) (row lrow pass : Nat) (ea : Int) : Operand :=
  let kt := passRows d quad
  let h := passHeight d quad pass
  let ok := fun j => decide (row < d.m) && (match tile with
    | none => true
    | some t => decide (lrow < tVrows t) && decide (j < tVcols t))
  let code := fun j => if !ok j then 0 else match tile with
    | none => s.stridedCode d.afmt d.aopd d.lda row (pass * kt + j)
    | some t => tCode t lrow j
  let sc := fun b =>
    if !((upFrom (32 * b) 32).any (fun j => decide (j < h) && ok j)) then 256
    else if !fmtMx d.afmt then 127
    else match tile with
      | none => s.stridedScaleRow d.afmt d.aopd d.lda d.k row (pass * kt / 32 + b)
      | some t => tScaleCode t (lrow * (tCols t / 32) + b)
  ⟨d.afmt, [(List.range h).map code], [(List.range (ceilDiv h 32)).map sc],
   [match tile with | none => ea | some t => tScale t]⟩

/-- The weights of a pass at an address. -/
def State.weightsAt (s : State) (d : PDesc) (quad : Bool) (pass : Nat) (ew : Int) : Operand :=
  let k0 := pass * passRows d quad
  let h := passHeight d quad pass
  ⟨d.wfmt, (List.range h).map (fun k => (List.range d.n).map (s.stridedCode d.wfmt d.wopd d.ldw (k0 + k))),
   (List.range (ceilDiv h 32)).map (fun g => (List.range d.n).map (fun c =>
     if fmtMx d.wfmt then s.stridedScaleCol d.wopd d.ldw d.k (k0 / 32 + g) c else 127)),
   List.replicate h ew⟩

/-- The weights of a pass in the tiles of a set. Log entry 125 (DEDUCED). -/
def weightsIn (d : PDesc) (quad : Bool) (pass : Nat) (ts : List (List Byte)) : Operand :=
  let h := passHeight d quad pass
  let th := (setShape d).1
  let tile := fun k => ts.getD (k / th) []
  let ok := fun k c => decide (k % th < tVrows (tile k)) && decide (c < tVcols (tile k))
  ⟨d.wfmt,
   (List.range h).map (fun k => (List.range d.n).map (fun c => if ok k c then tCode (tile k) (k % th) c else 0)),
   (List.range (ceilDiv h 32)).map (fun g => (List.range d.n).map (fun c =>
     if !((upFrom (32 * g) 32).any (fun k => decide (k < h) && ok k c)) then 256
     else if fmtMx d.wfmt then tScaleCode (tile (32 * g)) (32 * g % th / 32 * tCols (tile (32 * g)) + c)
     else 127)),
   (List.range h).map (fun k => tScale (tile k))⟩

/-! ## Fly loads (R43 to R47) -/

/-- A load by number. -/
def State.loadNo (s : State) (n num : Nat) : Option FlyLoad := firstWhere (fun f => f.num == num) (s.core n).loads

/-- The complete load of a pass of a pair. -/
def State.loadFor (s : State) (n pair pass : Nat) : Option FlyLoad :=
  firstWhere (fun f => f.pair == pair && f.pass == pass && f.complete) (s.core n).loads

/-- The engine has issued its last beat that uses a load (R44). -/
def State.issuedAll (s : State) (n sl : Nat) (f : FlyLoad) : Bool :=
  let x := s.eng (2 * n + sl)
  decide (f.pair < (s.core n).mm sl)
    && x.probs.all (fun p => p.pair != f.pair || (p.closed && (decide (p.passes ≤ f.pass) || decide (f.pass < p.pass))))
    && x.again.all (fun b => b.load != f.num)

/-- Every beat of the engine that uses a load has passed its check (R47). -/
def State.checkedAll (s : State) (n sl : Nat) (f : FlyLoad) : Bool :=
  s.issuedAll n sl f && (s.eng (2 * n + sl)).pipe.all (fun b => b.load != f.num)

/-- A property of every engine that the loader waits for. -/
def State.everyBound (s : State) (n : Nat) (p : Nat → Bool) : Bool :=
  [0, 1].all (fun sl => !s.engBound n sl || p sl)

/-- PLANE, FLY_READY and BUSY of both engines of a core (Table 2.9). -/
def State.meView (s : State) (n : Nat) : State :=
  forEach [0, 1] (fun sl s =>
    let e := 2 * n + sl
    let s := s.put F.ME_STATUS_BUSY (if (s.eng e).pipe.isEmpty then 0 else 1) e
    let ready := (s.core n).loads.any (fun f => f.complete && f.num % 2 != s.fld F.ME_STATUS_PLANE e && !s.issuedAll n sl f)
    s.put F.ME_STATUS_FLY_READY (if ready then 1 else 0) e) s

/-- Loads whose every beat has passed its check leave the buffers, and their weight tiles' credits go back (R47). -/
def State.releaseLoads (s : State) (n : Nat) : State :=
  let free := (s.core n).loads.filter (fun f => f.complete && s.everyBound n (fun sl => s.checkedAll n sl f))
  let s := s.setCore n { s.core n with loads := (s.core n).loads.filter (fun f => !free.contains f) }
  forEach free (fun f s => match f.stream with
    | some id => forN f.held (fun _ s => s.dropHeld id) s
    | none => s) s

/-- A problem is finished: its tiles are released, every queue tile it takes has been taken, and no weight tile of its
pair is held or still to come (R221). -/
def State.probFinished (s : State) (n : Nat) (p : Problem) : Bool :=
  p.released == (pdescOf p.desc).mtiles && p.closed && !p.open_ && p.atile.isNone
    && !(((pdescOf p.desc).wsrc) && ((s.core n).loads.any (fun f => f.pair == p.pair) || (s.core n).jobs.any (fun j => j.pair == p.pair)))

/-- Finished problems leave the engine, and their instructions complete. -/
def State.settleProbs (s : State) (e : Nat) : State :=
  let n := engCore e
  let done := (s.eng e).probs.filter (fun p => s.probFinished n p)
  let s := s.setEng e { s.eng e with probs := (s.eng e).probs.filter (fun p => !done.contains p) }
  (forEach done (fun p s => s.complete n (e % 2) p.id) s).handView n

/-- Both engines of a core settle. -/
def State.settleCore (s : State) (n : Nat) : State := (((s.releaseLoads n).settleProbs (2 * n)).settleProbs (2 * n + 1)).meView n

/-- The tiles of one weight set leave their queue: `none` while they have not arrived. -/
def State.setReady (s : State) (n : Nat) (d : PDesc) : Option (StreamSt × List (List Byte)) :=
  match s.wStrm n d.wopd with
  | some y => if setTiles d ≤ y.queue.length then some (y, y.queue.take (setTiles d)) else none
  | none => none

/-- `k` tiles leave the head of a queue. -/
def State.takeTiles (s : State) (id k : Nat) : State := forN k (fun _ s => s.takeHead id) s

/-- A taken tile's format is not the one that the descriptor names (R217). -/
def State.takenBad (s : State) (n : Nat) (y : StreamSt) (fmt : Nat) : Option State :=
  if y.fmt = fmt then none else if y.closed then some s else some (s.protoFault n y.qnum 2 y.id)

/-- The loader takes up its first job: it discards one padding set, or starts the next pass's load (R46, R217).
Log entry 114 (DEDUCED). -/
def State.loadStart (s : State) (n : Nat) (j : LoadJob) (rest : List LoadJob) : State :=
  let c := s.core n
  let keep := fun (j : LoadJob) => if j.passes ≤ j.pass ∧ j.extra = 0 then rest else j :: rest
  match j.parts with
  | [] => s
  | p :: _ =>
    let d := pdescOf p.desc
    if j.passes ≤ j.pass then
      match s.setReady n d with
      | none => s
      | some (y, ts) =>
        match s.takenBad n y d.wfmt with
        | some t => t
        | none =>
          let s := s.setCore n { c with jobs := keep { j with extra := j.extra - 1 } }
          let s := s.takeTiles y.id ts.length
          (forN ts.length (fun _ s => s.dropHeld y.id) s).settleCore n
    else if c.loads.any (fun f => !f.complete)
        || !(c.loads.all (fun f => decide (c.loadNum < f.num + 2) || s.everyBound n (fun sl => s.issuedAll n sl f))) then s
    else
      let quad := p.quad.isSome
      let jobs := keep { j with pass := j.pass + 1 }
      let put := fun (s : State) (sets : List WeightSet) (held : Nat) (id : Option Nat) =>
        s.setCore n { s.core n with
          jobs := jobs, loadNum := c.loadNum + 1,
          loads := c.loads ++ [⟨c.loadNum, j.pair, j.pass, sets, held, id, false⟩] }
      if d.wsrc then
        match s.setReady n d with
        | none => s
        | some (y, ts) =>
          match s.takenBad n y d.wfmt with
          | some t => t
          | none => put (s.takeTiles y.id ts.length) [⟨none, weightsIn d quad j.pass ts⟩] ts.length (some y.id)
      else put s (j.parts.map (fun p => ⟨p.quad, s.weightsAt (pdescOf p.desc) quad j.pass p.ew⟩)) 0 none

/-- FLY_LOAD_START (R46): the loader starts a load once every bound engine of the core has released the fly plane.
Log entry 111 (DEDUCED). -/
def execFlyLoadStart (n : Fin 16) (s : State) : Out? :=
  match (s.core n).jobs with
  | [] => .next s
  | j :: rest => .next (if s.coreRuns n && [0, 1].all (fun sl => (s.eng (2 * n.val + sl)).rebuild.isNone)
                        then (s.loadStart n j rest).meView n else s)

/-- FLY_LOAD_DONE (R45, R59): the last rows of a tile are written. A rebuild ends before the load that it
interrupted. -/
def execFlyLoadDone (n : Fin 16) (s : State) : Out? :=
  if !s.coreRuns n then .next s
  else if [0, 1].any (fun sl => (s.eng (2 * n.val + sl)).rebuild.isSome) then
    .next ((forEach [0, 1] (fun sl s => s.setEng (2 * n.val + sl) { s.eng (2 * n.val + sl) with rebuild := none }) s).meView n)
  else
    .next ((s.setCore n { s.core n with loads := (s.core n).loads.map (fun f => { f with complete := true }) }).meView n)

/-! ## Beats (R37, R41, R45, R50, R272) -/

/-- The first open problem of an engine and the open members of its group. Log entry 113 (DEDUCED). -/
def EngineSt.current (x : EngineSt) : List Problem :=
  match firstWhere (fun p => p.open_) x.probs with
  | none => []
  | some p => x.probs.filter (fun q => q.pair == p.pair && q.open_)

/-- A problem kept again in its engine, and the passes of finished members moved on. -/
def State.setProb (s : State) (e : Nat) (p : Problem) : State :=
  s.setEng e { s.eng e with probs := (s.eng e).probs.map (fun q => if q.id = p.id then p else q) }

/-- Output tiles that beats compute: those with a valid row (R272). -/
def liveTiles (d : PDesc) (rows : Nat) : Nat := Nat.min d.mtiles (ceilDiv d.m rows)

/-- The problem goes on to its next tile, or to its next pass. -/
def Problem.nextTile (p : Problem) : Problem :=
  let d := pdescOf p.desc
  let last := if d.asrc then d.mtiles else liveTiles d p.rows
  if p.tile + 1 < last then { p with tile := p.tile + 1, row := 0, atile := none }
  else { p with pass := p.pass + 1, tile := 0, row := 0, atile := none }

/-- The problem's next queue tile carries no vector to compute: a pass beyond its own, a zero problem, or an output tile
without valid rows. Log entry 114 (DEDUCED). -/
def Problem.discards (p : Problem) : Bool :=
  let d := pdescOf p.desc
  d.asrc && (decide (p.passes ≤ p.pass) || decide (liveTiles d p.rows ≤ p.tile))

/-- Take a tile and give its credit back at once. Log entry 114 (DEDUCED). -/
def State.discardTile (s : State) (e : Nat) (p : Problem) : State :=
  let n := engCore e
  let d := pdescOf p.desc
  match s.aStrm n (e % 2) d.aopd with
  | none => s
  | some y =>
    if y.queue.isEmpty then s
    else match s.takenBad n y d.afmt with
      | some t => t
      | none => (((s.takeHead y.id).dropHeld y.id).setProb e p.nextTile).settleCore n

/-- The vectors that a problem gives to one beat, the problem after it, and the stream whose tile it has finished
with; `none` while its tile has not arrived. Log entry 112 (DESIGN CHOICE). -/
def State.beatOf (s : State) (e : Nat) (p : Problem) : Option (List BeatVec × Problem × Option Nat) :=
  let n := engCore e
  let d := pdescOf p.desc
  let quad := p.quad.isSome
  let y := if d.asrc then s.aStrm n (e % 2) d.aopd else none
  let tile := match p.atile with
    | some t => some t
    | none => match y with
      | some y => y.queue.head?
      | none => none
  if d.asrc && (tile.isNone || (match y with | some y => y.fmt != d.afmt | none => true)) then none
  else
    let k := Nat.min (beatVectors d) (p.rows - p.row)
    let src := if d.asrc then tile else none
    let vecs := (List.range k).map (fun i =>
      let r := p.row + i
      ⟨p.id, p.rows * p.tile + r, s.actVec d quad src (p.rows * p.tile + r) r p.pass p.ea,
       match src with | some t => tSeq t | none => 0⟩)
    let fin := decide (p.rows ≤ p.row + k)
    let p := if fin then p.nextTile else { p with row := p.row + k, atile := src }
    some (vecs, p, if fin then y.map (fun y => y.id) else none)

/-- Account for a tile that a beat has begun or finished reading. -/
def State.afterBeat (s : State) (e : Nat) (old new : Problem) (fin : Option Nat) : State :=
  let d := pdescOf old.desc
  let s := if d.asrc && old.atile.isNone then
      (match s.aStrm (engCore e) (e % 2) d.aopd with | some y => s.takeHead y.id | none => s)
    else s
  let s := match fin with | some id => s.dropHeld id | none => s
  s.setProb e new

/-- A beat enters the ridge. -/
def State.enter (s : State) (e : Nat) (b : Beat) (mode : Nat) : State :=
  let x := s.eng e
  let s := s.setEng e { x with pipe := x.pipe ++ [b], beats := x.beats + 1, gap := 0 }
  (((s.put F.ME_STATUS_PLANE b.load e).put F.ME_STATUS_MODE mode e).bump F.ME_CYC_BEAT_COUNT e).meView (engCore e)

/-- ME_STATUS.MODE of a problem's beats. -/
def Problem.mode (p : Problem) : Nat := if p.heritage then 2 else if p.quad.isSome then 1 else 0

/-- The next beat of the problem or group at work, or a queue tile that it takes and discards.
Log entry 113 (DEDUCED). -/
def State.newBeat (s : State) (e : Nat) : State :=
  let n := engCore e
  match (s.eng e).current with
  | [] => s
  | p :: ps =>
    let pass := ps.foldl (fun a q => Nat.min a q.pass) p.pass
    match firstWhere (fun (q : Problem) => q.pass == pass && q.discards) (p :: ps) with
    | some q => s.discardTile e q
    | none =>
      if !p.closed then s
      else match s.loadFor n p.pair pass with
        | none => s
        | some f =>
          let mem := (p :: ps).filter (fun q => q.pass == pass)
          match firstWhere (fun (q : Problem) => (pdescOf q.desc).asrc &&
              (match s.aStrm n (e % 2) (pdescOf q.desc).aopd with
               | some y => y.fmt != (pdescOf q.desc).afmt && !y.queue.isEmpty
               | none => false)) mem with
          | some q =>
            match s.aStrm n (e % 2) (pdescOf q.desc).aopd with
            | some y => (s.takenBad n y (pdescOf q.desc).afmt).getD s
            | none => s
          | none =>
            let parts := mem.map (fun q => (q, s.beatOf e q))
            if parts.any (fun t => t.2.isNone) then s
            else
              let outs := parts.filterMap (fun t => t.2.map (fun o => (t.1, o)))
              let s := forEach outs (fun o s => s.afterBeat e o.1 o.2.2.1 o.2.2.2) s
              let last := (s.eng e).probs.all (fun q => q.pair != p.pair || q.pass != pass || !q.open_)
              s.enter e ⟨pass, f.num, outs.flatMap (fun o => o.2.1), false, last⟩ p.mode

/-- BEAT_ISSUE (R37, R45, R58): a reissued beat first, else the next beat. -/
def execBeatIssue (e : Fin 32) (s : State) : Out? :=
  let n := engCore e
  let x := s.eng e
  if x.stopped || !s.coreRuns n || decide (s.fld F.ME_LAT_LAT e ≤ x.pipe.length) then .next s
  else match x.again with
    | b :: rest =>
      if x.rebuild = some b.load ∨ (s.loadNo n b.load).isNone then .next s
      else .next ((s.setEng e { x with again := rest }).enter e b (s.fld F.ME_STATUS_MODE e))
    | [] => .next (s.newBeat e)

/-! ## The check of a beat (R51 to R62) -/

/-- The exact value that faulty hardware adds to a column output. -/
def errVal (f : ColFault) : Val := .fin f.neg f.m f.e

/-- What faulty hardware adds to column `col` of vector `i`. Log entry 115 (DESIGN CHOICE). -/
def errAt (fs : List ColFault) (i col : Nat) : Val :=
  vsum ((fs.filter (fun f => f.vec == i && f.col == col)).map errVal)

/-- An exact value as an integer, toward zero. -/
def valInt (v : Val) : Int :=
  match v with
  | .fin sg m e =>
    let k : Int := if 0 ≤ e then (m * 2 ^ e.toNat : Nat) else (m / 2 ^ (-e).toNat : Nat)
    if sg then -k else k
  | _ => 0

/-- A column output with a fault's error in it. -/
def ColOut.err (m : NumMode) (o : ColOut) (x : Val) : ColOut :=
  if x.isZero then o
  else match m with
    | .native f => let t := rnA f (vadd o.t x); { o with out := t, t := t }
    | .heritage => { o with out := rn32 (vadd o.out x), prods := o.prods ++ [x] }
    | .int _ _ => { o with out := vadd o.out x, i := match o.i with | .add v => .add (v + valInt x) | .invalid => .invalid }

/-- The problem of a beat's vector. -/
def State.probOf (s : State) (e id : Nat) : Option Problem := firstWhere (fun p => p.id == id) (s.eng e).probs

/-- The weights of a load for a problem: its quadrant's set, and its own exponent for weights at an address. -/
def loadSet (f : FlyLoad) (p : Problem) : Option Operand :=
  match firstWhere (fun (w : WeightSet) => w.quad == p.quad) f.sets with
  | none => none
  | some w => some (if (pdescOf p.desc).wsrc then w.op else { w.op with exps := w.op.exps.map (fun _ => p.ew) })

/-- One vector of a beat with its problem, its weights and its column outputs. -/
structure Lane where
  prob : Problem
  vec : BeatVec
  w : Operand
  outs : List ColOut
  ix : Nat

/-- The lanes of a beat, with a fault's errors in their outputs. -/
def State.lanes (s : State) (e : Nat) (b : Beat) (fs : List ColFault) : List Lane :=
  match s.loadNo (engCore e) b.load with
  | none => []
  | some f => b.vecs.zipIdx.filterMap (fun v =>
      match s.probOf e v.1.prob with
      | none => none
      | some p => match loadSet f p with
        | none => none
        | some w =>
          let m := numMode (pdescOf p.desc)
          some ⟨p, v.1, w, (List.range w.width).map (fun c => (colOut m v.1.vec 0 w c).err m (errAt fs v.2 c)), v.2⟩)

/-- The weights that one check covers: the tile, or the tiles of both quadrants of a half (R54). -/
def State.halfWeights (s : State) (e : Nat) (b : Beat) (ls : List Lane) : List Operand :=
  match ls, s.loadNo (engCore e) b.load with
  | l :: _, some f => (f.sets.filter (fun w => w.quad.map (· / 2) == l.prob.quad.map (· / 2))).map (fun w =>
      match firstWhere (fun (p : Problem) => p.pair == f.pair && p.quad == w.quad) (s.eng e).probs with
      | some p => (loadSet f p).getD w.op
      | none => w.op)
  | _, _ => []

/-- The comparison of a group of lanes that one check covers: one vector in full and heritage mode, the vectors of a
half in quad mode (R52 to R56). `ws` are the half's weights. Log entry 115 (DESIGN CHOICE). -/
def laneJudge (shift : Nat) (fs : List ColFault) (ws : List Operand) (ls : List Lane) : Option Bool :=
  match ls with
  | [] => some true
  | l :: _ =>
    let m := numMode (pdescOf l.prob.desc)
    let cells := (ls.map (fun l => checkProds m l.vec.vec 0 l.w)).foldl addCells []
    let err := vsum (ls.map (fun l => errAt fs l.ix 512))
    let c := if err.isZero then checkOut m cells else vadd (checkOut m cells) err
    let a := (ls.map (fun l => maxAbs l.vec.vec 0 l.w.height)).foldl vmax vzero
    let t := ru32 (vmul a (ru32 (vsum (ws.map absWeights))))
    checkJudge m shift (ls.flatMap (fun l => l.outs.map (fun o => o.out))) c t

/-- The groups of lanes that are checked together: each lane alone, or the j-th vectors of the quadrants of a half. -/
def checkGroups (ls : List Lane) : List (List Lane) :=
  match ls with
  | [] => []
  | l :: _ =>
    if l.prob.quad.isNone then ls.map (fun l => [l])
    else
      let q := fun k => ls.filter (fun (l : Lane) => l.prob.quad == some k)
      let half := fun h => (List.range (Nat.max (q (2 * h)).length (q (2 * h + 1)).length)).map (fun j =>
        (q (2 * h))[j]?.toList ++ (q (2 * h + 1))[j]?.toList)
      half 0 ++ half 1

/-- The PSB row of an output row, counted over the whole buffer (Table 2.5). -/
def psbRow (p : Problem) (row : Nat) : Nat :=
  (pdescOf p.desc).psb0 + row + (match p.quad with | some k => if 2 ≤ k then 512 else 0 | none => 0)

/-- The key of a problem's PSB row: twice the row, plus the half of its columns. -/
def psbKey (p : Problem) (row : Nat) : Nat := 2 * psbRow p row + (match p.quad with | some k => k % 2 | none => 0)

/-- A PSB row that nothing has written. -/
def psbNone : PsbRow := ⟨0, .single, []⟩

/-- The entry of a column after a pass (R87, R95 to R99, R106). -/
def psbNext (m : NumMode) (narrow : Bool) (total pass : Nat) (e : PsbEnt) (o : ColOut) : PsbEnt :=
  match m with
  | .native f => psbAddF f narrow total pass e o.t
  | .int _ _ => psbAddI pass e o.i
  | .heritage => { hi := f32c (heritageSum (if pass = 1 then vzero else f32 e.hi) o.prods) }

/-- A lane's results are added to its PSB row. -/
def State.commitLane (s : State) (e : Nat) (b : Beat) (l : Lane) : State :=
  let d := pdescOf l.prob.desc
  let x := s.eng e
  let k := psbKey l.prob l.vec.row
  let old := x.psb.get k psbNone
  let pass := b.pass + 1
  let vals := l.outs.zipIdx.map (fun o =>
    psbNext (numMode d) (d.accw == 1) l.prob.passes pass (old.vals.getD o.2 {}) o.1)
  let row : PsbRow := ⟨l.prob.id, psbFormOf d.accw l.prob.passes pass l.prob.heritage, vals⟩
  let probs := if pass = l.prob.passes then
      x.probs.map (fun p => if p.id = l.prob.id then { p with done := p.done + 1 } else p)
    else x.probs
  s.setEng e { x with psb := x.psb.set k psbNone row, probs := probs }

/-- A beat's PSB writes commit, and its buffers are released (R47, R55). -/
def State.commitBeat (s : State) (e : Nat) (b : Beat) (ls : List Lane) : State :=
  let s := s.setEng e { s.eng e with pipe := (s.eng e).pipe.drop 1 }
  (forEach ls (fun l s => s.commitLane e b l) s).settleCore (engCore e)

/-- ME_CHK_LOG names the last missed vector (Table 2.10). -/
def State.logMiss (s : State) (e : Nat) (g : List Lane) : State :=
  match g with
  | [] => s
  | l :: _ =>
    let half := match l.prob.quad with | none => 0 | some k => k / 2 + 1
    ((s.put F.ME_CHK_LOG_PSB_ROW (psbRow l.prob l.vec.row) e).put F.ME_CHK_LOG_HALF half e).put F.ME_CHK_LOG_SEQ l.vec.seq e

/-- The DETAIL of CHK_SUSPECT and CHK_FENCE: the engine and its ME_CHK_LOG. -/
def State.chkDetail (s : State) (e : Nat) : List Nat := [e, (s.rd .ME_CHK_LOG e).toNat]

/-- SUSPECT_LIM recovered misses within the section set SUSPECT (R61). -/
def State.suspectLim (s : State) (e : Nat) : State :=
  let lim := s.fld F.ME_CHK_X_SUSPECT_LIM e
  if lim ≠ 0 ∧ lim ≤ (s.eng e).recovered then s.put F.ME_STATUS_SUSPECT 1 e else s

/-- A check miss of the beat at the end of the pipeline (R58 to R61). -/
def State.miss (s : State) (e : Nat) (b : Beat) : State :=
  let n := engCore e
  let x := s.eng e
  if s.flag F.ME_STATUS_SUSPECT e then
    -- third miss
    let s := s.setEng e { x with pipe := x.pipe.drop 1, stopped := true, misses := x.misses + 1 }
    ((s.fire 4 (160 + e)).raise 0x31 .sect n n s.sectId [n] (s.chkDetail e)).meView n
  else if b.missed then
    -- second miss
    let s := s.setEng e { x with pipe := x.pipe.drop 1, stopped := true, misses := x.misses + 1 }
    let s := (s.put F.ME_STATUS_SUSPECT 1 e).bumpSat F.ME_CHK_CNT_ESC e
    ((s.fire 4 (128 + e)).raise 0x30 .sect n n s.sectId [] (s.chkDetail e)).meView n
  else
    -- first miss: the beat and its followers issue again; a swapped-out tile is rebuilt
    let swapped := x.pipe.any (fun c => c.load != b.load)
    let again := ({ b with missed := true } :: x.pipe.drop 1) ++ x.again
    let s := s.setEng e { x with pipe := [], again := again, recovered := x.recovered + 1, misses := x.misses + 1,
                                 rebuild := if swapped then some b.load else x.rebuild }
    ((s.bumpSat F.ME_CHK_CNT_RECOV e).suspectLim e).meView n

/-- The check policy in force: values 1 and 2 act only in test service mode (R62). -/
def State.chkPolicy (s : State) (e : Nat) : Nat :=
  let v := s.fld F.ME_CHK_CHK_POLICY e
  if s.sectMode = 2 ∧ (v = 1 ∨ v = 2) then v else 0

/-- BEAT_CHECK (R55 to R62): the oldest beat of the pipeline is compared, and commits when every vector passes.
`fs` is what faulty hardware adds to its column outputs, and `adder` says that the two copies of the PSB adder
disagree (R57). Log entry 115 (DESIGN CHOICE). -/
def execBeatCheck (e : Fin 32) (fs : List ColFault) (adder : Bool) (s : State) : Out? :=
  match (s.eng e).pipe with
  | [] => .next s
  | b :: _ =>
    let ls := s.lanes e b fs
    let pol := s.chkPolicy e
    if !s.coreRuns (engCore e) then .next s
    else if pol = 2 then .next (s.commitBeat e b ls)
    else
      let gs := checkGroups ls
      let js := gs.map (fun g => (g, laneJudge (s.fld F.ME_CHK_X_TOL_SHIFT e) fs (s.halfWeights e b g) g))
      let bad := js.filter (fun j => j.2 == some false)
      let s := s.bumpSat F.ME_CHK_CNT_SKIP e 0 ((js.filter (fun j => j.2.isNone)).length)
      if bad.isEmpty && !adder then .next (s.commitBeat e b ls)
      else
        let s := s.logMiss e (match bad.getLast? with | some j => j.1 | none => gs.getLastD [])
        if pol = 1 then .next ((s.bumpSat F.ME_CHK_CNT_RECOV e).commitBeat e b ls)
        else .next (s.miss e b)

/-! ## The even-load filler (R69 to R72) -/

/-- The engine is bound to a pitched section, clocked, and its filler is on. -/
def State.fillerOn (s : State) (e : Nat) : Bool :=
  s.flag F.ME_FILL_FILL_EN e && (s.stn? (engCore e) (e % 2)).isSome && s.coreRuns (engCore e)

/-- FILLER_BEAT (R69): a filler beat takes an idle slot of a gap shorter than GAP_THR, or of a gap whose ramp has not
reached zero. -/
def execFillerBeat (e : Fin 32) (s : State) : Out? :=
  let x := s.eng e
  if s.fillerOn e && (decide (x.gap < s.fld F.ME_FILL_X_GAP_THR e) || (x.ramp.isSome && decide (0 < x.dens))) then
    .next ((s.setEng e { x with gap := x.gap + 1, alt := !x.alt }).bump F.ME_CYC_FILL_COUNT e)
  else .next s

/-- The filler's density begins to fall; with RAMP 0 it is 0 at once (R70). -/
def State.rampDown (s : State) (e : Nat) : State :=
  let x := s.eng e
  if s.fld F.ME_FILL_X_RAMP e = 0 then s.setEng e { x with dens := 0, ramp := none }
  else s.setEng e { x with ramp := some false }

/-- FILLER_RAMP_DOWN (R70): a gap has reached GAP_THR cycles. -/
def execFillerRampDown (e : Fin 32) (s : State) : Out? :=
  let x := s.eng e
  if s.fillerOn e && decide (s.fld F.ME_FILL_X_GAP_THR e ≤ x.gap) && decide (0 < x.dens) && x.ramp != some false then
    .next (s.rampDown e)
  else .next s

/-- A step of the ramp in 1/64 of full density: 64 linear steps, or four quarters (R70). -/
def rampStep (profile : Nat) : Nat := if profile = 1 then 16 else 1

/-- FILLER_RAMP_STEP (R70, R71): the density changes by one step of its profile. -/
def execFillerRampStep (e : Fin 32) (s : State) : Out? :=
  let x := s.eng e
  let k := rampStep (s.fld F.ME_FILL_X_PROFILE e)
  match x.ramp with
  | none => .next s
  | some false =>
    let d := x.dens - k
    .next (s.setEng e { x with dens := d, ramp := if d = 0 then none else some false })
  | some true =>
    let d := Nat.min 64 (x.dens + k)
    .next (s.setEng e { x with dens := d, ramp := if d = 64 then none else some true })

end Sys2Proof.Machine
end

