-- ==== Sys2Proof/Machine/Scale.lean ====
section
/-! DEFINITION. Scale tables (R143 to R147, R239, R240): entries, the raw-maximum atomic, commit, discard, and the
derivation of a tensor's exponent. -/

namespace Sys2Proof.Machine

/-- A step number that marks nothing open, or nothing committed. -/
def noStep : Nat := 0xFFFFFFFF

/-- The table bound to a core. -/
def State.tblOf (s : State) (n : Nat) : Nat := s.fld F.CO_NUM_TBL_LO_ADDR_LO n * 4096 + s.fld F.CO_NUM_TBL_HI_ADDR_HI n * 2 ^ 32

def State.tblBound (s : State) (n : Nat) : Bool := s.flag F.CO_NUM_STAT_TBL_BOUND n

/-! Header and entry fields (Table 5.3). -/

def State.tblCommitted (s : State) (t : Nat) : Nat := s.load t 4
def State.tblNent (s : State) (t : Nat) : Nat := s.load (t + 4) 2
def State.tblWorld (s : State) (t : Nat) : World := World.ofBit (bit (s.load (t + 6) 1) 0)
def entAddr (t i : Nat) : Nat := t + 128 * (i + 1)
def State.entHist (s : State) (a j : Nat) : Nat := s.load (a + 4 * j) 4
def State.entLast (s : State) (a : Nat) : Nat := s.load (a + 64) 4
def State.entValid (s : State) (a : Nat) : Nat := s.load (a + 68) 2
def State.entOpen (s : State) (a : Nat) : Nat := s.load (a + 72) 4
def State.entOpenStep (s : State) (a : Nat) : Nat := s.load (a + 76) 4
def State.entInit (s : State) (a : Nat) : Int := signed 8 (s.load (a + 80) 1)
def State.entFix (s : State) (a : Nat) : Int := signed 8 (s.load (a + 81) 1)

/-- A step is later than the last committed one (R144). -/
def State.laterThan (s : State) (t step : Nat) : Bool :=
  s.tblCommitted t == noStep || decide (s.tblCommitted t < step)

/-- A raw maximum arrives at the slice (R144). `t` is the table and `a` the entry. -/
def State.rawMax (s : State) (t a step code : Nat) : State :=
  if s.entOpenStep a = step then s.store (a + 72) 4 (Nat.max (s.entOpen a) code)
  else if s.laterThan t step then (s.store (a + 72) 4 code).store (a + 76) 4 step
  else s.store (t + 8) 4 (Nat.min (s.load (t + 8) 4 + 1) noStep)

/-- VALID with the slots of the steps after `last` and before `step` cleared, and the slot of `step` set. -/
def slotsAfter (valid last step : Nat) : Nat :=
  let from' := Nat.max (last + 1) (step - 16)
  let v := (upFrom from' (step - from')).foldl (fun v t => clrBit v (t % 16)) valid
  setBit v (step % 16)

/-- Nothing is open in an entry. -/
def State.entClose (s : State) (a : Nat) : State := (s.store (a + 72) 4 0).store (a + 76) 4 noStep

/-- Commit of one entry (R145, steps 1 and 2). -/
def State.entCommit (s : State) (a step : Nat) : State :=
  let v := slotsAfter (s.entValid a) (s.entLast a) step
  let s := s.store (a + 4 * (step % 16)) 4 (s.entOpen a)
  ((s.store (a + 68) 2 v).store (a + 64) 4 step).entClose a

/-- Entries of a table whose open step is `step`. -/
def State.openEnts (s : State) (t step : Nat) : List Nat :=
  if step = noStep then []
  else (((List.range (s.tblNent t)).map (entAddr t)).filter (fun a => s.entOpenStep a == step))

/-- SCALE in its commit form on a table (R145, R240). -/
def State.tblCommit (s : State) (t step : Nat) : State :=
  if s.laterThan t step then (forEach (s.openEnts t step) (fun a s => s.entCommit a step) s).store t 4 step else s

/-- SCALE in its discard form on a table (R145, R240). -/
def State.tblDiscard (s : State) (t step : Nat) : State :=
  if s.laterThan t step then forEach (s.openEnts t step) (fun a s => s.entClose a) s else s

/-! ## Deriving E (R146) -/

/-- The step held in slot `j`: the newest not above LASTSTEP that falls in it. -/
def slotStep (last j : Nat) : Nat := last - (last + 16 - j) % 16

/-- The largest finite magnitude of an FP8 format (Table 5.2). -/
def fmaxOf (fmt : Nat) : Val := if fmt = 2 then .fin false 7 6 else .fin false 7 13

/-- ⌈log₂(a / fmax)⌉ of a positive finite a. -/
def ceilLog2 (a fmax : Val) : Int :=
  let k := floorLog2 a - floorLog2 fmax
  if vle a (fmax.scale k) then k else k + 1

/-- An exponent limited to −128 … 127. -/
def clampE (e : Int) : Int := max (-128) (min 127 e)

/-- The largest maximum of the steps `step − h … step − 1` that a history holds. -/
def State.histMax (s : State) (a step h : Nat) : Val :=
  ((List.range 16).filter (fun j =>
      bit (s.entValid a) j && decide ((s.entLast a + 16 - j) % 16 ≤ s.entLast a) && decide (slotStep (s.entLast a) j < step) && decide (step ≤ slotStep (s.entLast a) j + h)
        && (f32 (s.entHist a j)).isFin && !bit (s.entHist a j) 31)).foldl
    (fun m j => vmax m (f32 (s.entHist a j))) vzero

/-- Numeric policy of a core for a step: CO_NUM_X as it stood when the step began there (R161). -/
def State.numX (s : State) (n : Nat) : Nat :=
  match (s.core n).numX with
  | some (_, v) => v
  | none => (s.rd .CO_NUM_X n).toNat

def numHist (v : Nat) : Nat := if bits v 4 0 = 0 ∨ 16 < bits v 4 0 then 16 else bits v 4 0
def numMargin (v : Nat) : Nat := bits v 7 5
def numLimit (v : Nat) : Nat := bits v 15 8
def numMaxd (v : Nat) : Nat := if bits v 20 16 = 0 then 1 else bits v 20 16
def numAuto (v : Nat) : Bool := bit v 24

/-- The drain waits for COMMITTED (R146). -/
def State.scaleWaits (s : State) (t step : Nat) : Bool :=
  step != 0 && s.tblCommitted t != noStep && decide (s.tblCommitted t + 1 < step)

/-- The exponent derived for a tensor, and whether the entry's E_LAST takes it. -/
def State.derive (s : State) (a step fmt num : Nat) : Int × Bool :=
  let m := s.histMax a step (numHist num)
  if m.isZero then (s.entInit a, false)
  else (clampE (ceilLog2 m (fmaxOf fmt) + numMargin num), true)

/-! ## SCALE (R239, R240) -/

/-- Checks of SCALE after the word's: DESC without a table or with an index past its end, WORLD for another world's
table. -/
def State.judgeScale (s : State) (n _sl : Nat) (x : StnSt) (w : Nat) : Option Nat :=
  let form := bits w 115 112
  if !s.tblBound n then some 4
  else if 2 ≤ form ∧ s.tblNent (s.tblOf n) ≤ x.ct (bits w 87 85) then some 4
  else if s.tblWorld (s.tblOf n) ≠ s.sectWorld then some 8
  else none

def State.doScaleCommit (s : State) (n sl : Nat) (x : StnSt) (w : Nat) : State :=
  (s.tblCommit (s.tblOf n) (x.ct (bits w 87 85))).acceptDone n sl w

def State.doScaleDiscard (s : State) (n sl : Nat) (x : StnSt) (w : Nat) : State :=
  (s.tblDiscard (s.tblOf n) (x.ct (bits w 87 85))).acceptDone n sl w

def State.doSetEInit (s : State) (n sl : Nat) (x : StnSt) (w : Nat) : State :=
  (s.store (entAddr (s.tblOf n) (x.ct (bits w 87 85)) + 80) 1 (encInt 8 (x.sc (bits w 84 82)))).acceptDone n sl w

def State.doSetEFix (s : State) (n sl : Nat) (x : StnSt) (w : Nat) : State :=
  (s.store (entAddr (s.tblOf n) (x.ct (bits w 87 85)) + 81) 1 (encInt 8 (x.sc (bits w 84 82)))).acceptDone n sl w

end Sys2Proof.Machine
end

