-- ==== Sys2Proof/Machine/Drain.lean ====
section
/-! DEFINITION. The drain (R109 to R132, R142 to R152, R231 to R233, R238): DRC and TALLY, chains taking effect, PSB rows
through the chain, the rescale of an overflowing tile, release, tally records and row statistics. -/

namespace Sys2Proof.Machine

/-! ## DRC (R231 to R233) -/

/-- The bytes of a chain descriptor, its header alone when NSTG is above 12. -/
def State.chainBytes (s : State) (a : Nat) : List Byte :=
  let k := s.load a 1
  if 12 < k then s.bytes a 16
  else s.bytes a (chainLen (stageRecs (s.bytes a (16 + 16 * k)) k))

/-- A chain as its descriptor gives it. -/
def chainOf (b : List Byte) : Chain := ⟨0, b, 0, [], false, 0⟩

/-- The stage records of a chain; none when NSTG is above 12. -/
def Chain.recs (c : Chain) : List (List Byte) := if 12 < c.nstg then [] else c.stages

/-- A tile stream that a station's port takes from, for a side stream. -/
def State.sideStrm (s : State) (n sl p : Nat) : Option StreamSt :=
  match s.inStrm n sl p with
  | some y => if y.peg then none else some y
  | none => none

/-- A port that sends tiles. -/
def State.tileOut (s : State) (n sl p : Nat) : Option StreamSt :=
  match s.outStrm n sl p with
  | some y => if y.peg then none else some y
  | none => none

/-- Check 4 of DRC. -/
def State.headerBad (s : State) (n sl : Nat) (c : Chain) : Bool :=
  decide (0xC < c.ofmt) || c.nt == 0 || c.ncols == 0 || (s.tileOut n sl c.oport).isNone
    || [0, 1].any (fun i => c.side i != 0xFF && (s.sideStrm n sl (c.side i)).isNone)
    || (c.statsPort != 0xFF && (s.tileOut n sl c.statsPort).isNone)

/-- The vectors that bias and scale stages name: address and length (R573). -/
def chainVectors (c : Chain) : List (Nat × Nat) :=
  c.recs.filterMap (fun r =>
    let w := fun f => if f = 0 then 2 else 4
    match stageCode r, byteAt r 4 with
    | 1, f => some (fieldAt r 8 6, c.ncols * w f)
    | 2, 1 => some (fieldAt r 6 6, c.ncols * w (byteAt r 5))
    | 2, 2 => some (fieldAt r 6 6, fieldAt r 12 4 * w (byteAt r 5))
    | _, _ => none)

/-- The failing STAGE and CODE of a chain (R113). Log entry 127 (DEDUCED). -/
def State.chainBad (s : State) (n sl : Nat) (c : Chain) : Option (Nat × Nat) :=
  let cx : ChainCtx :=
    { side := c.side, stats := c.statsPort,
      outMxcol := (match s.tileOut n sl c.oport with | some y => y.mxcol | none => false),
      nent := if s.tblBound n then some (s.tblNent (s.tblOf n)) else none }
  chainFault cx c.nstg c.ofmt c.recs

/-- The quantise stage takes its scale from the history (SRC 0). -/
def Chain.history (c : Chain) : Option Nat :=
  match c.quant with
  | some r => if stageCode r == 8 && byteAt r 5 == 0 then some (fieldAt r 6 2) else none
  | none => none

def drcAd (x : StnSt) (w : Nat) : Nat := x.ad (bits w 103 100)

def State.judgeDrc (s : State) (n sl : Nat) (x : StnSt) (w : Nat) : Option Nat :=
  let a := drcAd x w
  let here := fun (len : Nat) => s.nearOk n a len && (match s.place a with | .core _ => true | _ => false)
  if !aligned a 64 || !here 16 then some 3
  else
    let c := chainOf (s.chainBytes a)
    let vs := chainVectors c
    if !here c.desc.length then some 3
    else if s.headerBad n sl c then some 4
    else if vs.any (fun v => !aligned v.1 64) then some 3
    else match s.rangesFault (s.nearOk n) vs with
      | some f => some f
      | none =>
        if c.history.isSome && s.tblBound n && s.tblWorld (s.tblOf n) != s.sectWorld then some 8
        else if (s.chainBad n sl c).isSome then some 12
        else none

/-- What a chain fault leaves in the drain's registers (R113). -/
def State.chainFaultLog (s : State) (n sl : Nat) (x : StnSt) (w : Nat) : State :=
  let e := 2 * n + sl
  match s.chainBad n sl (chainOf (s.chainBytes (drcAd x w))) with
  | some (st, c) =>
    ((s.put F.DR_STATUS_CHAIN_FLT 1 e).put F.DR_FLT_LOG_STAGE st e).put F.DR_FLT_LOG_CODE c e
  | none => s

/-- An accepted DRC becomes the pending chain, in the bank that the chain in force does not use; the newest chain's
cursor starts at (0, 0). Without tables it completes at once (R232, R273).
Log entries 116 (DEDUCED), 117 (DEDUCED). -/
def State.doDrc (s : State) (n sl : Nat) (x : StnSt) (w : Nat) : State :=
  let e := 2 * n + sl
  let d := s.dr e
  let b := s.chainBytes (drcAd x w)
  let c := chainOf b
  let none' := (tablesNamed c.recs).isEmpty
  let ch : Chain :=
    { c with serial := d.serial, bank := (match d.force with | some f => 1 - f.bank | none => 0), loaded := none',
             id := s.nextId n }
  let s := s.setDr e { d with next := some ch, serial := d.serial + 1, curR := 0, curC := 0, block := none }
  (if none' then s.acceptDone n sl w else s.acceptOnly n sl w).handView n

/-- DRC_TABLES_LOADED (R232): the tables of the pending chain are in their bank, and DRC completes.
Log entry 116 (DEDUCED). -/
def execDrcTablesLoaded (e : Fin 32) (s : State) : Out? :=
  let d := s.dr e
  match d.next with
  | none => .next s
  | some c =>
    if c.loaded || !s.coreRuns (engCore e) then .next s
    else
      let ts := [0, 1].map (fun i => if (tablesNamed c.recs).contains i then tableOf c.desc c.recs i else [])
      .next ((s.setDr e { d with next := some { c with tables := ts, loaded := true } }).complete (engCore e) (e % 2) c.id)

/-- Tiles of problems accepted under a chain are still to be released. -/
def State.chainBusy (s : State) (e serial : Nat) : Bool :=
  (s.eng e).probs.any (fun p => p.chain == serial && decide (p.released < (pdescOf p.desc).mtiles))

/-- CHAIN_TAKES_EFFECT (R114). -/
def execChainTakesEffect (e : Fin 32) (s : State) : Out? :=
  let d := s.dr e
  match d.next with
  | none => .next s
  | some c =>
    let busy := match d.force with
      | some f => s.chainBusy e f.serial || !d.statOut.isEmpty
      | none => false
    if !c.loaded || busy || !s.coreRuns (engCore e) then .next s
    else .next ((s.setDr e { d with force := some c, next := none }).handView (engCore e))

/-! ## Tally records (R130 to R132) -/

/-- The tally queue of a station, if it writes records. -/
def State.tallyQueue (s : State) (n sl : Nat) : Option Nat :=
  match s.job, s.stn? n sl with
  | some j, some x => if x.tqidx = 0xFF then none else j.tqs[x.tqidx]?
  | _, _ => none

/-- The tally queue has no room. -/
def State.tallyFull (s : State) (n sl : Nat) : Bool :=
  match s.tallyQueue n sl with
  | some q => s.qState q == 1 && s.qFull q
  | none => false

/-- A count limited to its field. -/
def sat (w v : Nat) : Nat := Nat.min v (2 ^ (8 * w) - 1)

/-- A tally record (Table 4.2); field enables at 0 leave their fields at 0 (R138). Log entry 120 (DEDUCED). -/
def State.tallyRecord (s : State) (e : Nat) (t : Tally) (step : Nat) (flushed : Bool) : List Byte :=
  let on := fun (f : Fld) (v : Nat) => if s.flag f e then v else 0
  leBytes 4 t.tensor ++ leBytes 4 step
    ++ leBytes 4 ((if t.promoted then 1 else 0) + (if t.sumsqOn then 2 else 0) + (if flushed then 4 else 0))
    ++ leBytes 4 (sat 4 t.rescaled) ++ leBytes 8 (sat 8 t.nvalid) ++ leBytes 8 (on F.DR_TALLY_X_ZERO_EN (sat 8 t.zero))
    ++ leBytes 8 (sat 8 t.sat) ++ leBytes 4 (on F.DR_TALLY_X_NF_EN (sat 4 t.inf))
    ++ leBytes 4 (on F.DR_TALLY_X_NF_EN (sat 4 t.nan)) ++ leBytes 4 (on F.DR_TALLY_X_AMAX_EN t.amax) ++ leBytes 2 e
    ++ leBytes 2 0 ++ leBytes 8 (if t.sumsqOn then t.sumsq else 0)

/-- An accumulator is written as a record, or discarded when the station writes none, and is closed (R130). -/
def State.flushTally (s : State) (n sl : Nat) (t : Tally) (flushed : Bool) : State :=
  let e := 2 * n + sl
  let d := s.dr e
  let r := s.tallyRecord e t (s.rd .CO_STEP n).toNat flushed
  let s := s.setDr e { d with tallies := d.tallies.filter (fun x => x.tensor != t.tensor) }
  match s.tallyQueue n sl with
  | none => s
  | some q =>
    if s.qState q = 1 then { (s.produceRaw q r).fire 4 282 with examine := s.examine ++ [r] } else s

/-- The last tile of a tensor has been released in the step. Log entry 120 (DEDUCED). -/
def DrainSt.hasEnded (d : DrainSt) (tensor step : Nat) : Bool := d.ended.contains (tensor, step)

/-- The accumulators that a TALLY names. -/
def State.tallyNamed (s : State) (n sl : Nat) (x : StnSt) (w : Nat) : List Tally :=
  (s.dr (2 * n + sl)).tallies.filter (fun t => bit w 115 || t.tensor == x.ct (bits w 87 85))

/-- Records that a TALLY has still to write. -/
def State.tallyLeft (s : State) (n sl : Nat) (x : StnSt) (w : Nat) : Nat := x.steer.getD (s.tallyNamed n sl x w).length

/-- TALLY waits while the queue is full (R238). -/
def State.tallyWaits (s : State) (n sl : Nat) (x : StnSt) (w : Nat) : Bool :=
  decide (0 < s.tallyLeft n sl x w) && s.tallyFull n sl

/-- TALLY writes one record at a time, and is accepted with its last (R238). Log entry 120 (DEDUCED). -/
def State.doTally (s : State) (n sl : Nat) (x : StnSt) (w : Nat) : State :=
  let k := s.tallyLeft n sl x w
  match k, s.tallyNamed n sl x w with
  | k + 1, t :: _ =>
    let s := s.flushTally n sl t (!(s.dr (2 * n + sl)).hasEnded t.tensor (s.rd .CO_STEP n).toNat)
    if k = 0 then (s.onStn n sl (fun x => { x with steer := none })).acceptDone n sl w
    else (s.onStn n sl (fun x => { x with steer := some k })).moved
  | _, _ => (s.onStn n sl (fun x => { x with steer := none })).acceptDone n sl w

/-! ## The next output tile -/

/-- DR_STATUS follows the drain: SLOTS, and BUSY while a tile's rows pass through the chain (Table 4.5).
Log entry 118 (DEDUCED). -/
def State.drView (s : State) (e : Nat) : State :=
  let d := s.dr e
  (s.put F.DR_STATUS_SLOTS d.slots.length e).put F.DR_STATUS_BUSY
    (if d.slots.any (fun t => decide (t.read < t.vrows)) then 1 else 0) e

/-- The next tile that a drain will read: the first problem with a tile not begun, and its index. -/
def State.nextTile (s : State) (e : Nat) : Option (Problem × Nat) :=
  match firstWhere (fun p => decide (p.started < (pdescOf p.desc).mtiles)) (s.eng e).probs with
  | some p => some (p, p.started)
  | none => none

/-- Valid rows of output tile `i`; none of a zero problem's. -/
def Problem.vrows (p : Problem) (i : Nat) : Nat :=
  if (pdescOf p.desc).zero then 0 else tileVrows (pdescOf p.desc) p.rows i

/-- The side indices that a chain's residual stages use. -/
def Chain.sides (c : Chain) : List Nat :=
  [0, 1].filter (fun i => c.stages.any (fun r => stageCode r == 5 && byteAt r 4 == i))

/-- The stream of a chain's side. -/
def State.chainSide (s : State) (e : Nat) (c : Chain) (i : Nat) : Option StreamSt := s.sideStrm (engCore e) (e % 2) (c.side i)

/-- A side stream of the chain whose queue is empty. -/
def State.sideMissing (s : State) (e : Nat) (c : Chain) : Bool :=
  c.sides.any (fun i => match s.chainSide e c i with | some y => y.queue.isEmpty | none => true)

/-- A side stream whose head tile's extents differ from the output tile's (R119). -/
def State.sideDiffers (s : State) (e : Nat) (c : Chain) (vr vc : Nat) : Option StreamSt :=
  match firstWhere (fun i => match s.chainSide e c i with
      | some y => tVrows (y.queue.headD []) != vr || tVcols (y.queue.headD []) != vc
      | none => false) c.sides with
  | some i => s.chainSide e c i
  | none => none

/-- The exponent in use for a chain's tensor, if it needs no derivation or has been derived (R140, R146, R147). -/
def State.tensorExp (s : State) (e : Nat) (c : Chain) : Option Int :=
  let n := engCore e
  let step := (s.rd .CO_STEP n).toNat
  match c.quant with
  | none => some 0
  | some r =>
    if stageCode r ≠ 8 then some 0
    else match byteAt r 5 with
      | 1 => some (match s.stn? n (e % 2) with | some x => x.sc (fieldAt r 6 2 % 8) | none => 0)
      | 2 => some (signed 8 (fieldAt r 6 2))
      | _ =>
        match firstWhere (fun (t : TensorE) => t.tensor == c.tensor && t.step == step) (s.dr e).tensorE with
        | some t => some t.e
        | none => if numAuto (s.numX n) then none else some (s.entFix (entAddr (s.tblOf n) (fieldAt r 6 2)))

/-- An exponent is in use for a tensor for the rest of the step. -/
def State.keepExp (s : State) (e : Nat) (c : Chain) (x : Int) : State :=
  let d := s.dr e
  let step := (s.rd .CO_STEP (engCore e)).toNat
  if c.history.isNone || d.tensorE.any (fun t => t.tensor == c.tensor && t.step == step) then s
  else s.setDr e { d with tensorE := d.tensorE.filter (fun t => t.step == step) ++ [⟨c.tensor, step, x⟩] }

/-- The drain meets its next tile: the chain in force is the tile's, a slot is free, no tile is being read or waits for
a rescale, and the tile's first row is finished. Log entry 118 (DEDUCED). -/
def State.meets (s : State) (e : Nat) : Option (Problem × Nat × Chain) :=
  let d := s.dr e
  match s.nextTile e, d.force with
  | some (p, i), some c =>
    if p.chain == c.serial && decide (d.slots.length < 2)
        && d.slots.all (fun t => decide (t.vrows ≤ t.read) && (!t.overE || t.saturate))
        && (p.vrows i == 0 || decide (p.rows * i < p.done)) then
      some (p, i, c)
    else none
  | _, _ => none

/-- A tile enters a drain-buffer slot with its side tiles. -/
def State.startTile (s : State) (e : Nat) (p : Problem) (i : Nat) (c : Chain) (x : Int) : State :=
  let d := pdescOf p.desc
  let vr := p.vrows i
  let sides := c.sides.filterMap (fun k => (s.chainSide e c k).map (fun y => (k, y.queue.headD [])))
  let s := forEach (c.sides.filterMap (fun k => (s.chainSide e c k).map (fun y => y.id))) (fun id s => s.takeHead id) s
  let t : DrainTile :=
    { prob := p.id, ix := i, vrows := vr, vcols := if vr = 0 then 0 else d.n, row0 := p.row0 + p.rows * i, col0 := p.col0,
      lastt := d.lastp && i + 1 == d.mtiles, e := x, sides := sides }
  let s := (s.keepExp e c x).setProb e { p with started := p.started + 1 }
  (s.setDr e { s.dr e with slots := (s.dr e).slots ++ [t] }).drView e

/-- The next tile begins, where everything it needs is there; a side tile with other extents is a fault.
Log entry 118 (DEDUCED). -/
def State.beginTile (s : State) (e : Nat) : State :=
  match s.meets e with
  | none => s
  | some (p, i, c) =>
    if s.sideMissing e c then s
    else match s.sideDiffers e c (p.vrows i) (if p.vrows i = 0 then 0 else (pdescOf p.desc).n) with
      | some y => if y.closed then s else s.protoFault (engCore e) y.qnum 6 y.id
      | none =>
        if p.vrows i = 0 then s.startTile e p i c 0
        else match s.tensorExp e c with
          | none => s
          | some x => s.startTile e p i c x

/-! ## Rows (R109 to R125) -/

/-- The FP32 values that stage 0 makes of a PSB row (R110). -/
def State.psbValues (s : State) (e : Nat) (p : Problem) (row : Nat) : List Val :=
  let d := pdescOf p.desc
  let r := (s.eng e).psb.get (psbKey p row) psbNone
  let b : Int := if d.afmt = 0xA ∨ d.wfmt = 0xA then d.mxb else 0
  (List.range d.n).map (fun j => psbRead r.form (accFmt d.accw d.acc16) b (r.vals.getD j {}))

/-- The drain's tile with row `t.read` put through the chain. Log entry 116 (DEDUCED). -/
def State.readRow (s : State) (e : Nat) (p : Problem) (c : Chain) (t : DrainTile) : DrainTile :=
  let n := engCore e
  let cols := match s.tileOut n (e % 2) c.oport with | some y => y.cols | none => 0
  let cx : RowCtx :=
    { step := (s.rd .CO_STEP n).toNat, row := t.row0 + t.read, col0 := t.col0, r := t.read, cols := cols, e := t.e,
      saturate := t.saturate, sides := t.sides }
  let o := s.chainRow c cx (s.psbValues e p (p.rows * t.ix + t.read))
  let f := rowFinish c o
  let sat := match o.quant with | some q => q.2.2.1 | none => 0
  let tl := tallyRow t.tally f.2.2
  { t with
    read := t.read + 1, codes := t.codes ++ [f.1], scales := t.scales ++ [f.2.1], raw := maxCode t.raw o.raw,
    overE := t.overE || o.overE, tally := { tl with sat := tl.sat + sat, sumsqOn := tl.sumsqOn || o.sumsq },
    sq := t.sq + sqRow f.2.2, stats := t.stats ++ o.stat.toList }

/-- The last valid row of a tile has left the quantise stage: its raw maximum goes to the slice, once (R144, R151). -/
def State.tileRead (s : State) (e : Nat) (c : Chain) (t : DrainTile) : State :=
  match c.history with
  | some ix =>
    if t.read = t.vrows ∧ ¬ t.rescaled then
      s.setDr e { s.dr e with rawOut := (s.dr e).rawOut ++
        [⟨entAddr (s.tblOf (engCore e)) ix, (s.rd .CO_STEP (engCore e)).toNat, t.raw⟩] }
    else s
  | none => s

/-- PSB_ROW_READ (R109): the drain reads one finished PSB row into its chain. -/
def execPsbRowRead (e : Fin 32) (s : State) : Out? :=
  if !s.coreRuns (engCore e) then .next s
  else
    let d := s.dr e
    let s := if d.slots.all (fun t => decide (t.vrows ≤ t.read)) then
        (match s.meets e with
         | some (p, i, _) => if p.vrows i = 0 then s else s.beginTile e
         | none => s)
      else s
    let d := s.dr e
    match d.slots.getLast?, d.force with
    | some t, some c =>
      match s.probOf e t.prob with
      | none => .next s
      | some p =>
        if t.read < t.vrows ∧ p.rows * t.ix + t.read < p.done then
          let t := s.readRow e p c t
          let s := s.setDr e { d with slots := d.slots.dropLast ++ [t] }
          .next ((s.tileRead e c t).drView e)
        else .next s
    | _, _ => .next s

/-! ## Rescale (R148 to R151) -/

/-- The smallest d ≥ 1 at which the tile's maximum does not overflow, among `n` values from `d`. -/
def rescaleBy (fmt : Nat) (m : Val) (e : Int) : Nat → Nat → Nat
  | 0, d => d
  | n + 1, d => if overflows8 fmt m (e + d) then rescaleBy fmt m e n (d + 1) else d

/-- Rescales that the drain has made in the step. -/
def DrainSt.rescaledIn (d : DrainSt) (step : Nat) : Nat := if d.rsStep = step then d.rescales else 0

/-- OVERFLOW_RESCALE (R149): the drain saturates an overflowing tile or raises E and computes it again. -/
def execOverflowRescale (e : Fin 32) (s : State) : Out? :=
  let n := engCore e
  let d := s.dr e
  match d.slots.getLast?, d.force with
  | some t, some c =>
    if !s.coreRuns n || decide (t.read < t.vrows) || !t.overE || t.saturate then .next s
    else match c.quant with
      | none => .next s
      | some r =>
        let step := (s.rd .CO_STEP n).toNat
        let x := s.numX n
        let k := rescaleBy (byteAt r 4) (f32 t.raw) t.e 300 1
        let used := d.rescaledIn step
        if decide (numMaxd x < k) || (numLimit x != 255 && decide (numLimit x ≤ used)) || decide (127 < t.e + k) then
          .next (((s.setDr e { d with slots := d.slots.dropLast ++ [{ t with saturate := true }] }).bumpSat
            F.CO_RESCALE_CNT_LIMITED n).drView e)
        else
          let t' : DrainTile :=
            { t with read := 0, codes := [], scales := [], e := t.e + k, overE := false, rescaled := true, tally := {},
                     sq := 0, stats := [] }
          let s := s.setDr e { d with slots := d.slots.dropLast ++ [t'], rescales := used + 1, rsStep := step }
          let s := s.bumpSat F.CO_RESCALE_CNT_RESCALED n
          let s := match c.history with
            | some ix =>
              let a := entAddr (s.tblOf n) ix
              s.store (a + 84) 4 (Nat.min (s.load (a + 84) 4 + 1) noStep)
            | none => s
          .next (s.drView e)
  | _, _ => .next s

/-- A drain waits under R146: the tile that it meets has no exponent, and its table has not committed the step before. -/
def State.scWait (s : State) (e : Nat) : Bool :=
  match s.meets e with
  | some (p, i, c) =>
    let step := (s.rd .CO_STEP (engCore e)).toNat
    p.vrows i != 0 && !s.sideMissing e c && (s.tensorExp e c).isNone && s.scaleWaits (s.tblOf (engCore e)) step
  | none => false

/-- CO_NUM_STAT.SC_WAIT: a drain of the core waits (R162). -/
def State.scView (s : State) (n : Nat) : State :=
  s.put F.CO_NUM_STAT_SC_WAIT (if s.scWait (2 * n) || s.scWait (2 * n + 1) then 1 else 0) n

/-- SCALE_DERIVE (R146): at a tensor's first tile in a step the drain derives E from the history, unless it waits for
COMMITTED. -/
def execScaleDerive (e : Fin 32) (s : State) : Out? :=
  let n := engCore e
  match s.meets e with
  | none => .next s
  | some (p, i, c) =>
    match c.history, s.tensorExp e c with
    | some ix, none =>
      let step := (s.rd .CO_STEP n).toNat
      if !s.coreRuns n || p.vrows i == 0 then .next s
      else if s.scaleWaits (s.tblOf n) step then .next (s.scView n)
      else
        let a := entAddr (s.tblOf n) ix
        let x := s.derive a step c.ofmt (s.numX n)
        let s := if x.2 then s.store (a + 82) 1 (encInt 8 x.1) else s
        .next ((s.keepExp e c x.1).scView n)
    | _, _ => .next s

/-- RAW_MAX_ATOMIC (R144): a drain's oldest raw maximum arrives at the slice. -/
def execRawMaxAtomic (e : Fin 32) (s : State) : Out? :=
  let d := s.dr e
  match d.rawOut with
  | [] => .next s
  | r :: rest =>
    .next ((s.setDr e { d with rawOut := rest }).rawMax (s.tblOf (engCore e)) r.addr r.step r.code)

/-! ## Release (R126 to R132) -/

/-- Payload bytes of a drain tile: its codes and block scales, every byte outside the valid extents free where its
format leaves it open (R168); blocks that per-block quantise forms are whole. Log entry 130 (DESIGN CHOICE). -/
def State.drainPayload (s : State) (c : Chain) (t : DrainTile) (rows cols : Nat) : List Byte × Nat :=
  let fmt := c.ofmt
  let k := s.freeIx
  let w := packedBytes fmt cols
  let sc := cols / 32
  let row := fun r =>
    let cs := t.codes.getD r []
    let open' := (List.range cols).map (fun j => (Config.freeByte (k + r * cols + j)).toNat % 2 ^ fmtBits fmt)
    if r < t.vrows then packCodes fmt w (cs ++ open'.drop cs.length)
    else (List.range w).map (fun j => Config.freeByte (k + r * cols + j))
  let scales := if !fmtMx fmt then []
    else (List.range rows).flatMap (fun r =>
      if r < t.vrows then padTo sc ((t.scales.getD r []).map (BitVec.ofNat 8))
      else (List.range sc).map (fun j => Config.freeByte (k + rows * cols + r * sc + j)))
  ((List.range rows).flatMap row ++ scales, k + rows * cols + rows * sc)

/-- The tile image that a drain releases on a stream. Log entry 130 (DESIGN CHOICE). -/
def State.drainImage (s : State) (e : Nat) (c : Chain) (t : DrainTile) (y : StreamSt) : List Byte × State :=
  let n := engCore e
  let flags := (if t.vrows = 0 then 1 else 0) + (if t.lastt then 2 else 0) + (if t.rescaled then 4 else 0)
  let h := s.tileHdr n y c.ofmt flags t.vrows t.vcols (encInt 8 t.e) c.tensor t.row0 t.col0
  if t.vrows = 0 then ({ h with scale := 0 }.bytes, s)
  else
    let p := s.drainPayload c t y.rows y.cols
    (h.bytes ++ p.1, { s with freeIx := p.2 })

/-- The tile's counts are added to its tensor's accumulator (R130 to R132). Log entry 126 (DEDUCED). -/
def State.addTally (s : State) (e : Nat) (c : Chain) (p : Problem) (t : DrainTile) : State :=
  let d := s.dr e
  let on := t.tally.sumsqOn || s.flag F.DR_TALLY_X_SUMSQ_EN e
  let pd := pdescOf p.desc
  let acc := (firstWhere (fun (x : Tally) => x.tensor == c.tensor) d.tallies).getD { tensor := c.tensor, sumsqOn := on }
  let x := t.tally
  let acc' : Tally :=
    { acc with
      promoted := acc.promoted || (pd.accw == 1 && decide (8 < p.passes)),
      sumsqOn := acc.sumsqOn && on, rescaled := acc.rescaled + (if t.rescaled then 1 else 0),
      nvalid := acc.nvalid + x.nvalid, zero := acc.zero + x.zero, sat := acc.sat + x.sat, inf := acc.inf + x.inf,
      nan := acc.nan + x.nan, amax := maxCode acc.amax x.amax,
      sumsq := encodeIeee fp64 (faddF fp64 .nearest (decodeIeee fp64 true acc.sumsq) (rn64 (ofInt t.sq (-298)))) }
  s.setDr e { d with tallies := d.tallies.filter (fun x => x.tensor != c.tensor) ++ [acc'] }

/-- The row-statistics stage of a chain: whether it forms mean and variance, and with divisor n − 1. -/
def Chain.statMode (c : Chain) : Option (Bool × Bool) :=
  (firstWhere (fun r => stageCode r == 0xB) c.stages).map (fun r => (!bit (byteAt r 4) 0, bit (byteAt r 4) 1))

/-- The running statistics of the tile's rows; after the row block's last N tile they become a statistics tile (R125,
R126). Log entry 119 (DEDUCED). -/
def State.addStats (s : State) (e : Nat) (c : Chain) (p : Problem) (t : DrainTile) : State :=
  match c.statMode with
  | none => s
  | some (ms, nm1) =>
    let d := s.dr e
    let old := fun r => ((firstWhere (fun (x : Nat × RowStat) => x.1 == r) d.stats).map (·.2)).getD {}
    let new := (List.range t.vrows).map (fun r => (t.row0 + r, combineStat ms (old (t.row0 + r)) (t.stats.getD r {})))
    let rest := d.stats.filter (fun x => !new.any (fun y => y.1 == x.1))
    if p.lastN then
      s.setDr e { d with stats := rest,
                         statOut := d.statOut ++ [(c.statsPort, c.tensor, t.row0, new.map (fun x => statOut ms nm1 x.2))] }
    else s.setDr e { d with stats := rest ++ new }

/-- The statistics tile as it goes out on its stream: FP32, one row for each tensor row, two columns.
Log entry 119 (DEDUCED). -/
def State.statImage (s : State) (n : Nat) (y : StreamSt) (tensor row0 : Nat) (rows : List (Nat × Nat)) : List Byte :=
  let k := rows.length
  let h := s.tileHdr n y 0xB (if k = 0 then 1 else 0) k (if k = 0 then 0 else 2) 0 tensor row0 0
  if k = 0 then h.bytes
  else h.bytes ++ (List.range y.rows).flatMap (fun r =>
    packCodes 0xB (4 * y.cols) (match rows[r]? with | some x => [x.1, x.2] | none => []))

/-- A statistics tile that waits is sent when its stream has a credit. Log entry 119 (DEDUCED). -/
def State.sendStats (s : State) (e : Nat) : State :=
  let n := engCore e
  let d := s.dr e
  match d.statOut with
  | [] => s
  | (p, tensor, row0, rows) :: rest =>
    match s.tileOut n (e % 2) p with
    | some y =>
      if y.sends && decide (0 < y.credits) then
        (s.setDr e { d with statOut := rest }).pushTile y.id (s.statImage n y tensor row0 rows)
      else s
    | none => s

/-- What a release does beside sending the tile: PSB rows are freed, side credits returned, the slot emptied, counts
added, and the record of a tensor's last tile written (R128, R130). -/
def State.afterRelease (s : State) (e : Nat) (c : Chain) (p : Problem) (t : DrainTile) : State :=
  let n := engCore e
  let sl := e % 2
  let s := forEach (t.sides.filterMap (fun x => (s.chainSide e c x.1).map (fun y => y.id))) (fun id s => s.dropHeld id) s
  let x := s.eng e
  let s := s.setEng e { x with
    psb := forN p.rows (fun r m => m.set (psbKey p (p.rows * t.ix + r)) psbNone psbNone) x.psb,
    probs := x.probs.map (fun q => if q.id = p.id then { q with released := q.released + 1 } else q) }
  let s := s.setDr e { s.dr e with slots := (s.dr e).slots.drop 1 }
  let s := if t.vrows = 0 ∧ ¬ t.lastt then s else s.addTally e c p t
  let step := (s.rd .CO_STEP n).toNat
  let s := if t.lastt then
      (match firstWhere (fun (a : Tally) => a.tensor == c.tensor) (s.dr e).tallies with
       | some a =>
         let s := s.flushTally n sl a false
         s.setDr e { s.dr e with ended := (s.dr e).ended.filter (fun z => z.2 == step) ++ [(c.tensor, step)] }
       | none => s)
    else s
  (((s.addStats e c p t).sendStats e).settleProbs e).drView e

/-- TILE_RELEASE (R128): a statistics tile that waits goes first; else the oldest finished tile of the drain buffer is
released to its stream, or to memory for the oldest claim of STT with SRC 2. Log entry 118 (DEDUCED). -/
def execTileRelease (e : Fin 32) (s : State) : Out? :=
  let n := engCore e
  let sl := e.val % 2
  if !s.coreRuns n then .next s
  else if !(s.dr e).statOut.isEmpty then .next (s.sendStats e)
  else
    let s := if (s.dr e).slots.isEmpty then
        (match s.meets e with
         | some (p, i, _) => if p.vrows i = 0 then s.beginTile e else s
         | none => s)
      else s
    let d := s.dr e
    match d.slots, d.force with
    | t :: _, some c =>
      match s.probOf e t.prob, s.tileOut n sl c.oport with
      | some p, some y =>
        if decide (t.read < t.vrows) || (t.overE && !t.saturate) then .next s
        else if t.lastt && s.tallyFull n sl then .next (s.put F.DR_STATUS_TQ_WAIT 1 e)
        else
          let s := s.put F.DR_STATUS_TQ_WAIT 0 e
          match d.claims with
          | (id, port, a, ld) :: rest =>
            match s.sinkPort n sl port with
            | some z =>
              let img := s.drainImage e c t z
              let s := img.2.setDr e { img.2.dr e with claims := rest }
              .next ((s.afterRelease e c p t).sinkTile n sl id z img.1 a ld)
            | none => .next s
          | [] =>
            if y.sends && decide (0 < y.credits) then
              let img := s.drainImage e c t y
              .next ((img.2.pushTile y.id img.1).afterRelease e c p t)
            else .next s
      | _, _ => .next s
    | _, _ => .next s

/-! ## CMD's examination of tally records (R159, R163) -/

/-- The conditions that a record meets, by code: 1 non-finite, 2 saturation, 3 zeros. -/
def State.alertCodes (s : State) (r : List Byte) : List Nat :=
  let nvalid := fieldAt r 16 8
  (if s.flag F.CMD_NUMW_X_NF_EN && decide (0 < fieldAt r 40 4 + fieldAt r 44 4) then [1] else [])
    ++ (if s.flag F.CMD_NUMW_X_SAT_EN && decide (s.fld F.CMD_NUMW_X_SAT_FRAC * nvalid < fieldAt r 32 8 * 2 ^ 20) then [2] else [])
    ++ (if s.flag F.CMD_NUMW_X_ZERO_EN && decide (4096 ≤ nvalid)
          && decide (s.fld F.CMD_NUMW_X_ZERO_FRAC * nvalid < fieldAt r 24 8 * 256) then [3] else [])

/-- NUM_ALERT (R159, R163): the event, and ALERTS counts it. Log entry 129 (DESIGN CHOICE). -/
def State.numAlert (s : State) (core tensor step drain cond mask : Nat) (counts : List Nat) : State :=
  ((s.bumpSat F.CMD_NUMW_CNT_ALERTS).postJob 0x02 core step
    ([tensor, step, drain, cond, mask] ++ counts.map (fun v => Nat.min v noStep)))

/-- TALLY_RECORD_EXAMINE (R159): CMD, while its processor runs, examines the oldest record that it has not yet
examined. -/
def execTallyRecordExamine (s : State) : Out? :=
  match s.examine with
  | [] => .next s
  | r :: rest =>
    if (s.proc 4).run ≠ .running then .next s else
    let s := { s with examine := rest }
    let cs := s.alertCodes r
    match cs with
    | [] => .next s
    | c :: _ =>
      .next (s.numAlert (fieldAt r 52 2 / 2) (fieldAt r 0 4) (fieldAt r 4 4) (fieldAt r 52 2) c
        (cs.foldl (fun m k => m + 2 ^ (k - 1)) 0)
        [fieldAt r 16 8, fieldAt r 24 8, fieldAt r 32 8, fieldAt r 40 4, fieldAt r 44 4])

end Sys2Proof.Machine
end

