-- ==== Sys2Proof/Machine/Update.lean ====
section
/-! DEFINITION. Long-master parameters and UPD (R153 to R157, R261), the owner's answers to gathers (R257), and the
commit of a step's shards (R260). -/

namespace Sys2Proof.Machine

/-! ## Long master (R153 to R156) -/

/-- The mantissa of an FP32 code with its hidden bit, and the exponent of its spacing (R153). -/
def f32Mant (m : Nat) : Nat := if bits m 30 23 = 0 then bits m 22 0 else bits m 22 0 + 2 ^ 23
def f32Quantum (m : Nat) : Int := ((Nat.max (bits m 30 23) 1 : Nat) : Int) - 150

/-- The value of a long-master element (R153). -/
def longVal (m l : Nat) : Val :=
  match f32 m with
  | .fin s _ _ => .fin s (f32Mant m * 65536 + l) (f32Quantum m - 16)
  | v => v

/-- Rounding to long master (R154): the FP32 code and the extension. -/
def rnlm (r : Val) : Nat × Nat :=
  match r with
  | .fin s m e =>
    if m = 0 then (0, 0)
    else
      let q := max (e + (Nat.log2 m : Nat)) (-126) - 39
      let big := if q ≤ e then m * 2 ^ (e - q).toNat else roundShift .nearest false m (q - e).toNat
      if vle (.fin false 1 128) (.fin false big q) then (f32c (.inf s), 0)
      else
        let q' := max (q + (Nat.log2 big : Nat)) (-126) - 23
        let k := (q' - q).toNat
        (f32c (.fin s (big / 2 ^ k) q'), big % 2 ^ k / 2 ^ (k - 16))
  | v => (f32c v, 0)

/-- The BF16 working copy of a long-master element (R155). -/
def workCopy (m l : Nat) : Nat :=
  let v := rnd bf16 .nearest (longVal m l)
  if v.isZero then 0 else encodeIeee bf16 v

/-- `f · p + Δ`, exactly (R156). -/
def updVal (f p d : Val) : Val := vadd (vmul f p) d

/-- An element that R157 counts. -/
def updOdd (f p d : Val) : Bool := !f.isFin || !d.isFin || !(updVal f p d).isFin

/-! ## Gathers at the owner (R257) -/

/-- The answer to a GATHER request; `again` says that the owner holds it already. -/
def State.gatherFar (s : State) (b : List Byte) (again : Bool) : State :=
  let shard := pkCmpv b % 2 ^ 32
  let e := pkAux b
  let len := 64 * pkSub b
  match s.judgeGather shard e (pkWorld b) (pkAddr b) len with
  | .refuse c => (if c = 2 then s.worldViol 4 0xFF (pkAddr b) else s).refusePkt b c
  | .serve i => (s.lockFor i (pkAux2 b)).respond b 0x02 0 0 (s.bytes (s.workAddr i (pkAddr b)) len)
  | .hold =>
    let s := { s with held := s.held ++ [⟨shard, e, pkAux2 b, pkWorld b, pkAddr b, len, none, b⟩] }
    if again then s else s.respond b 0x09 0 0 []
  | .epoch k => s.respond b 0x0A 0 k []

/-- A held gather judged again. -/
def State.rejudge (s : State) (g : HeldGather) : State :=
  match g.home with
  | some (n, sl, id, dst) => s.gatherNear n sl id g.shard g.epoch g.step g.world g.off g.len dst
  | none => s.gatherFar g.away true

/-- Every held gather of a shard judged again: its epoch or lock has changed. -/
def State.rejudgeShard (s : State) (shard : Nat) : State :=
  let gs := s.held.filter (fun g => g.shard == shard)
  forEach gs (fun g s => s.rejudge g) { s with held := s.held.filter (fun g => g.shard != shard) }

/-- A step abort of `step` on the shard table, with the gathers it sets free (R376). -/
def State.abortShards (s : State) (step : Nat) : State :=
  let touched := (List.range s.shCount).filter (fun i => s.shLocked i && s.shLockStep i == step)
  let s := s.restoreShards step
  forEach touched (fun i s => s.rejudgeShard (s.shId i)) s

/-- PRM commit of a step (R260): the E of the first homed shard that differs, or every shard committed.
Log entry 186 (DEDUCED). -/
def State.commitShards (s : State) (step : Nat) : Option Nat × State :=
  match firstWhere (fun i => s.shE i != step) (List.range s.shCount) with
  | some i => (some (s.shE i), s)
  | none => (none, forN s.shCount (fun i s => s.setSh i 32 1 (setBit (s.shFlags i) 2)) s)

/-! ## UPD (R261) -/

/-- The elements of a shard's bank: master code and extension. -/
def State.longElem (s : State) (base count k : Nat) : Nat × Nat := (s.load (base + 4 * k) 4, s.load (base + extOff count + 2 * k) 2)

/-- The updated elements, with whether R157 counts each. -/
def State.updElems (s : State) (base count delta factor : Nat) : List ((Nat × Nat) × Bool) :=
  (List.range count).map (fun k =>
    let p := s.longElem base count k
    let v := longVal p.1 p.2
    let d := f32 (s.load (delta + 4 * k) 4)
    (rnlm (updVal (f32 factor) v d), updOdd (f32 factor) v d))

/-- A bank's three arrays written from its elements. -/
def State.writeBank (s : State) (base count : Nat) (xs : List (Nat × Nat)) : State :=
  let s := s.setBytes base (xs.flatMap (fun p => leBytes 4 p.1))
  let s := s.setBytes (base + extOff count) (xs.flatMap (fun p => leBytes 2 p.2))
  s.setBytes (base + workOff count) (xs.flatMap (fun p => leBytes 2 (workCopy p.1 p.2)))

/-- The shard takes the step's epoch: KEPT, KEPTCUR, CUR, E, COMMITTED and the lock of entry `i`. -/
def State.takeEpoch (s : State) (i step : Nat) (wrote : Bool) : State :=
  let f := s.shFlags i
  let f := clrBit (clrBit f 1) 2
  let f := if wrote then putBit (clrBit f 4) 0 (!bit f 0) else setBit f 4
  ((s.setSh i 28 4 (s.shE i)).setSh i 24 4 step).setSh i 32 1 f

/-- An accepted UPD at work. -/
def State.runUpd (s : State) (u : UpdWait) : State :=
  let step := (s.rd .CO_STEP u.core).toNat
  let i := u.ix
  if s.shE i ≠ (step + 2 ^ 32 - 1) % 2 ^ 32 then s.shardEpoch u.core u.slot 0x52 s.selfLog (s.shE i)
  else
    let count := s.shElems i
    let xs := s.updElems (s.shBank i (s.shCur i)) count u.delta u.factor
    let odd := (xs.filter (·.2)).length
    let write := !(u.guarded && decide (0 < odd))
    let s := if write then s.writeBank (s.shBank i (1 - s.shCur i)) count (xs.map (·.1)) else s
    let s := s.takeEpoch i step write
    let s := if 0 < odd then
        ({ s with bar := { s.bar with flags := setBit s.bar.flags 1 } }).numAlert u.core (s.shId i) step 0xFFFF 4 8 [0, 0, 0, odd, 0]
      else s
    let r := leBytes 4 (if 0 < odd then 1 else 0) ++ leBytes 4 odd ++ leBytes 4 (if write then count else 0) ++ leBytes 4 0
    let s := s.storeNear u.core u.slot u.iid 0x52 u.rec_ 16 (fun s => s.setBytes u.rec_ r)
    s.rejudgeShard (s.shId i)

/-- The snapshot's copy, or the checkpoint, still needs the bank that a UPD of `step` writes (R398, R415).
Log entry 185 (DEDUCED). -/
def State.snapHolds (s : State) (i step : Nat) : Bool :=
  match s.snap with
  | some x => (match x.step with | some c => c + 2 == step | none => false) && x.todo.contains i
  | none => false
/-- Log entry 185 (DEDUCED). -/
def State.ckptHolds (s : State) (step : Nat) : Bool :=
  match s.ckpt with
  | some c => c.step + 2 == step && !(c.ownRead && c.buddyOut)
  | none => false

/-- UPD runs, or waits for a snapshot's copy or a checkpoint's hold. Log entry 185 (DEDUCED). -/
def State.startUpd (s : State) (u : UpdWait) : State :=
  let step := (s.rd .CO_STEP u.core).toNat
  let a := s.snapHolds u.ix step
  let b := s.ckptHolds step
  let s := if a then s.bumpSat F.CMD_SNAP_UPDWAIT else s
  if a || b then { s with upds := s.upds ++ [{ u with since := s.now }] } else s.runUpd u

/-- The waiting UPDs that nothing holds any longer run. `ckpt` says that a checkpoint's hold has just ended: its waits
count in STO_STALL. Log entry 185 (DEDUCED). -/
def State.resumeUpds (s : State) (ckpt : Bool) : State :=
  let us := s.upds
  forEach us (fun u s =>
    let step := (s.rd .CO_STEP u.core).toNat
    if s.snapHolds u.ix step || s.ckptHolds step then { s with upds := s.upds ++ [u] }
    else (if ckpt then s.bumpSat F.STO_STALL_TICKS 0 0 (s.now - u.since) else s).runUpd u) { s with upds := [] }

def State.judgeUpd (s : State) (n _sl : Nat) (x : StnSt) (w : Nat) : Option Nat :=
  let d := s.xdesc x w
  if s.descBad n x w then some 3
  else if d.spare then some 4
  else match s.shardIx d.shard with
    | none => some 4
    | some i =>
      if d.count ≠ s.shElems i then some 4
      else if !aligned d.addr2 64 || !aligned (wAd x w) 64 then some 3
      else s.rangesFault (s.localOk n) [(d.addr2, 4 * d.count), (wAd x w, 16)]

def State.doUpd (s : State) (n sl : Nat) (x : StnSt) (w : Nat) : State :=
  let d := s.xdesc x w
  let id := s.nextId n
  let guarded := match bits w 61 60 with
    | 0 => s.flag F.CO_NUM_UPD_GUARD n
    | 1 => true
    | _ => false
  (s.acceptOnly n sl w).startUpd ⟨n, sl, id, (s.shardIx d.shard).getD 0, d.addr2, d.factor, wAd x w, guarded, 0⟩

end Sys2Proof.Machine
end

