-- ==== Sys2Proof/Machine/Collective.lean ====
section
/-! DEFINITION. Reduction channels (chapter 13): buckets, the chain and its wire formats, late contributions, skips,
delivery at the owner, and the instructions CHN and PRM. -/

namespace Sys2Proof.Machine

/-! ## The chain header (Table 13.3): the first 64 bytes of a piece's payload -/

def hQueue (p : List Byte) : Nat := fieldAt p 0 2
def hEsc (p : List Byte) : Bool := bit (byteAt p 2) 0
def hNf (p : List Byte) : Bool := bit (byteAt p 2) 1
def hFmt (p : List Byte) : Nat := byteAt p 3
def hStep (p : List Byte) : Nat := fieldAt p 4 4
def hBucket (p : List Byte) : Nat := fieldAt p 8 4
def hSeg (p : List Byte) : Nat := byteAt p 12
def hHops (p : List Byte) : Nat := byteAt p 13
def hPresent (p : List Byte) : Nat := fieldAt p 16 4
def hNelem (p : List Byte) : Nat := fieldAt p 20 2
def hPiece (p : List Byte) : Nat := fieldAt p 24 4
def hBexp (p : List Byte) (b : Nat) : Nat := byteAt p (32 + b)

/-- The code of a non-finite block's exponent. -/
def nfExp : Nat := 0x80

/-! ## The channel and its buckets (R355 to R358) -/

def State.chan? (s : State) (q : Nat) : Option ChanSt := s.chans.get q none

/-- This device's rank in a channel's ring. -/
def State.rank (s : State) (c : ChanSt) : Nat := coord c.axis s.selfLog

def State.bElems (s : State) (c : ChanSt) (q : Nat) : Nat := s.load (c.btab + 32 * q) 4
def State.bResult (s : State) (c : ChanSt) (q : Nat) : Nat := s.load (c.btab + 32 * q + 8) 8
def State.bAgexp (s : State) (c : ChanSt) (q : Nat) : Nat := s.load (c.btab + 32 * q + 16) 1

/-- S, the segment length (R357), the elements of segment `j`, and the elements of one piece. -/
def State.segStep (s : State) (c : ChanSt) (q : Nat) : Nat := 224 * ceilDiv (s.bElems c q) (224 * c.p)
def State.segLen (s : State) (c : ChanSt) (q j : Nat) : Nat :=
  Nat.min ((j + 1) * s.segStep c q) (s.bElems c q) - j * s.segStep c q
def ChanSt.unit (c : ChanSt) : Nat := if c.bs16 then 224 else 112
def State.segPieces (s : State) (c : ChanSt) (q j : Nat) : Nat := Nat.max 1 (ceilDiv (s.segLen c q j) c.unit)
def State.pieceLen (s : State) (c : ChanSt) (q j k : Nat) : Nat := Nat.min c.unit (s.segLen c q j - c.unit * k)

/-- Pieces of every segment of a bucket. -/
def State.allPieces (s : State) (c : ChanSt) (q : Nat) : Nat := (List.range c.p).foldl (fun t j => t + s.segPieces c q j) 0

/-- A bucket has issued or been given up. -/
def ChanSt.st (c : ChanSt) (q : Nat) : Nat := c.state.get q 0

/-- The least bucket whose own CHN has still to issue: NEXTQ. `fuel` bounds the search. -/
def ChanSt.nextOf (c : ChanSt) : Nat → Nat → Nat
  | 0, q => q
  | f + 1, q => if c.st q = 1 ∨ c.st q = 3 then c.nextOf f (q + 1) else q

/-- The code of ARMSTEP while disarmed. -/
def disarmed : Nat := 0xFFFFFFFF

/-- A channel kept again, with the device-kept bytes of its record (Table 13.1). -/
def State.setChan (s : State) (q : Nat) (c : ChanSt) : State :=
  let c := { c with next := c.nextOf (c.state.ents.length + 1) 0 }
  let s := { s with chans := s.chans.set q none (some c) }
  (s.store (c.rcd + 32) 4 (c.arm.getD disarmed)).store (c.rcd + 36) 4 c.next

/-- IKF_RED_ACT counts the active channels (R377). -/
def State.redActView (s : State) : State :=
  s.put F.IKF_RED_ACT_ACTIVE (s.chans.ents.filter (fun e => e.2.isSome)).length

/-- A saturating count of the channel record raised: LATE 40, DROPPED 44, PARTIAL 48. -/
def State.bumpRec (s : State) (c : ChanSt) (o : Nat) : State :=
  s.store (c.rcd + o) 4 (Nat.min (s.load (c.rcd + o) 4 + 1) 0xFFFFFFFF)

/-- A channel changed, where it exists. -/
def State.onChan (s : State) (q : Nat) (f : ChanSt → ChanSt) : State :=
  match s.chan? q with
  | some c => s.setChan q (f c)
  | none => s

/-- A channel makes progress (R372). Log entry 187 (DEDUCED). -/
def State.chanMoved (s : State) (q : Nat) : State := s.onChan q (fun c => { c with moved := s.now })

/-- A channel's deadline in ticks (R361, R371, R377). -/
def State.chanTicks (s : State) (c : ChanSt) : Nat :=
  let us := if c.deadline ≠ 0 then c.deadline
    else Nat.min (Nat.max (s.fld (if c.late then F.IKF_RED_X2_DL_LATE_US else F.IKF_RED_X_DL_EARLY_US)) 1) 1000000
  usTicks us

/-- The I/O die with the channel's axis ports, and the bytes its hold store holds (R363). -/
def ChanSt.die (c : ChanSt) : Nat := if c.axis = 2 then 1 else 0
/-- Log entry 180 (DEDUCED). -/
def piecesLen (ps : List HeldPiece) : Nat := ps.foldl (fun t p => t + p.bytes.length) 0
/-- Log entry 180 (DEDUCED). -/
def State.holdUsed (s : State) (die : Nat) : Nat :=
  s.chans.ents.foldl (fun t e =>
    match e.2 with
    | some c => if c.die = die then t + piecesLen c.held + piecesLen c.back else t
    | none => t) 0

/-- IKF_RED_HOLD follows the hold stores. -/
def State.holdView (s : State) : State := s.put F.IKF_RED_HOLD_BYTES (s.holdUsed 0 + s.holdUsed 1)

/-! ## Additions (R366 to R368) -/

/-- A value divided by 2^e and rounded to an integer, ties to even. -/
def rneInt (v : Val) (e : Int) : Int :=
  match v with
  | .fin s m k =>
    let a : Nat := if e ≤ k then m * 2 ^ (k - e).toNat else roundShift .nearest false m (e - k).toNat
    if s then -(a : Int) else (a : Int)
  | _ => 0

/-- The sign that a non-finite block keeps of a value: +1, −1, or 0 for NaN. Log entry 179 (DEDUCED). -/
def signOf (v : Val) : Int :=
  match v with
  | .nan => 0
  | .inf s => if s then -1 else 1
  | .fin s m _ => if s && m != 0 then -1 else 1

/-- An element of a block (R367). -/
def blockVal (x : Nat) (m : Int) : Val :=
  if x = nfExp then (if 0 < m then .inf false else if m < 0 then .inf true else .nan) else ofInt m (signed 8 x)

/-- One hop of a block (R368): exponent code, mantissas, whether it escalated and whether it became non-finite.
Log entry 179 (DEDUCED). -/
def blockHop (x : Nat) (ms : List Int) (ins : List Val) : Nat × List Int × Bool × Bool :=
  let ts := List.zipWith (fun m v => vadd (blockVal x m) v) ms ins
  if x = nfExp then (nfExp, ts.map signOf, false, false)
  else if ins.any Val.isNan then (nfExp, ms.map (fun _ => 0), false, true)
  else if ins.any Val.isInf then (nfExp, ts.map signOf, false, true)
  else
    let e := signed 8 x
    match firstWhere (fun (d : Nat) => ts.all (fun t => decide ((rneInt t (e + d)).natAbs ≤ 32767))) [0, 1, 2, 3] with
    | none => (nfExp, ts.map signOf, false, true)
    | some d =>
      if 127 < e + d then (nfExp, ts.map signOf, false, true)
      else (encInt 8 (e + d), ts.map (fun t => rneInt t (e + d)), decide (0 < d), false)

/-- The 32 mantissas of block `b` of a piece, and its elements' contributions (0 past the end). -/
def blockMants (p : List Byte) (b : Nat) : List Int := (List.range 32).map (fun i => signed 16 (fieldAt p (64 + 64 * b + 2 * i) 2))
/-- Log entry 177 (DEDUCED). -/
def blockIns (own : List Nat) (b : Nat) : List Val := (List.range 32).map (fun i => f32 (own.getD (32 * b + i) 0))

/-- The ranks that the chain of segment `j` visits before rank `r`. Log entry 178 (DEDUCED). -/
def ranksBefore (p j r : Nat) : List Nat := (List.range ((r + 2 * p - (j + 1)) % p)).map (fun i => (j + 1 + i) % p)

/-- The data of an FP32 piece after this rank: the first present contribution is taken unchanged (R366).
Log entry 178 (DEDUCED). -/
def addSingle (first : Bool) (pay : List Byte) (own : List Nat) : List Nat :=
  own.zipIdx.map (fun x => if first then x.1 else f32c (rnA fp32 (vadd (f32 (fieldAt pay (64 + 4 * x.2) 4)) (f32 x.1))))

/-- The present contributions before rank `r` are none. Log entry 178 (DEDUCED). -/
def noneBefore (c : ChanSt) (pay : List Byte) (r : Nat) : Bool :=
  (ranksBefore c.p (hSeg pay) r).all (fun k => !bit (hPresent pay) k)

/-- A header with its NF, ESC and block exponents replaced. -/
def withMarks (pay : List Byte) (esc nf : Bool) (bexp : List Nat) : List Byte :=
  let h := putField pay 2 1 (putBit (putBit (byteAt pay 2) 0 esc) 1 nf)
  h.take 32 ++ bexp.map (BitVec.ofNat 8) ++ (h.drop (32 + bexp.length)).take (32 - bexp.length)

/-- This rank's contribution added to a piece (R359): the new payload, its block escalations and its blocks made
non-finite. Positions past the piece's elements carry 0 (R367). Log entry 177 (DEDUCED). -/
def addOwn (c : ChanSt) (r : Nat) (pay : List Byte) (own : List Nat) : List Byte × Nat × Nat :=
  if c.bs16 then
    let bs := (List.range (ceilDiv own.length 32)).map (fun b => blockHop (hBexp pay b) (blockMants pay b) (blockIns own b))
    let esc := (bs.filter (fun b => b.2.2.1)).length
    let nf := (bs.filter (fun b => b.2.2.2)).length
    (withMarks pay (hEsc pay || decide (0 < esc)) (hNf pay || decide (0 < nf)) (bs.map (·.1))
      ++ (bs.flatMap (·.2.1)).zipIdx.flatMap (fun m => leBytes 2 (if m.2 < own.length then encInt 16 m.1 else 0)), esc, nf)
  else
    let xs := addSingle (noneBefore c pay r) pay own
    let data := xs.flatMap (leBytes 4)
    (withMarks pay (hEsc pay) (hNf pay || xs.any (fun x => !(f32 x).isFin)) []
      ++ padTo (roundUp data.length 64) data, 0, 0)

/-- The piece that an origin starts with: zeros, with the owner's AGEXP in BS16 (R362, R367).
Log entry 177 (DEDUCED). -/
def State.zeroPiece (s : State) (q : Nat) (c : ChanSt) (step b j k present : Nat) : List Byte :=
  let n := s.pieceLen c b j k
  let blocks := ceilDiv n 32
  let bexp := if c.bs16 then List.replicate blocks (s.bAgexp c b) else []
  padTo 64 (leBytes 2 q ++ leBytes 1 (if c.late then 4 else 0) ++ leBytes 1 (if c.bs16 then 1 else 0) ++ leBytes 4 step
      ++ leBytes 4 b ++ leBytes 1 j ++ leBytes 1 1 ++ leBytes 2 0 ++ leBytes 4 present ++ leBytes 2 n ++ leBytes 2 0
      ++ leBytes 4 k ++ leBytes 4 0 ++ bexp.map (BitVec.ofNat 8))
    ++ List.replicate (if c.bs16 then 64 * blocks else roundUp (4 * n) 64) 0

/-! ## Delivery and PRM (R260, R369) -/

/-- The elements of a delivered piece as FP32 codes. -/
def pieceCodes (c : ChanSt) (pay : List Byte) : List Nat :=
  (List.range (hNelem pay)).map (fun i =>
    if c.bs16 then f32c (rn32 (blockVal (hBexp pay (i / 32)) ((blockMants pay (i / 32)).getD (i % 32) 0)))
    else fieldAt pay (64 + 4 * i) 4)

/-- The larger of two block exponents, where there are. -/
def maxExp (a b : Option Int) : Option Int :=
  match a, b with
  | some x, some y => some (max x y)
  | none, y => y
  | x, none => x

/-- The largest finite block exponent of a piece. -/
def pieceExp (c : ChanSt) (pay : List Byte) : Option Int :=
  if c.bs16 then
    ((List.range (ceilDiv (hNelem pay) 32)).filterMap (fun b =>
      if hBexp pay b = nfExp then none else some (signed 8 (hBexp pay b)))).foldl (fun m x => maxExp m (some x)) none
  else none

/-- The segment's elements divided by the number of present ranks (R260). -/
def divideBy (n code : Nat) : Nat := if n = 0 then 0 else f32c (div32 (f32 code) (nat32 n))

/-- PRM receive on a delivered segment: it divides in place and writes its record. -/
def State.doReceive (s : State) (u : PrmWait) (c : ChanSt) (d : Delivery) : State :=
  let r := s.rank c
  let len := s.segLen c u.bucket r
  let res := s.bResult c u.bucket
  let n := popcount 32 d.present
  let xs := (List.range len).map (fun k => divideBy n (s.load (res + 4 * k) 4))
  let s := s.setBytes res (xs.flatMap (leBytes 4))
  let nf := xs.any (fun x => !(f32 x).isFin)
  let b7 := if c.bs16 then (match d.bexp with | some e => encInt 8 e | none => nfExp) else 0
  let rc := leBytes 4 d.present ++ leBytes 2 n
    ++ leBytes 1 ((if n = 0 then 1 else 0) + (if d.esc then 2 else 0) + (if nf then 4 else 0)) ++ leBytes 1 b7
  s.storeNear u.core u.slot u.iid 0x51 u.rec_ 8 (fun s => s.setBytes u.rec_ rc)

/-- A PRM receive that waits can run: its channel has delivered the segment. Log entry 182 (DEDUCED). -/
def State.prmReady (s : State) (u : PrmWait) : Option (ChanSt × Delivery) :=
  match s.chan? u.queue with
  | some c => if (c.delivered.get u.bucket {}).whole then some (c, c.delivered.get u.bucket {}) else none
  | none => none

/-- PRM receives that wait for a delivered segment run, oldest first. Log entry 182 (DEDUCED). -/
def State.runPrms (s : State) : State :=
  let us := s.prms
  forEach us (fun u s =>
    match s.prmReady u with
    | some (c, d) => s.doReceive u c d
    | none => { s with prms := s.prms ++ [u] }) { s with prms := [] }

/-- A piece of the device's own segment is written; with the last one the segment is delivered (R369).
Log entry 184 (DEDUCED). -/
def State.deliver (s : State) (q : Nat) (pay : List Byte) : State :=
  match s.chan? q with
  | none => s
  | some c =>
    let b := hBucket pay
    let res := s.bResult c b + 4 * (c.unit * hPiece pay)
    let s := s.setBytes res ((pieceCodes c pay).flatMap (leBytes 4))
    let d := c.delivered.get b {}
    let ps := if d.pieces.contains (hPiece pay) then d.pieces else d.pieces ++ [hPiece pay]
    let whole := decide (s.segPieces c b (s.rank c) ≤ ps.length)
    let d := { d with pieces := ps, whole := whole, present := hPresent pay, esc := d.esc || hEsc pay,
                      bexp := maxExp d.bexp (pieceExp c pay) }
    let s := s.setChan q { c with delivered := c.delivered.set b {} d, moved := s.now }
    if whole then
      let s := if popcount 32 d.present < c.p then
          let s := (s.bumpRec c 48).bumpSat F.IKF_RED_PART_COUNT
          let s := (s.put F.IKF_RED_LOG_QUEUE q).put F.IKF_RED_LOG_STEP_LO (hStep pay)
          let s := (s.put F.IKF_RED_LOGQ_BUCKET b).put F.IKF_RED_LOGP_PRESENT d.present
          let s := { s with bar := { s.bar with flags := setBit s.bar.flags 0 } }
          s.postJob 0x03 srcDevice (s.rd .CMD_STEP).toNat [q, hStep pay, b, d.present]
        else s
      s.runPrms
    else s

/-! ## Sending to the next rank (R361, R364, R365) -/

/-- The next rank after `r` that is not skipped, on the way to the owner `j`, with the skipped ranks' bits cleared;
`none` for the rank when the owner itself is skipped. Log entry 183 (DEDUCED). -/
def nextRank (c : ChanSt) (j : Nat) : Nat → Nat → Nat → Option Nat × Nat
  | 0, r, pres => (some r, pres)
  | f + 1, r, pres =>
    if c.skip.contains r then
      (if r = j then (none, clrBit pres r) else nextRank c j f ((r + 1) % c.p) (clrBit pres r))
    else (some r, pres)

/-- RED_OWNER_LOST (R365). -/
def State.ownerLost (s : State) (q b rank : Nat) : State :=
  (s.fire 4 272).raise 0x38 .step srcDevice 0xFF s.sectId [] [q, b, rank]

/-- A piece goes on to the next rank that is not skipped. -/
def State.sendPiece (s : State) (q from_ : Nat) (pay : List Byte) : State :=
  match s.chan? q with
  | none => s
  | some c =>
    match nextRank c (hSeg pay) (c.p + 1) ((from_ + 1) % c.p) (hPresent pay) with
    | (none, _) => s.ownerLost q (hBucket pay) (hSeg pay)
    | (some k, pres) =>
      (s.sendPkt { type := 0x0D, world := c.world, dst := withCoord c.axis s.selfLog k,
                   payload := putField pay 16 4 pres }).chanMoved q

/-- A piece leaves this rank: delivered at its owner, or sent on. -/
def State.passOn (s : State) (q : Nat) (pay : List Byte) : State :=
  match s.chan? q with
  | none => s
  | some c => if hSeg pay = s.rank c then s.deliver q pay else s.sendPiece q (s.rank c) pay

/-! ## Arrivals, issue and forfeit (R361) -/

/-- The elements of this device's contribution that a piece takes. -/
def State.ownElems (s : State) (c : ChanSt) (b addr j k : Nat) : List Nat :=
  (List.range (s.pieceLen c b j k)).map (fun i => s.load (addr + 4 * (j * s.segStep c b + c.unit * k + i)) 4)

/-- A contribution has been taken by one more piece; with the last piece of the bucket its CHN completes. -/
def State.tookPiece (s : State) (q b : Nat) : State :=
  match s.chan? q with
  | none => s
  | some c =>
    match firstWhere (fun (x : Contribution) => x.q == b) c.live with
    | none => s
    | some x =>
      if s.allPieces c b ≤ x.taken + 1 then
        (s.setChan q { c with live := c.live.filter (fun y => y.q != b) }).complete x.core x.slot x.iid
      else s.setChan q { c with live := c.live.map (fun y => if y.q = b then { y with taken := y.taken + 1 } else y) }

/-- This rank's contribution added to a piece of an issued bucket. -/
def State.addTo (s : State) (q : Nat) (c : ChanSt) (pay : List Byte) : List Byte × State :=
  match firstWhere (fun (x : Contribution) => x.q == hBucket pay) c.live with
  | none => (pay, s)
  | some x =>
    let r := addOwn c (s.rank c) pay (s.ownElems c (hBucket pay) x.addr (hSeg pay) (hPiece pay))
    (r.1, ((s.bumpSat F.IKF_RED_ESC_COUNT 0 0 r.2.1).bumpSat F.IKF_RED_NF_COUNT 0 0 r.2.2).tookPiece q (hBucket pay))

/-- A piece for the step that the channel is armed for. -/
def State.arrive (s : State) (q : Nat) (pay : List Byte) : State :=
  match s.chan? q with
  | none => s
  | some c =>
    let b := hBucket pay
    match c.st b with
    | 0 =>
      (s.setChan q { c with
        held := c.held ++ [⟨pay, s.rank c, s.now⟩],
        timers := if c.timers.get b 0 = 0 then c.timers.set b 0 (s.now + s.chanTicks c) else c.timers }).holdView
    | 1 =>
      let r := s.addTo q c pay
      r.2.passOn q (putField r.1 13 1 (hHops pay + 1))
    | _ => s.passOn q (putField (putField pay 16 4 (clrBit (hPresent pay) (s.rank c))) 13 1 (hHops pay + 1))

/-- The held pieces of a bucket of the armed step pass through the arrival rule. -/
def State.releaseHeld (s : State) (q b : Nat) : State :=
  match s.chan? q with
  | none => s
  | some c =>
    let mine := fun (p : HeldPiece) => hBucket p.bytes == b && some (hStep p.bytes) == c.arm
    let s := s.setChan q { c with held := c.held.filter (fun p => !mine p) }
    (forEach (c.held.filter mine) (fun p s => s.arrive q p.bytes) s).holdView

/-- Every bit of the ring's present-set. -/
def allPresent (p : Nat) : Nat := 2 ^ p - 1

/-- This rank originates segment (r − 1) mod P of a bucket, from its own elements or as the zeros of an absent rank. -/
def State.originate (s : State) (q b step : Nat) (absent : Bool) : State :=
  match s.chan? q with
  | none => s
  | some c =>
    let r := s.rank c
    let j := (r + c.p - 1) % c.p
    let pres := if absent then clrBit (allPresent c.p) r else allPresent c.p
    forN (s.segPieces c b j) (fun k s =>
      match s.chan? q with
      | none => s
      | some c =>
        let z := s.zeroPiece q c step b j k pres
        if absent then s.passOn q z
        else
          let x := s.addTo q c z
          x.2.passOn q x.1) s

/-- A bucket issues (R358, R361): a forfeited one drops its contribution. -/
def State.issueBucket (s : State) (q : Nat) (c : ChanSt) (x : Contribution) (step : Nat) : State :=
  let s := s.setQf q 36 4 ((s.qHead q + 1) % s.qSize q)
  let ring := c.ring.filter (fun y => y.q != x.q)
  if c.st x.q = 2 then
    let s := (s.bumpRec c 44).bumpSat F.IKF_RED_DROP_COUNT
    (s.setChan q { c with ring := ring, state := c.state.set x.q 0 3, moved := s.now }).complete x.core x.slot x.iid
  else
    let s := s.setChan q { c with ring := ring, live := c.live ++ [x], state := c.state.set x.q 0 1,
                                  timers := c.timers.set x.q 0 0, moved := s.now }
    (s.originate q x.q step false).releaseHeld q x.q

/-- The lowest contribution of the ring that may issue. -/
def ChanSt.mayIssue (c : ChanSt) (x : Contribution) : Bool := x.q == 0 || c.st (x.q - 1) != 0
def ChanSt.firstToIssue (c : ChanSt) : Option Contribution :=
  c.ring.foldl (fun best x =>
    if c.mayIssue x then (match best with
      | some y => if x.q < y.q then some x else some y
      | none => some x)
    else best) none

/-- BUCKET_ISSUE (R358, R361): the channel's lowest contribution whose lower neighbour has issued or been forfeited. -/
def execBucketIssue (queue : Fin 32768) (s : State) : Out? :=
  match s.chan? queue.val with
  | none => .next s
  | some c =>
    match c.arm, c.firstToIssue with
    | some step, some x => .next (s.issueBucket queue.val c x step)
    | _, _ => .next s

/-- FORFEIT (R361): the lowest pending bucket whose deadline has expired is given up. -/
def execForfeit (queue : Fin 32768) (s : State) : Out? :=
  match s.chan? queue.val with
  | none => .next s
  | some c =>
    match c.arm, firstWhere (fun (e : Nat × Nat) => c.st e.1 == 0 && decide (e.2 ≤ s.now)) c.timers.ents with
    | some step, some e =>
      let q := queue.val
      let s := (s.bumpRec c 40).bumpSat F.IKF_RED_LATE_COUNT
      let s := { s with bar := { s.bar with flags := setBit s.bar.flags 2 } }
      let s := s.setChan q { c with state := c.state.set e.1 0 2, timers := c.timers.set e.1 0 0, moved := s.now }
      .next ((s.originate q e.1 step true).releaseHeld q e.1)
    | _, _ => .next s

/-- A piece disagrees with this device's copies of the channel record and bucket table (R355).
Log entry 221 (DEDUCED). -/
def State.pieceOdd (s : State) (c : ChanSt) (pay : List Byte) : Bool :=
  hFmt pay != (if c.bs16 then 1 else 0) || decide (c.nbkt ≤ hBucket pay) || decide (c.p ≤ hSeg pay)
    || decide (s.segPieces c (hBucket pay) (hSeg pay) ≤ hPiece pay)
    || hNelem pay != s.pieceLen c (hBucket pay) (hSeg pay) (hPiece pay)

/-- A piece would go to a hold store that has no room for it (R363). Log entry 180 (DEDUCED). -/
def State.holdFull (s : State) (c : ChanSt) (pay : List Byte) : Bool :=
  decide (2 * miB < s.holdUsed c.die + pay.length) &&
    (match c.arm with
     | some a => decide (a < hStep pay) || (hStep pay == a && c.st (hBucket pay) == 0)
     | none => false)

/-- RED_SEG (R361, R364): the oldest reduction piece that has arrived. While the hold store has no room for it, it
stays. Log entry 221 (DEDUCED). -/
def execRedSeg (s : State) : Out? :=
  match s.takeIn 0x0D with
  | none => .next s
  | some (b, t) =>
    let pay := pkPayload b
    let q := hQueue pay
    match t.chan? q with
    | none => .next (t.refusePkt b 4 pay)
    | some c =>
      match c.arm with
      | none => .next (t.refusePkt b 4 pay)
      | some a =>
        if hStep pay < a then .next t.netDrop
        else if s.pieceOdd c pay then .fault .ringDisagrees
        else if s.holdFull c pay then .next s
        else
          let t := t.setChan q { c with moved := t.now }
          if a < hStep pay then
            .next (t.setChan q { c with held := c.held ++ [⟨pay, t.rank c, t.now⟩], moved := t.now }).holdView
          else .next (t.arrive q pay)

/-! ## Ranks that refuse (R364) -/

/-- A piece that a rank returned: it waits for that rank, or goes on past a rank already skipped.
Log entry 183 (DEDUCED). -/
def State.pieceBack (s : State) (b : List Byte) : State :=
  let pay := pkPayload b
  let q := hQueue pay
  match s.chan? q with
  | none => s
  | some c =>
    if c.arm ≠ some (hStep pay) then s
    else
      let k := coord c.axis (pkSrc b)
      let s := s.setChan q { c with moved := s.now }
      if c.skip.contains k then s.sendPiece q (s.rank c) pay
      else (s.setChan q { c with back := c.back ++ [⟨pay, k, s.now⟩], moved := s.now }).holdView

/-- RED_SKIP (R364): one deadline after a rank returned a piece, its pieces are sent to it once more; a rank that still
refuses is skipped for the rest of the step. Log entry 183 (DEDUCED). -/
def execRedSkip (queue : Fin 32768) (rank : Fin 32) (s : State) : Out? :=
  match s.chan? queue.val with
  | none => .next s
  | some c =>
    let q := queue.val
    let mine := c.back.filter (fun p => p.rank == rank.val)
    let rest := c.back.filter (fun p => p.rank != rank.val)
    match mine with
    | [] => .next s
    | p :: _ =>
      let again := c.retried.contains rank.val
      if !again && decide (s.now < p.since + s.chanTicks c) then .next s
      else
        let c := if again then { c with back := rest, skip := c.skip ++ [rank.val] }
                 else { c with back := rest, retried := c.retried ++ [rank.val] }
        let s := s.setChan q c
        let s := if again then s.bumpSat F.IKF_RED_SKIP_COUNT else s
        .next ((forEach mine (fun p s => s.sendPiece q (s.rank c) p.bytes) s).holdView)

/-! ## Stall, arming and disarming (R358, R372, R373) -/

/-- The channel is waiting (R372). Log entry 187 (DEDUCED). -/
def ChanSt.waiting (c : ChanSt) : Bool :=
  !c.held.isEmpty || !c.back.isEmpty || !c.ring.isEmpty || !c.live.isEmpty
    || c.state.ents.any (fun e => (e.2 == 1 || e.2 == 3) && !(c.delivered.get e.1 {}).whole)

/-- RED_STALL (R372): a waiting channel with no progress for STALL_MS. Log entry 187 (DEDUCED). -/
def execRedStall (queue : Fin 32768) (s : State) : Out? :=
  match s.chan? queue.val with
  | none => .next s
  | some c =>
    let ms := Nat.min (Nat.max (s.fld F.IKF_RED_X3_STALL_MS) 1) 1000
    if c.arm.isSome ∧ c.waiting = true ∧ c.moved + msTicks ms ≤ s.now then
      .next (((s.chanMoved queue.val).fire 4 273).raise 0x39 .step srcDevice 0xFF s.sectId [] [queue.val])
    else .next s

/-- A channel is armed for a step; pieces held for that step pass through the arrival rule. -/
def State.armChan (s : State) (q step : Nat) : State :=
  match s.chan? q with
  | none => s
  | some c =>
    let now := c.held.filter (fun p => hStep p.bytes == step)
    let s := s.setChan q { c with arm := some step, state := .empty, timers := .empty, ring := [], live := [],
                                  held := c.held.filter (fun p => decide (step < hStep p.bytes)), back := [], skip := [],
                                  retried := [], delivered := .empty, moved := s.now }
    (forEach now (fun p s => s.arrive q p.bytes) s).holdView

/-- A channel is disarmed: held and returned pieces and timers are discarded. -/
def State.disarmChan (s : State) (q : Nat) : State :=
  match s.chan? q with
  | none => s
  | some c =>
    let s := s.setQf q 36 4 (s.qTail q)
    (s.setChan q { c with arm := none, state := .empty, timers := .empty, ring := [], live := [], held := [], back := [],
                          skip := [], retried := [], delivered := .empty }).holdView

/-- The active channels, by queue number. -/
def State.chanQueues (s : State) : List Nat := s.chans.keys
def State.armAll (s : State) (step : Nat) : State := forEach s.chanQueues (fun q s => s.armChan q step) s
def State.disarmAll (s : State) : State := forEach s.chanQueues (fun q s => s.disarmChan q) s

/-! ## CHN and PRM (R259, R260) -/

def wQueue (w : Nat) : Nat := bits w 110 96

/-- Log entry 181 (DEDUCED). -/
def State.judgeChn (s : State) (n _sl : Nat) (x : StnSt) (w : Nat) : Option Nat :=
  let b := x.ct (bits w 67 65)
  match s.chan? (wQueue w) with
  | none => some 4
  | some c =>
    if c.world ≠ s.sectWorld ∨ c.nbkt ≤ b ∨ b < c.next ∨ c.ring.any (fun y => y.q == b) = true
        ∨ c.st b = 1 ∨ c.st b = 3 then some 4
    else if !aligned (wAd x w) 64 then some 3
    else s.rangesFault (s.localOk n) [(wAd x w, 4 * s.bElems c b)]

/-- CHN is not ready while the channel's ring is full or the channel is not armed. Log entry 181 (DEDUCED). -/
def State.chnWaits (s : State) (w : Nat) : Bool :=
  match s.chan? (wQueue w) with
  | some c => c.arm.isNone || s.qFull (wQueue w)
  | none => false

/-- Log entry 181 (DEDUCED). -/
def State.doChn (s : State) (n sl : Nat) (x : StnSt) (w : Nat) : State :=
  let q := wQueue w
  let id := s.nextId n
  let b := x.ct (bits w 67 65)
  let a := wAd x w
  let s := s.acceptOnly n sl w
  let s := s.setQf q 40 4 ((s.qTail q + 1) % s.qSize q)
  s.onChan q (fun c => { c with ring := c.ring ++ [⟨b, a, n, sl, id, 0⟩] })

def State.judgePrm (s : State) (n _sl : Nat) (x : StnSt) (w : Nat) : Option Nat :=
  if wSub w ≠ 0 then none
  else if !aligned (wAd x w) 64 then some 3
  else s.rangesFault (s.localOk n) [(wAd x w, 8)]

/-- Log entry 182 (DEDUCED). -/
def State.doPrmReceive (s : State) (n sl : Nat) (x : StnSt) (w : Nat) : State :=
  let id := s.nextId n
  let u : PrmWait := ⟨n, sl, id, wQueue w, x.ct (bits w 67 65), wAd x w⟩
  let s := s.acceptOnly n sl w
  ({ s with prms := s.prms ++ [u] }).runPrms

/-- Log entry 186 (DEDUCED). -/
def State.doPrmCommit (s : State) (n sl : Nat) (x : StnSt) (w : Nat) : State :=
  let id := s.nextId n
  let step := x.ct (bits w 67 65)
  let s := s.acceptOnly n sl w
  match s.commitShards step with
  | (some e, s) => s.shardEpoch n sl 0x51 s.selfLog e
  | (none, s) => s.complete n sl id

end Sys2Proof.Machine
end

