-- ==== Sys2Proof/Machine/Ctl.lean ====
section
/-! DEFINITION. Basic and expert control (R10 to R12): for every function of the device its basic field, its
EXPERT_HELD bit, its expert registers, and what each named setting loads into them. -/

namespace Sys2Proof.Machine

/-- The functions that have a basic and an expert control. -/
inductive Ctl where
  | fill | chk | tally | num | watch | cnt | strike | svc | sc | clp | pf | hscrub | net | merge
  | arb | rto | deg | red | bar | ckpt | sscrub | nand | age | wv | wd | lnt | pwr | sleep | boot | flt
  deriving DecidableEq, Repr

/-- The basic control of a function. -/
def Ctl.basic : Ctl → Fld
  | .fill => F.ME_FILL_FILL_EN
  | .chk => F.ME_CHK_CHK_POLICY
  | .tally => F.DR_TALLY_TALLY_LEVEL
  | .num => ⟨.CO_NUM, 0, 2⟩
  | .watch => F.CMD_NUMW_WATCH_LEVEL
  | .cnt => F.CO_CNT_CNT_LEVEL
  | .strike => F.CMD_STRIKE_STRIKE_MODE
  | .svc => F.CMD_SVC_WATCH_EN
  | .sc => F.MD_SC_SC_PROFILE
  | .clp => F.CL_POOL_CLP_PROFILE
  | .pf => F.MD_PF_PF_EN
  | .hscrub => F.HBM_SCRUB_SCRUB_EN
  | .net => F.CL_NET_ARB_PROFILE
  | .merge => F.MD_MERGE_MERGE_EN
  | .arb => F.IKF_ARB_ARB_PROFILE
  | .rto => F.IKF_RTO_RTO_LEVEL
  | .deg => F.IKF_DEG_DEG_POLICY
  | .red => F.IKF_RED_RED_POLICY
  | .bar => F.CMD_BAR_BAR_LEVEL
  | .ckpt => F.STO_CKPT_CK_POLICY
  | .sscrub => F.STO_SCRUB_SCRUB_EN
  | .nand => F.NAND_IF_RATE_PROFILE
  | .age => F.HIF_AGE_AGE_PROFILE
  | .wv => F.SEC_WV_WV_LEVEL
  | .wd => F.BC_FW_WD_WD_PROFILE
  | .lnt => F.LNT_LVL_LNT_LEVEL
  | .pwr => F.BC_PWR_PROFILE
  | .sleep => F.BC_SLEEP_SLEEP_POLICY
  | .boot => F.BC_BOOT_BIST_LEVEL
  | .flt => F.CMD_FLT_FLT_POLICY

/-- The EXPERT_HELD bit of a function. -/
def Ctl.held : Ctl → Fld
  | .fill => F.ME_STATUS_FILL_HELD
  | .chk => F.ME_STATUS_CHK_HELD
  | .tally => F.DR_STATUS_TALLY_HELD
  | .num => F.CO_NUM_STAT_NUM_HELD
  | .watch => F.CMD_NUMW_WATCH_HELD
  | .cnt => F.CO_CNT_CNT_HELD
  | .strike => F.CMD_STRIKE_STRIKE_HELD
  | .svc => F.CMD_SVC_SVC_HELD
  | .sc => F.MD_SC_SC_HELD
  | .clp => F.CL_POOL_CLP_HELD
  | .pf => F.MD_PF_PF_HELD
  | .hscrub => F.HBM_SCRUB_SCRUB_HELD
  | .net => F.CL_NET_NET_HELD
  | .merge => F.MD_MERGE_MERGE_HELD
  | .arb => F.IKF_ARB_ARB_HELD
  | .rto => F.IKF_RTO_RTO_HELD
  | .deg => F.IKF_DEG_DEG_HELD
  | .red => F.IKF_RED_RED_HELD
  | .bar => F.CMD_BAR_BAR_HELD
  | .ckpt => F.STO_CKPT_CK_HELD
  | .sscrub => F.STO_SCRUB_SCRUB_HELD
  | .nand => F.NAND_IF_RATE_HELD
  | .age => F.HIF_AGE_AGE_HELD
  | .wv => F.SEC_WV_WV_HELD
  | .wd => F.BC_FW_WD_WD_HELD
  | .lnt => F.LNT_LVL_LNT_HELD
  | .pwr => F.BC_PWR_PWR_HELD
  | .sleep => F.BC_SLEEP_SLEEP_HELD
  | .boot => F.BC_BOOT_BOOT_HELD
  | .flt => F.CMD_FLT_FLT_HELD

/-- The setting that a value of the basic field selects: the value a table says it acts as. -/
def Ctl.acts (c : Ctl) (v : Nat) : Nat :=
  match c with
  | .num => if v % 4 ≥ 2 then 0 else v % 4
  | .watch => if v = 3 then 1 else v
  | .cnt => if v = 3 then 2 else v
  | .lnt => if v = 3 then 1 else v
  | .sc | .clp | .net | .arb | .rto | .deg | .red | .bar | .ckpt | .nand | .age | .wd | .sleep | .boot | .flt =>
    if v = 3 then 0 else v
  | _ => v

/-- One of four values by a setting. -/
def pick4 (v a b c d : Nat) : Nat :=
  match v with
  | 0 => a
  | 1 => b
  | 2 => c
  | _ => d

/-- The factory V/F points as loads of BC_VF0 to BC_VF15 (Table 19.3). -/
def vfLoads : List (Fld × Nat × Nat) :=
  (List.range 16).flatMap (fun i =>
    [(F.BC_VF_FREQ_MHZ, i, bits (vfFactory i) 11 0), (F.BC_VF_VOLT_MV, i, bits (vfFactory i) 27 16),
     (F.BC_VF_VALID, i, bits (vfFactory i) 31 31)])

/-- What a named setting loads into the expert registers of instance `i`: fields with their instance and value.
Log entry 24 (DEDUCED). -/
def Ctl.loads (c : Ctl) (i v : Nat) : List (Fld × Nat × Nat) :=
  match c with
  | .fill => [(F.ME_FILL_X_GAP_THR, i, 64), (F.ME_FILL_X_RAMP, i, 8), (F.ME_FILL_X_PROFILE, i, 0)]
  | .chk => [(F.ME_CHK_X_SUSPECT_LIM, i, 4), (F.ME_CHK_X_TOL_SHIFT, i, 0)]
  | .tally => [(F.DR_TALLY_X_ZERO_EN, i, 1), (F.DR_TALLY_X_NF_EN, i, 1), (F.DR_TALLY_X_AMAX_EN, i, 1),
               (F.DR_TALLY_X_SUMSQ_EN, i, v)]
  | .num => [(F.CO_NUM_X_AUTO_EN, i, pick4 v 1 0 1 1), (F.CO_NUM_X_HIST_LEN, i, 16), (F.CO_NUM_X_MARGIN, i, 1),
             (F.CO_NUM_X_RS_LIMIT, i, pick4 v 255 0 255 255), (F.CO_NUM_X_RS_MAXD, i, 31)]
  | .watch => [(F.CMD_NUMW_X_NF_EN, 0, pick4 v 0 1 1 1), (F.CMD_NUMW_X_SAT_EN, 0, pick4 v 0 0 1 0),
               (F.CMD_NUMW_X_ZERO_EN, 0, pick4 v 0 0 1 0), (F.CMD_NUMW_X_ZERO_FRAC, 0, 0xF0),
               (F.CMD_NUMW_X_SAT_FRAC, 0, 0x10)]
  | .cnt => [(F.CO_CNT_X_STN_EN, i, pick4 v 0 1 1 1), (F.CO_CNT_X_Q_EN, i, pick4 v 0 0 1 1)]
  | .strike => [(F.CMD_STRIKE_X_DRAIN_US, 0, if v = 0 then 40 else 0)]
  | .svc => [(F.CMD_SVC_X_STALL_MS, 0, 1)]
  | .sc => [(F.MD_SC_X_POOL_MIB, i, pick4 v 64 32 80 64)]
  | .clp => [(F.CL_POOL_X_CL_POOL_MIB, i, pick4 v 16 8 24 16)]
  | .pf => [(F.MD_PF_X_BUF_EN, i, v), (F.MD_PF_X_RANGE_EN, i, v), (F.MD_PF_X_IMAGE_EN, i, v)]
  | .hscrub => [(F.HBM_SCRUB_X_SCRUB_H, i, 24)]
  | .net => [(F.CL_NET_X_W_RSP, i, 4), (F.CL_NET_X_W_RED, i, pick4 v 2 3 1 2), (F.CL_NET_X_W_BLK, i, pick4 v 2 1 3 2)]
  | .merge => [(F.MD_MERGE_X_WINDOW, i, if v = 1 then 64 else 0)]
  | .arb => [(F.IKF_ARB_X_W_VC3, 0, 4), (F.IKF_ARB_X_W_VC1, 0, pick4 v 2 3 1 2), (F.IKF_ARB_X_W_VC2, 0, pick4 v 2 1 3 2)]
  | .rto => [(F.IKF_RTO_X_TICKS, 0, pick4 v 25000 250000 2500 25000)]
  | .deg => [(F.IKF_DEG_X_SYM_LIM, 0, pick4 v 4096 256 65535 4096)]
  | .red => [(F.IKF_RED_X_DL_EARLY_US, 0, pick4 v 100 1000 10 100),
             (F.IKF_RED_X2_DL_LATE_US, 0, pick4 v 10000 100000 1000 10000),
             (F.IKF_RED_X3_STALL_MS, 0, pick4 v 100 1000 10 100)]
  | .bar => [(F.CMD_BAR_X_BAR_MS, 0, pick4 v 1000 10000 100 1000)]
  | .ckpt =>
    match v with
    | 1 => [(F.STO_CKPT_X_ADAPT, 0, 0), (F.STO_CKPT_X_FIX_SEL, 0, 0)]
    | 2 => [(F.STO_CKPT_X_ADAPT, 0, 0), (F.STO_CKPT_X_FIX_SEL, 0, 1)]
    | _ => [(F.STO_CKPT_X_ADAPT, 0, 1), (F.STO_CKPT_X_CFLOOR_MS, 0, 50), (F.STO_CKPT_X_EV_WIN_H, 0, 24)]
  | .sscrub => [(F.STO_SCRUB_X_SCRUB_D, 0, 7), (F.STO_SCRUB_X_REFRESH_LVL, 0, 4)]
  | .nand => [(F.NAND_IF_X_MTS, 0, pick4 v 3600 2400 1600 3600)]
  | .age => [(F.HIF_AGE_X_AGE_TICKS, 0, pick4 v 25000 2500 250000 25000)]
  | .wv => [(F.SEC_WV_X_EVT_EN, 0, v)]
  | .wd => [(F.BC_FW_WD_X_WD_MS, 0, pick4 v 20 100 5 20), (F.BC_FW_WD_X_CRASH_LIM, 0, pick4 v 4 4 8 4)]
  | .lnt => [(F.LNT_MASK_MASK, i, pick4 v 0x7 0x1F 0xFFFF 0x1F)]
  | .pwr => [(F.BC_PWR_X_BUDGET_W, 0, pick4 v 2800 2800 2200 1800), (F.BC_PWR_X_CEIL_PT, 0, pick4 v 0 0 3 4),
             (F.BC_PWR_X_ADAPT, 0, pick4 v 1 0 1 1)] ++ vfLoads
  | .sleep => [(F.BC_SLEEP_X_DOZE_EN, 0, pick4 v 1 1 0 1), (F.BC_SLEEP_X_DOZE_IDLE_US, 0, 10),
               (F.BC_SLEEP_X_BIV_EN, 0, pick4 v 1 0 0 1), (F.BC_SLEEP_X_BIV_IDLE_MS, 0, 100),
               (F.BC_SLEEP_X_SR_EN, 0, pick4 v 1 0 0 1)]
  | .boot => [(F.BC_BOOT_X_FULL_COLD, 0, 1), (F.BC_BOOT_X_FULL_WARM, 0, pick4 v 0 1 1 0),
              (F.BC_BOOT_X_REBUILD, 0, pick4 v 0 0 1 0), (F.BC_BOOT_X_FAB_WAIT_MS, 0, 300), (F.BC_BOOT_X_WR_MIN, 0, 60)]
  | .flt => [(F.CMD_FLT_X_SEC_LIM, 0, pick4 v 2 4 1 2), (F.CMD_FLT_X_STEP_LIM, 0, pick4 v 4 8 2 4),
             (F.CMD_FLT_X_REP_WIN, 0, pick4 v 60 10 240 60)]

/-- The expert registers of a function; a host write to one of them sets EXPERT_HELD (R11). -/
def Ctl.experts : Ctl → List RegId
  | .fill => [.ME_FILL_X]
  | .chk => [.ME_CHK_X]
  | .tally => [.DR_TALLY_X]
  | .num => [.CO_NUM_X]
  | .watch => [.CMD_NUMW_X]
  | .cnt => [.CO_CNT_X]
  | .strike => [.CMD_STRIKE_X]
  | .svc => [.CMD_SVC_X]
  | .sc => [.MD_SC_X]
  | .clp => [.CL_POOL_X]
  | .pf => [.MD_PF_X]
  | .hscrub => [.HBM_SCRUB_X]
  | .net => [.CL_NET_X]
  | .merge => [.MD_MERGE_X]
  | .arb => [.IKF_ARB_X]
  | .rto => [.IKF_RTO_X]
  | .deg => [.IKF_DEG_X]
  | .red => [.IKF_RED_X, .IKF_RED_X2, .IKF_RED_X3]
  | .bar => [.CMD_BAR_X]
  | .ckpt => [.STO_CKPT_X]
  | .sscrub => [.STO_SCRUB_X]
  | .nand => [.NAND_IF_X]
  | .age => [.HIF_AGE_X]
  | .wv => [.SEC_WV_X]
  | .wd => [.BC_FW_WD_X]
  | .lnt => [.LNT_MASK]
  | .pwr => [.BC_PWR_X, .BC_VF, .BC_CL]
  | .sleep => [.BC_SLEEP_X]
  | .boot => [.BC_BOOT_X]
  | .flt => [.CMD_FLT_X]

/-- Every function. -/
def Ctl.all : List Ctl :=
  [.fill, .chk, .tally, .num, .watch, .cnt, .strike, .svc, .sc, .clp, .pf, .hscrub, .net, .merge, .arb, .rto, .deg,
   .red, .bar, .ckpt, .sscrub, .nand, .age, .wv, .wd, .lnt, .pwr, .sleep, .boot, .flt]

/-- The function whose basic control a register holds. -/
def ctlOfBasic (r : RegId) : Option Ctl := firstWhere (fun c => c.basic.reg == r) Ctl.all

/-- The function whose expert register this is. -/
def ctlOfExpert (r : RegId) : Option Ctl := firstWhere (fun c => c.experts.contains r) Ctl.all

/-- The instance of a function that an expert register's instance belongs to: BC_PWR has one for all points and
clusters. -/
def Ctl.inst (c : Ctl) (i : Nat) : Nat :=
  match c with
  | .pwr => 0
  | _ => i

/-- Load fields one after another. -/
def State.putAll (s : State) : List (Fld × Nat × Nat) → State
  | [] => s
  | (f, i, v) :: xs => (s.put f v i).putAll xs

/-- The last usable V/F point (R497): the entries from entry 0 up to the first that is invalid or no slower than the
entry before it; `none` when entry 0 is invalid. Frequencies count in steps of 25 MHz, at most 2,100 MHz. -/
def State.vfFreq (s : State) (i : Nat) : Nat := Nat.min (s.fld F.BC_VF_FREQ_MHZ i / 25 * 25) 2100

/-- The voltage of a point, at most 950 mV. -/
def State.vfVolt (s : State) (i : Nat) : Nat := Nat.min (s.fld F.BC_VF_VOLT_MV i) 950

/-- How many of the points from `i` on are usable, looking at `n` entries. -/
def State.vfRun (s : State) : Nat → Nat → Nat
  | 0, _ => 0
  | n + 1, i =>
    if s.flag F.BC_VF_VALID i && (i == 0 || decide (s.vfFreq i < s.vfFreq (i - 1))) then 1 + s.vfRun n (i + 1) else 0

/-- The number of usable points of the V/F table. -/
def State.vfUsable (s : State) : Nat := s.vfRun 16 0

/-- VF_BAD is set when an entry is cut off or reduced (R497). -/
def State.vfCheck (s : State) : State :=
  let cut := (List.range 16).any (fun i => s.flag F.BC_VF_VALID i && decide (s.vfUsable ≤ i))
  let low := (List.range 16).any (fun i =>
    s.flag F.BC_VF_VALID i && (decide (2100 < s.fld F.BC_VF_FREQ_MHZ i / 25 * 25) || decide (950 < s.fld F.BC_VF_VOLT_MV i)))
  if cut || low then s.put F.BC_PWR_ST_VF_BAD 1 else s

/-- Reload every expert register of a function from the table of the current basic setting. -/
def State.reload (s : State) (c : Ctl) (i : Nat) : State :=
  s.putAll (c.loads i (c.acts (s.fld c.basic i)))

/-- Write the basic control of a function: the expert registers are reloaded and EXPERT_HELD clears (R10). -/
def State.writeBasic (s : State) (c : Ctl) (i : Nat) (v : Word) : State :=
  ((s.put c.basic (bits v.toNat c.basic.hi c.basic.lo) i).reload c i).put c.held 0 i

/-- Clear EXPERT_HELD by writing 1 to it: the expert registers are reloaded (R11). Log entry 22 (DEDUCED). -/
def State.clearHeld (s : State) (c : Ctl) (i : Nat) : State := (s.put c.held 0 i).reload c i

/-- Set EXPERT_HELD of a function. -/
def State.setHeld (s : State) (c : Ctl) (i : Nat) : State := s.put c.held 1 i

end Sys2Proof.Machine
end

