-- ==== Sys2Proof/Machine/Access.lean ====
section
/-! DEFINITION. What a register access reaches, and how each field acts under its access code (R5 to R7, R425, R494,
R526, R569, R580). -/

namespace Sys2Proof.Machine

/-- A host function's BAR0 reaches a register: the PF reaches every one, a VF its own HIF_ function part (Table 16.2,
R424); a firmware processor reaches every one. Log entry 15 (DEDUCED). -/
def srcReaches (src : Src) (r : RegId) (i : Nat) : Bool :=
  match src with
  | .fw _ _ => true
  | .fn f => f.val == 0 || (decide (0x11000 ≤ r.addr 0 0) && regsOfHif.contains r && i == f.val)

/-- Asleep cycles of a doze: its time at the cluster clock in force before it, rounded down (R197).
Log entry 90 (DEDUCED). -/
def State.dozeCycles (s : State) (k : Nat) : Nat := (s.now - s.slp.dozeAt.getD k 0) * s.fld F.BC_CL_F_FREQ_MHZ k / 25

/-- The asleep counters of core `n`'s stations rise by a doze (R197). -/
def State.sleptCore (s : State) (n c : Nat) : State :=
  if s.flag F.CO_CNT_X_STN_EN n then
    forN 6 (fun sl s =>
      match (s.cores.get n {}).stns.getD sl none with
      | some _ => s.bump F.CO_STN_ASLEEP_COUNT n sl c
      | none => s) s
  else s

/-- A dozing cluster runs again: the wake that a register access, a packet, a pitch or strike, or MGT asks for
(R493). Log entry 16 (DEDUCED). -/
def State.dozeWake (s : State) (k : Nat) : State :=
  if s.fld F.BC_CL_STATE k = 1 then
    let c := s.dozeCycles k
    let s := (s.sleptCore (2 * k) c).sleptCore (2 * k + 1) c
    { (s.put F.BC_CL_STATE 0 k).put F.CL_PST_STATE 0 k with wakeReq := s.wakeReq.filter (· ≠ k) }
  else s

/-- A register access as it reaches the register: `none` when it has no effect, else the state once a dozing cluster
has woken for it. No host access reaches a device held in reset; registers of a cluster in bivouac take no write.
Log entries 16 (DEDUCED), 18 (DEDUCED). -/
def State.access (s : State) (src : Src) (r : RegId) (i : Nat) : Option State :=
  if srcIsHost src && s.inReset then none
  else if !srcReaches src r i then none
  else
    match regCluster r i with
    | none => some s
    | some k => if s.inBivouac k then none else some (s.dozeWake k)

/-- A write's effect `f` where the access reaches the register, nothing otherwise. Log entry 15 (DEDUCED). -/
def State.reach (s : State) (src : Src) (r : RegId) (i : Nat) (f : State → State) : State :=
  match s.access src r i with
  | some t => f t
  | none => s

/-- The register word after a write under the access codes of Table 0.2, without side effects; `sec` says that the
write comes from the S world. -/
def writeFields (sec : Bool) (v : Nat) : List FieldDef → Nat → Nat
  | [], w => w
  | f :: fs, w =>
    let new := bits v f.hi f.lo
    let old := bits w f.hi f.lo
    let x :=
      match f.acc with
      | .ro => old
      | .rw => new
      | .w1c => (List.range (f.hi + 1 - f.lo)).foldl (fun o k => if bit new k then clrBit o k else o) old
      | .wo => old
      | .sec => if sec then new else old
    writeFields sec v fs (putBits w f.hi f.lo x)

/-- The plain write of a register: each field under its access code (R6, R9). Log entry 26 (DEDUCED). -/
def State.plainWrite (s : State) (src : Src) (r : RegId) (i j : Nat) (v : Word) : State :=
  s.wr r (BitVec.ofNat 32 (writeFields (srcWorld src == .s) v.toNat r.fields (s.rd r i j).toNat)) i j

/-- A write that only the S world makes: from the N world it has no effect, and it is a world violation when from the
S world it would change something or cause an action (R580). Log entry 26 (DEDUCED). -/
def State.secure (s : State) (src : Src) (off : Nat) (f : State → State) : State :=
  match srcWorld src with
  | .s => f s
  | .n => if f s = s then s else s.worldViol 1 (srcCode src) off

/-- Fields made 0. -/
def State.clearFields (s : State) (i j : Nat) : List Fld → State
  | [] => s
  | f :: fs => (s.put f 0 i j).clearFields i j fs

/-- The held bits that guard expert fields of access S: only the S world clears them (R571, R580). -/
def Ctl.guarded : Ctl → Bool
  | .wd | .boot | .wv => true
  | _ => false

end Sys2Proof.Machine
end

