-- ==== Sys2Proof/Machine/Gatherer.lean ====
section
/-! DEFINITION. The event gatherers (R482 to R488): firing, selection, taking and ending a source. -/

namespace Sys2Proof.Machine

/-- The gatherer interrupts its processor (R484). -/
def State.evgInterrupts (s : State) (p : Nat) : Bool :=
  s.flag F.EVG_CTL_EN p && decide ((s.proc p).active.length < 16) &&
    (match s.evgTop p with
     | none => false
     | some t =>
       match (s.proc p).active with
       | [] => true
       | a :: _ => decide (s.evgGroup p t < s.evgGroup p a))

/-- EVG_RUN's computed fields follow the active sources (Table 18.11). -/
def State.evgRunView (s : State) (p : Nat) : State :=
  let a := (s.proc p).active
  let s := s.put F.EVG_RUN_PRIO (match a with | [] => 0 | x :: _ => s.evgPrio p x) p
  let s := s.put F.EVG_RUN_IDLE (if a.isEmpty then 1 else 0) p
  let s := s.put F.EVG_RUN_DEPTH (Nat.min a.length 15) p
  s.put F.EVG_RUN_FULL (if 16 ≤ a.length then 1 else 0) p

/-- A source's pending bit and firing count clear. -/
def State.evgUnpend (s : State) (p src : Nat) : State :=
  let s := s.put ⟨.EVG_PEND, src % 32, src % 32⟩ 0 p (src / 32)
  { s with fires := s.fires.set (1024 * p + src) 0 0 }

/-- Take a source: pending, enabled and not active, it becomes the innermost active source (R485). -/
def State.evgTake (s : State) (p src : Nat) : State :=
  if src < 1023 ∧ s.evgReady p src = true then
    let c := s.fires.get (1024 * p + src) 0
    let s := s.evgUnpend p src
    let s := s.put ⟨.EVG_ACT, src % 32, src % 32⟩ 1 p (src / 32)
    let s := s.setProc p { s.proc p with active := src :: (s.proc p).active, irq := false }
    ((s.put F.EVG_RUN_COUNT c p).evgRunView p).evgTopView p
  else s

/-- End the innermost active source; any other value sets EOI_ERR (R485). -/
def State.evgEoi (s : State) (p src : Nat) : State :=
  match (s.proc p).active with
  | a :: rest =>
    if a = src then
      let s := s.put ⟨.EVG_ACT, src % 32, src % 32⟩ 0 p (src / 32)
      ((s.setProc p { s.proc p with active := rest }).evgRunView p).evgTopView p
    else s.put F.EVG_CTL_EOI_ERR 1 p
  | [] => s.put F.EVG_CTL_EOI_ERR 1 p

/-- The sources of word `n` whose bit is 1 in `v`. -/
def evgBits (n : Nat) (v : Word) : List Nat :=
  ((List.range 32).filter (fun b => bit v.toNat b)).map (32 * n + ·)

/-- EVG_PSET: each source written 1 becomes pending as if it had fired (R486). -/
def State.evgPset (s : State) (p n : Nat) (v : Word) : State :=
  forEach (evgBits n v) (fun x t => t.fire p x) s

/-- EVG_PCLR: each source written 1 loses its pending bit and count (R486). -/
def State.evgPclr (s : State) (p n : Nat) (v : Word) : State :=
  (forEach (evgBits n v) (fun x t => t.evgUnpend p x) s).evgTopView p

/-- EVG_TAKE (R485): access S. -/
def execEvgTake (src : Src) (p : Proc) (v : Word) (s : State) : Out? :=
  .next (s.reach src .EVG_TAKE (procNum p) (fun t =>
    t.secure src (RegId.EVG_TAKE.addr (procNum p) 0) (fun u =>
      (u.put F.EVG_TAKE_SRC v.toNat (procNum p)).evgTake (procNum p) (bits v.toNat 9 0))))

/-- EVG_EOI (R485): access S. From the N world only a write that would change SRC or end a source is a violation. -/
def execEvgEoi (src : Src) (p : Proc) (v : Word) (s : State) : Out? :=
  .next (s.reach src .EVG_EOI (procNum p) (fun t =>
    match srcWorld src with
    | .s => (t.put F.EVG_EOI_SRC v.toNat (procNum p)).evgEoi (procNum p) (bits v.toNat 9 0)
    | .n =>
      if bits v.toNat 9 0 = t.fld F.EVG_EOI_SRC (procNum p) ∧ (t.proc (procNum p)).active.head? ≠ some (bits v.toNat 9 0)
      then t
      else t.worldViol 1 (srcCode src) (RegId.EVG_EOI.addr (procNum p) 0)))

/-- EVG_PSET (R486): access S. -/
def execEvgPset (src : Src) (p : Proc) (i : Fin 32) (v : Word) (s : State) : Out? :=
  .next (s.reach src .EVG_PSET (procNum p) (fun t =>
    t.secure src (RegId.EVG_PSET.addr (procNum p) i.val) (fun u => u.evgPset (procNum p) i.val v)))

/-- EVG_PCLR (R486): access S. -/
def execEvgPclr (src : Src) (p : Proc) (i : Fin 32) (v : Word) (s : State) : Out? :=
  .next (s.reach src .EVG_PCLR (procNum p) (fun t =>
    t.secure src (RegId.EVG_PCLR.addr (procNum p) i.val) (fun u => u.evgPclr (procNum p) i.val v)))

/-- EVENT_SOURCE_FIRE (R483): the source's pending bit sets and its count rises, whatever EN and the active bit.
Log entry 78 (DESIGN CHOICE). -/
def execEventSourceFire (p : Proc) (src : Fin 1023) (s : State) : Out? :=
  .next (s.fire (procNum p) src.val)

/-- GATHERER_INTERRUPT (R484): the interrupt to the processor is asserted while the conditions of R484 hold. -/
def execGathererInterrupt (p : Proc) (s : State) : Out? :=
  if s.evgInterrupts (procNum p) then .next (s.setProc (procNum p) { s.proc (procNum p) with irq := true })
  else .next s

/-- TIMER (R482): one of TIMER0 to TIMER3 of a gatherer expires and fires source 1 to 4.
Log entry 78 (DESIGN CHOICE). -/
def execTimer (p : Proc) (i : Fin 4) (s : State) : Out? := .next (s.fire (procNum p) (1 + i.val))

end Sys2Proof.Machine
end

