-- ==== Sys2Proof/Machine/HostAccess.lean ====
section
/-! DEFINITION. The host's own accesses: narrow writes, function ranges, admin queues, MSI-X, doorbells and BAR4
windows (chapter 16). -/

namespace Sys2Proof.Machine

/-- A host write narrower than 32 bits or not aligned to 4 bytes: no register changes; NARROW, the offset and
HOST_ERR report it (R5, R425). A firmware processor's narrow write has no effect.
Log entries 21 (DEDUCED), 35 (DEDUCED). -/
def execNarrowWrite (src : Src) (off : Nat) (s : State) : Out? :=
  if s.inReset then .next s
  else
    match src with
    | .fw _ _ => .next s
    | .fn f =>
      let s := (s.put F.HIF_ERR_NARROW 1).put F.HIF_ERR_ADDR_OFFSET off
      .next (s.postAdmin f.val 0x0B srcDevice 0 [f.val, off])

/-- Two ranges of queue numbers overlap. -/
def overlaps (b c b' c' : Nat) : Bool := decide (0 < c) && decide (0 < c') && decide (b < b' + c') && decide (b' < b + c)

/-- A queue range for function `f` is allowed (R433): it overlaps no other function's range, does not reach into the
firmware range, and keeps every queue of the function that is still active. -/
def State.rangeOk (s : State) (f b c : Nat) : Bool :=
  decide (b + c ≤ 32768)
    && !overlaps b c (s.fld F.HIF_FWQBASE_QBASE) (s.fld F.HIF_FWQBASE_QCNT)
    && ((List.range 64).filter (· ≠ f)).all (fun g =>
          !overlaps b c (s.fld F.HIF_FN_QBASE_QBASE g) (s.fld F.HIF_FN_QBASE_QCNT g))
    && s.liveQueues.all (fun q => s.qOwner q != f || (decide (b ≤ q) && decide (q < b + c)))

/-- A write to a field that acts only through the PF's BAR0, or from firmware. -/
def pfWrites (src : Src) : Bool :=
  match src with
  | .fn f => f.val == 0
  | .fw _ _ => true

/-- HIF_FN_QBASE (R433). -/
def State.writeQbase (s : State) (src : Src) (f : Nat) (v : Word) : State :=
  if pfWrites src then
    let b := bits v.toNat 14 0
    let c := bits v.toNat 31 16
    if s.rangeOk f b c then (s.put F.HIF_FN_QBASE_QBASE b f).put F.HIF_FN_QBASE_QCNT c f
    else s.put F.HIF_ERR_RANGE 1
  else s

/-- HIF_FN_QBASE write by row. -/
def execHifFnQbase (src : Src) (f : Fin 64) (v : Word) (s : State) : Out? :=
  .next (s.reach src .HIF_FN_QBASE f.val (fun t => t.writeQbase src f.val v))

/-- The admin ring size that a 4-bit log selects: 4 to 12, other values act as 4. -/
def admSize (n : Nat) : Nat := if 4 ≤ n ∧ n ≤ 12 then 2 ^ n else 16

/-- One admin queue entry (R433): host ring, N world, priority normal. Log entry 31 (DESIGN CHOICE). -/
def State.admQueue (s : State) (f q cls cq base size : Nat) : State :=
  (s.setBytes (qAddr q)
    (padTo 128 ([BitVec.ofNat 8 cls, 0x0A, BitVec.ofNat 8 f, 0] ++ leBytes 2 cq ++ leBytes 2 0 ++ leBytes 8 base
      ++ leBytes 4 size))).qActivate q

/-- ADM_EN = 1: queues QBASE to QBASE + 2 become the admin HSQ, HCQ and EVQ (R433). Log entry 30 (DESIGN CHOICE). -/
def State.admEnable (s : State) (f : Nat) : State :=
  let s := s.put F.HIF_FN_CTL_ADM_EN 1 f
  let b := s.fld F.HIF_FN_QBASE_QBASE f
  if s.flag F.HIF_FN_ST_ADM_ACT f || decide (s.fld F.HIF_FN_QBASE_QCNT f < 3) then s
  else
    let base lo hi := (s.rd hi f).toNat * 4294967296 + (s.rd lo f).toNat / 64 * 64
    let t := s.admQueue f b 0 (b + 1) (base .HIF_FN_ASQ_LO .HIF_FN_ASQ_HI) (admSize (s.fld F.HIF_FN_CTL_ASQ_LOG f))
    let t := t.admQueue f (b + 1) 1 0 (base .HIF_FN_ACQ_LO .HIF_FN_ACQ_HI) (admSize (s.fld F.HIF_FN_CTL_ACQ_LOG f))
    let t := t.admQueue f (b + 2) 6 0 (base .HIF_FN_AEQ_LO .HIF_FN_AEQ_HI) (admSize (s.fld F.HIF_FN_CTL_AEQ_LOG f))
    t.put F.HIF_FN_ST_ADM_ACT 1 f

/-- ADM_EN = 0: the admin queues become inactive (R433). -/
def State.admDisable (s : State) (f : Nat) : State :=
  let s := s.put F.HIF_FN_CTL_ADM_EN 0 f
  if s.flag F.HIF_FN_ST_ADM_ACT f then
    let b := s.fld F.HIF_FN_QBASE_QBASE f
    (((s.qDeactivate b).qDeactivate (b + 1)).qDeactivate (b + 2)).put F.HIF_FN_ST_ADM_ACT 0 f
  else s

/-- ADM_ENABLE (R433). -/
def execAdmEnable (src : Src) (f : Fin 64) (s : State) : Out? :=
  .next (s.reach src .HIF_FN_CTL f.val (fun t => t.admEnable f.val))

/-- ADM_DISABLE (R433). -/
def execAdmDisable (src : Src) (f : Fin 64) (s : State) : Out? :=
  .next (s.reach src .HIF_FN_CTL f.val (fun t => t.admDisable f.val))

/-- HIF_FN_MSIX (R443): the sizes of all functions sum to at most 4,096. -/
def State.writeMsix (s : State) (src : Src) (f : Nat) (v : Word) : State :=
  if pfWrites src then
    let others := ((List.range 64).filter (· ≠ f)).foldl (fun a g => a + s.fld F.HIF_FN_MSIX_SIZE g) 0
    if others + bits v.toNat 12 0 ≤ 4096 then s.put F.HIF_FN_MSIX_SIZE v.toNat f else s.put F.HIF_ERR_RANGE 1
  else s

/-- HIF_FN_MSIX write by row. -/
def execHifFnMsix (src : Src) (f : Fin 64) (v : Word) (s : State) : Out? :=
  .next (s.reach src .HIF_FN_MSIX f.val (fun t => t.writeMsix src f.val v))

/-- MSIX_UNMASK (R443): a vector whose pending bit is set sends one message. -/
def execMsixUnmask (f : Fin 64) (vec : Nat) (s : State) : Out? :=
  if s.inReset ∨ s.fld F.HIF_FN_MSIX_SIZE f.val ≤ vec then .next s
  else
    let key := 4096 * f.val + vec
    let v := s.msix.get key {}
    let s1 := { s with msix := s.msix.set key {} { masked := false, pend := false } }
    .next (if v.pend then s1.emit (.msix f.val vec) else s1)

/-- The world of a function's doorbells, BAR4 accesses and requests: S only for a TDI in RUN on its IDE stream
(R426). -/
def State.fnWorld (s : State) (f : Nat) (ide : Bool) : World :=
  if ide && s.flag F.HIF_FN_ST_TDI_RUN f then .s else .n

/-- QUEUE_ERR: the queue enters the error state, reported to its owner's admin event queue (R431). -/
def State.queueError (s : State) (q ix cause : Nat) : State :=
  let s := s.setQf q 32 1 2
  if s.qOwner q < 64 then s.postAdmin (s.qOwner q) 0x0A srcDevice 0 [q, ix, cause] else s

/-- What follows an accepted TAIL: the consumer learns of the entry. Log entry 79 (DEDUCED). -/
def State.doorbellSignal (s : State) (q : Nat) : State :=
  match s.qClass q with
  | 0 => (s.arbEnter 0 q (s.qPrio q)).fire 4 281
  | 2 => s.arbEnter 2 q (s.qPrio q)
  | 5 => s.fire (s.qOwner q - 0x80) (s.mailboxSource q)
  | _ => s

/-- An index accepted or refused for an active queue of the writer (R430, R431). Log entry 33 (DEDUCED). -/
def State.doorbellIndex (s : State) (q ix : Nat) : State :=
  let cls := s.qClass q
  if s.qSize q ≤ ix then s.queueError q ix 1
  else if cls = 0 ∨ cls = 2 ∨ cls = 5 then (s.setQf q 40 4 ix).doorbellSignal q
  else if cls = 1 ∨ cls = 3 ∨ cls = 6 then
    let n := s.qSize q
    if (ix + n - s.qHead q) % n ≤ (s.qTail q + n - s.qHead q) % n then s.setQf q 36 4 ix
    else s.queueError q ix 2
  else s

/-- DOORBELL (R431). A firmware write is checked as the owner's in the queue's world (R565). -/
def execDoorbell (src : Src) (ide : Bool) (q : Fin 32768) (ix : Nat) (s : State) : Out? :=
  let ix := ix % 4294967296
  match src with
  | .fw _ _ => .next (if s.qState q.val = 1 then s.doorbellIndex q.val ix else s)
  | .fn f =>
    if s.inReset then .next s
    else
      let drop := s.bumpSat F.HIF_FN_DBDROP_COUNT f.val
      if s.qState q.val = 0 ∨ s.qOwner q.val ≠ f.val then .next drop
      else if s.qWorld q.val ≠ s.fnWorld f.val ide then .next (drop.worldViol 6 (0x40 + f.val) (64 * q.val))
      else if s.qState q.val = 1 then .next (s.doorbellIndex q.val ix)
      else .next s

/-- An access to HBM of the remote, BAR4, STO or prefetch kind: stacks in self-refresh come out for it (R507).
Log entry 28 (DEDUCED). -/
def State.hbmTouch (s : State) : State :=
  let s := { s with hbmLast := s.now }
  if s.flag F.BC_PWR_ST_HBM_SR then
    forN 8 (fun h s => s.put F.HBM_STATUS_SELFREF 0 h) (s.put F.BC_PWR_ST_HBM_SR 0)
  else s

/-- The local address that a BAR4 offset reaches through its window (R432). -/
def State.windowAddr (s : State) (f off : Nat) : Nat :=
  let w := off / 0x10000000
  s.fld F.HIF_WIN_HI_ADDR_HI f w * 4294967296 + s.fld F.HIF_WIN_LO_ADDR_LO f w * 65536 + off % 0x10000000

/-- A BAR4 access that fails: Unsupported Request for a read, nothing for a write, HIF_ERR.WIN for both (R432). -/
def State.bar4Fail (s : State) (acc : HostAccess) : State :=
  let s := s.put F.HIF_ERR_WIN 1
  match acc with
  | .read _ => s.emit .unsupported
  | .write _ => s

/-- A region that covers part of a range is being zeroed: its accesses wait (R449). Log entry 29 (DEDUCED). -/
def State.zeroingIn (s : State) (a len : Nat) : Bool :=
  s.regPend.any (fun p => p.ranges.any (fun r => decide (a < r.2) && decide (r.1 < a + len)))

/-- BAR4_ACCESS (R432). -/
def execBar4Access (f : Fin 64) (ide : Bool) (off : Nat) (acc : HostAccess) (s : State) : Out? :=
  if s.inReset then .next s
  else
    let len := match acc with | .read n => n | .write d => d.length
    let w := off / 0x10000000
    let a := s.windowAddr f.val off
    let win := World.ofBit (s.flag F.HIF_WIN_LO_WORLD f.val w)
    if ¬ (w < 16 ∧ s.flag F.HIF_WIN_LO_EN f.val w = true ∧ s.place a = .hbm ∧ s.inOne a len = true) then
      .next (s.bar4Fail acc)
    else if s.zeroingIn a len then .next s
    else if ¬ (win = s.fnWorld f.val ide ∨ win = .n) ∨ ¬ s.rangeWorld a len win = true then
      .next ((s.bar4Fail acc).worldViol 7 (0x40 + f.val) a)
    else
      let s := s.hbmTouch
      match acc with
      | .read n => .next (s.emit (.readData (s.bytes a n)))
      | .write d => .next (s.hostStore a d)

/-- HIF_WINw_LO: WORLD 1 is accepted only while TDI_RUN is 1 (Table 16.10). -/
def State.writeWinLo (s : State) (f w : Nat) (v : Word) : State :=
  let s := (s.put F.HIF_WIN_LO_EN (bits v.toNat 0 0) f w).put F.HIF_WIN_LO_ADDR_LO (bits v.toNat 31 16) f w
  if bit v.toNat 1 && !s.flag F.HIF_FN_ST_TDI_RUN f then s else s.put F.HIF_WIN_LO_WORLD (bits v.toNat 1 1) f w

/-- HIF_FN_CTL: the ring sizes, and ADM_EN with its effect (R433). -/
def State.writeFnCtl (s : State) (f : Nat) (v : Word) : State :=
  let s := ((s.put F.HIF_FN_CTL_ASQ_LOG (bits v.toNat 7 4) f).put F.HIF_FN_CTL_ACQ_LOG (bits v.toNat 11 8) f).put
    F.HIF_FN_CTL_AEQ_LOG (bits v.toNat 15 12) f
  if bit v.toNat 0 then s.admEnable f else s.admDisable f

end Sys2Proof.Machine
end

