-- ==== Sys2Proof/Machine/Arb.lean ====
section
/-! DEFINITION. The arbiters and their aging (R444), and completion records (R441). -/

namespace Sys2Proof.Machine

/-- The better of two waiting requests: the higher level; within a level the queue that comes first after the one served
last (R444). -/
def State.arbBetter (s : State) (a b : ArbReq) : Bool :=
  if a.level ≠ b.level then decide (b.level < a.level)
  else
    let last := s.arbLast.get (4 * a.arb + a.level) 0
    let after := fun (q : Nat) => decide (last ≤ q)
    if after a.queue ≠ after b.queue then after a.queue else decide (a.queue < b.queue)

/-- The request that an arbiter serves next, among those that can be served. -/
def State.arbPick (s : State) (arb : Nat) (can : Nat → Bool) : Option ArbReq :=
  (s.arbs.filter (fun r => r.arb == arb && can r.queue)).foldl (fun best r =>
    match best with
    | none => some r
    | some b => if s.arbBetter r b then some r else some b) none

/-- A request is served and leaves its arbiter. -/
def State.arbServe (s : State) (r : ArbReq) : State :=
  { s with arbs := s.arbs.filter (fun x => !(x.arb == r.arb && x.queue == r.queue)),
           arbLast := s.arbLast.set (4 * r.arb + r.level) 0 (r.queue + 1) }

/-- The aging threshold in ticks (Table 16.10). -/
def State.ageTicks (s : State) : Nat := Nat.max 1 (s.fld F.HIF_AGE_X_AGE_TICKS)

/-- AGE_PROMOTION (R444): a request that has waited the threshold at one level moves up one level.
Log entry 54 (DEDUCED). -/
def execAgePromotion (s : State) : Out? :=
  match firstWhere (fun (r : ArbReq) => decide (r.level < 3) && decide (r.since + s.ageTicks ≤ s.now)) s.arbs with
  | none => .next s
  | some r =>
    .next (({ s with arbs := s.arbs.map (fun x => if x = r then { r with level := r.level + 1, since := s.now } else x) }).bump
      F.HIF_PROMO_COUNT)

/-- The queue number under which a snapshot's export waits in the host DMA arbiter: none of the queue table's. -/
def exportQueue : Nat := 32768

/-! ## Completion records (Table 16.7) -/

/-- The fetched command with an identifier from a submission queue. Log entry 39 (DESIGN CHOICE). -/
def State.fetch? (s : State) (sq cid : Nat) : Option Fetched := firstWhere (fun (f : Fetched) => f.sq == sq && f.cid == cid) s.fetched

/-- A completion record of a fetched command is written and the command leaves. -/
def State.finish (s : State) (f : Fetched) (status aux result : Nat) : State :=
  let s := { s with fetched := s.fetched.erase f }
  let cq := s.qCqid f.sq
  if s.qClass cq = 1 ∧ s.qState cq = 1 ∧ s.qFull cq = false then
    s.produce cq 9 (leBytes 2 f.cid ++ leBytes 2 f.sq ++ leBytes 4 f.head ++ leBytes 1 status ++ leBytes 1 0 ++ leBytes 2 aux
      ++ leBytes 4 result)
  else s

/-- The same by queue and identifier. -/
def State.finishCmd (s : State) (sq cid status aux result : Nat) : State :=
  match s.fetch? sq cid with
  | some f => s.finish f status aux result
  | none => s

/-! Status codes of Table 16.7. -/
def stOk : Nat := 0
def stInvalid : Nat := 1
def stWorld : Nat := 2
def stBusy : Nat := 3
def stJobmap : Nat := 4
def stRestore : Nat := 5
def stQuota : Nat := 6
def stChannel : Nat := 7
def stAborted : Nat := 8

end Sys2Proof.Machine
end

