-- ==== Sys2Proof/Machine/Pool.lean ====
section
/-! DEFINITION. The section schedule's entries (R439), the shared pool and prefetch (R292 to R297), uncorrectable errors
(R287, R531) with patrol scrubbing (R288), and atomics at a slice (R306). -/

namespace Sys2Proof.Machine

/-! ## The job map and the section schedule (Tables 14.1 and 16.13) -/

def Job.entryAt (j : Job) (i : Nat) : Nat := j.sched + 64 + 64 * i
def State.schedLen (s : State) (j : Job) : Nat := s.load (j.sched + 2) 2
def State.ent (s : State) (j : Job) (i o w : Nat) : Nat := s.load (j.entryAt i + o) w
def State.entSlot (s : State) (j : Job) (i : Nat) : Nat := s.ent j i 9 1

/-- Layers that this device's stage holds (R382). -/
def State.stageLayers (s : State) (j : Job) : Nat :=
  let dx := s.load (j.map + 2) 1
  let l := s.load (j.map + 6) 2
  let sl := ceilDiv l dx
  let v := dx * sl - l
  if coord 0 s.selfLog < dx - v then sl else sl - 1

/-- Entry `i` has a vacant layer slot: CMD does not pitch it (R383). -/
def State.entVacant (s : State) (j : Job) (i : Nat) : Bool :=
  s.entSlot j i != 0xFF && decide (s.stageLayers j ≤ s.entSlot j i)

/-- The first entry at or after `i` that is pitched; the number of entries when there is none. -/
def State.entryFrom (s : State) (j : Job) (i : Nat) : Nat :=
  (firstWhere (fun k => !s.entVacant j k) (upFrom i (s.schedLen j - i))).getD (s.schedLen j)

/-- The buffers that an entry names: handle, bytes, home. -/
def State.entBufs (s : State) (j : Job) (i : Nat) : List (Nat × Nat × Nat) :=
  (List.range (s.ent j i 16 1)).map (fun k =>
    let a := s.ent j i 24 8 + 32 * k
    (s.load a 4, s.load (a + 8) 8, s.load (a + 16) 8))

/-- The prefetch ranges of an entry: address, length. Log entry 139 (DEDUCED). -/
def State.entRanges (s : State) (j : Job) (i : Nat) : List (Nat × Nat) :=
  (List.range (s.ent j i 17 1)).map (fun k => (s.load (s.ent j i 32 8 + 16 * k) 8, s.load (s.ent j i 32 8 + 16 * k + 8) 8))

/-- The work-counter pairs of an entry. -/
def State.entPairs (s : State) (j : Job) (i : Nat) : List Nat :=
  (List.range (s.ent j i 18 1)).map (fun k => s.load (s.ent j i 40 8 + 8 * k) 8)

/-! ## The pool (R292 to R295) -/

/-- The stack and the memory-side die of an HBM address (Table 10.2, R284). -/
def stackOf (a : Nat) : Nat :=
  let o := a - hbmBase
  Nat.xor (bits o 15 13) (Nat.xor (bits o 18 16) (bits o 21 19))
def homeSlice (a : Nat) : Nat := stackOf a / 2

/-- Pool bytes held in a place. -/
def State.poolBytes (s : State) (p : PoolPlace) : Nat :=
  s.pool.foldl (fun t b => if b.place = p then t + b.len else t) 0

/-- Pool bytes of the job, wherever in the pool. -/
def State.poolJob (s : State) : Nat := s.pool.foldl (fun t b => if b.place = .home then t else t + b.len) 0

/-- Bytes of the pool part that a place has in force. -/
def State.poolSize (s : State) (p : PoolPlace) : Nat :=
  match p with
  | .slice m => s.poolMd.getD m 64 * miB
  | .cluster k => s.poolCl.getD k 16 * miB
  | .home => 0

/-- Log entry 173 (DEDUCED). -/
def State.poolRoom (s : State) (p : PoolPlace) (len : Nat) : Bool := decide (s.poolBytes p + len ≤ s.poolSize p)

/-- Entries of a compute die's pool map in use: buffers in its two cluster stores. -/
def State.poolMap (s : State) (die : Nat) : Nat :=
  (s.pool.filter (fun b => match b.place with | .cluster k => k / 2 == die | _ => false)).length

/-- MD_POOL_USED follows the pool, in whole MiB. -/
def State.poolView (s : State) : State :=
  forN 4 (fun m s => s.put F.MD_POOL_USED_MIB (ceilDiv (s.poolBytes (.slice m)) miB) m) s

def State.setPoolPlace (s : State) (h : Nat) (p : PoolPlace) : State :=
  { s with pool := s.pool.map (fun (b : PoolBuf) => if b.handle = h then { b with place := p } else b) }

/-- A buffer is evicted to its home range (R295). -/
def State.evict (s : State) (b : PoolBuf) : State := (s.setPoolPlace b.handle .home).bumpSat F.MD_EVICT_COUNT (homeSlice b.addr)

/-- The buffers of a place that may be evicted: lowest last-pitch age first, ties to the lower handle. -/
def State.victim (s : State) (p : PoolPlace) (keep : List Nat) : Option PoolBuf :=
  (s.pool.filter (fun b => b.place = p ∧ !keep.contains b.handle)).foldl (fun best b =>
    match best with
    | some x => if b.age < x.age ∨ (b.age = x.age ∧ b.handle < x.handle) then some b else some x
    | none => some b) none

/-- Evict from a place until `len` more bytes fit, or nothing more may go; `fuel` bounds the buffers. -/
def State.makeRoom (s : State) (p : PoolPlace) (len : Nat) (keep : List Nat) : Nat → State
  | 0 => s
  | f + 1 =>
    if s.poolRoom p len then s
    else match s.victim p keep with
      | some b => (s.evict b).makeRoom p len keep f
      | none => s

/-- The quota in bytes. -/
def State.quotaBytes (s : State) : Nat := match s.job with | some j => j.quota * miB | none => 0

/-- A cluster store with room for a buffer and a free entry of its die's pool map, the lowest first.
Log entry 173 (DEDUCED). -/
def State.clusterFor (s : State) (b : PoolBuf) : Option Nat :=
  if b.barred.isSome then none
  else firstWhere (fun k => s.poolRoom (.cluster k) b.len && decide (s.poolMap (k / 2) < 64)) (List.range 8)

/-- The place an allocation finds for a home-only buffer within the quota: its home slice, else a cluster store, else
its home slice after evictions; `none` when it must stay home-only. Log entry 173 (DEDUCED). -/
def State.placeBuf (s : State) (b : PoolBuf) (keep : List Nat) : Option State :=
  if s.quotaBytes < s.poolJob + b.len then none
  else
    let m := PoolPlace.slice (homeSlice b.addr)
    if s.poolRoom m b.len then some (s.setPoolPlace b.handle m)
    else match s.clusterFor b with
      | some k => some (s.setPoolPlace b.handle (.cluster k))
      | none =>
        let s := s.makeRoom m b.len keep (s.pool.length + 1)
        if s.poolRoom m b.len then some (s.setPoolPlace b.handle m) else none

/-- Handles that R295 protects: those of the running or pitched entry and of the entry being prefetched. -/
def State.protectedBufs (s : State) : List Nat :=
  match s.job with
  | none => []
  | some j =>
    ((if s.sect.isSome then s.entBufs j j.entry else []) ++ (match s.pf with
      | some (i, _, _) => if i < s.schedLen j then s.entBufs j i else []
      | none => [])).map (·.1)

/-- A buffer named by an entry at its pitch: allocated if it does not exist, and its age renewed (R294, R295).
Log entry 173 (DEDUCED). -/
def State.nameBuf (s : State) (j : Job) (keep : List Nat) (x : Nat × Nat × Nat) : State :=
  let w := World.ofBit j.secure
  if s.pool.any (fun b => b.handle == x.1) then
    { s with pool := s.pool.map (fun (b : PoolBuf) => if b.handle = x.1 then { b with age := s.now } else b) }
  else
    let b : PoolBuf := ⟨x.1, w, x.2.2, x.2.1, .home, s.now, none⟩
    let s := { s with pool := s.pool ++ [b] }
    match s.placeBuf b keep with
    | some s => s
    | none => s.bumpSat F.MD_SPILL_COUNT (homeSlice b.addr)

/-- Pool sizes and a waiting quota take effect, and buffers are evicted until the rest fits (R292, Table 16.6). -/
def State.poolResize (s : State) : State :=
  let s := { s with
    poolMd := (List.range 4).map (fun m => Nat.min (s.fld F.MD_SC_X_POOL_MIB m) 88),
    poolCl := (List.range 8).map (fun k => Nat.min (s.fld F.CL_POOL_X_CL_POOL_MIB k) 24),
    job := s.job.map (fun (j : Job) => { j with quota := j.quotaNext.getD j.quota, quotaNext := none }) }
  let keep := s.protectedBufs
  let fuel := s.pool.length + 1
  let s := forN 4 (fun m s => s.makeRoom (.slice m) 0 keep fuel) s
  let s := forN 8 (fun k s => s.makeRoom (.cluster k) 0 keep fuel) s
  let s := forN fuel (fun _ s =>
    if s.poolJob ≤ s.quotaBytes then s
    else match firstWhere (fun p => (s.victim p keep).isSome)
        ((List.range 4).map PoolPlace.slice ++ (List.range 8).map PoolPlace.cluster) with
      | some p => (match s.victim p keep with | some b => s.evict b | none => s)
      | none => s) s
  s.poolView

/-- POOL_RESIZE (R292): between sections, the sizes that MD_SC_X and CL_POOL_X hold take effect. -/
def execPoolResize (s : State) : Out? := s.served 4 <| if s.sect.isSome then .next s else .next s.poolResize

/-! ## Prefetch (R296, R297) -/

/-- A prefetch control is on at some memory-side die. -/
def State.anyPf (s : State) (f : Fld) : Bool := (List.range 4).any (fun m => s.flag f m)

/-- Bytes that prefetch pins beside the pool: the image, and the ranges when they have come. -/
def State.pfBytes (s : State) (j : Job) (i : Nat) (ranges : Bool) : Nat :=
  s.load (s.ent j i 0 8 + 32) 4 + (if ranges then (s.entRanges j i).foldl (fun t r => t + r.2) 0 else 0)

/-- The cache parts of the four slices. -/
def State.cacheBytes (s : State) : Nat := (List.range 4).foldl (fun t m => t + (96 - s.poolMd.getD m 64) * miB) 0

/-- Prefetch stops for space. -/
def State.pfStop (s : State) (i ph : Nat) : State :=
  { (forN 4 (fun m s => if s.flag F.MD_PF_PF_EN m then s.bumpSat F.MD_PF_ST_PF_SHORT m else s) s) with pf := some (i, ph, true) }

/-- The buffers of the next section that are home-only move to the pool as far as the quota allows; `false` when space
runs out. Log entry 175 (DEDUCED). -/
def State.pfBufs (s : State) (j : Job) (i : Nat) : Bool × State :=
  (s.entBufs j i).foldl (fun (r : Bool × State) x =>
    match firstWhere (fun (b : PoolBuf) => b.handle == x.1) r.2.pool with
    | none => r
    | some b =>
      if b.place ≠ .home ∨ r.2.quotaBytes < r.2.poolJob + b.len ∨ !r.1 then r
      else match r.2.placeBuf b r.2.protectedBufs with
        | some s => (true, s)
        | none => (false, r.2)) (true, s)

/-- PREFETCH (R296): the next item for the section after the running one: its image, its buffers, or its ranges.
Log entry 175 (DEDUCED). -/
def execPrefetch (s : State) : Out? :=
  match s.job, s.pf with
  | some j, some (i, ph, stopped) =>
    if s.sect.isNone ∨ stopped = true ∨ 3 ≤ ph ∨ s.schedLen j ≤ i then .next s
    else
      let t := { s with hbmLast := s.now }
      if ph = 0 then
        if !s.anyPf F.MD_PF_X_IMAGE_EN then .next { s with pf := some (i, 1, false) }
        else if s.cacheBytes < s.pfBytes j i false then .next (s.pfStop i 0)
        else .next { t with pf := some (i, 1, false) }
      else if ph = 1 then
        if !s.anyPf F.MD_PF_X_BUF_EN then .next { s with pf := some (i, 2, false) }
        else
          let r := t.pfBufs j i
          .next (if r.1 then { r.2 with pf := some (i, 2, false) } else r.2.pfStop i 1).poolView
      else
        if !s.anyPf F.MD_PF_X_RANGE_EN then .next { s with pf := some (i, 3, false) }
        else if s.cacheBytes < s.pfBytes j i true then .next (s.pfStop i 2)
        else .next { t with pf := some (i, 3, false) }
  | _, _ => .next s

/-- At a pitch: a prefetch of this entry that has not finished counts in PF_LATE, and prefetch turns to the next entry
(R297). -/
def State.pfAtPitch (s : State) (j : Job) (i : Nat) : State :=
  let late := match s.pf with
    | some (k, ph, _) => k == i && decide (ph < 3)
    | none => false
  let s := if late then forN 4 (fun m s => if s.flag F.MD_PF_PF_EN m then s.bumpSat F.MD_PF_ST_PF_LATE m else s) s else s
  { s with pf := if s.anyPf F.MD_PF_PF_EN then some (s.entryFrom j (i + 1), 0, false) else none }

/-! ## Uncorrectable errors (R287, R531) and patrol scrubbing (R288) -/

/-- The time in which an earlier error makes one a repeat. Log entry 176 (DEDUCED). -/
def State.repWindow (s : State) : Nat := 60 * msTicks 1000 * Nat.max (s.fld F.CMD_FLT_X_REP_WIN) 1

/-- The unit that a repeat falls in: a whole core or cluster store, a shared-cache line, an HBM burst.
Log entry 176 (DEDUCED). -/
def ueUnit (kind ix addr : Nat) : Nat := if kind < 2 then ix else if kind = 2 then addr / 128 else addr / 64

/-- MEM_UE: the first error in a unit is of step class; a repeat fences the cores of a store, or is of device class in
the shared cache or HBM. Kinds: 0 core store, 1 cluster store, 2 slice, 3 HBM.
Log entries 172 (DESIGN CHOICE), 176 (DEDUCED). -/
def State.memUe (s : State) (kind ix addr : Nat) : State :=
  let u := ueUnit kind ix addr
  let rep := s.ues.any (fun (e : Nat × Nat × Nat) => e.1 == kind && e.2.1 == u && decide (s.now < e.2.2 + s.repWindow))
  let s := { s with ues := s.ues.filter (fun (e : Nat × Nat × Nat) => !(e.1 == kind && e.2.1 == u)) ++ [(kind, u, s.now)] }
  let s := s.fire 4 (if kind = 0 then 260 + coreCluster ix else if kind = 1 then 260 + ix
    else 256 + (if kind = 2 then ix else ix / 2))
  let core := if kind = 0 then ix else 0xFF
  let d := [Config.memName kind ix, addr]
  if !rep then s.raise 0x35 .step srcDevice core s.sectId [] d
  else if kind = 0 then s.raise 0x35 .sect srcDevice core s.sectId [ix] d
  else if kind = 1 then s.raise 0x35 .sect srcDevice core s.sectId [2 * ix, 2 * ix + 1] d
  else s.raise 0x40 .dev srcDevice core s.sectId [] d

/-- PATROL_SCRUB (R288, R287): one line of a slice, or one burst of a stack while its HBM_SCRUB is on, is read,
corrected and rewritten. `bad` is what the read finds: 0 nothing, 1 a corrected error, 2 an uncorrectable one.
Log entry 175 (DEDUCED). -/
def execPatrolScrub (hbm : Bool) (k : Fin 8) (addr : Nat) (bad : Fin 3) (s : State) : Out? :=
  if hbm then
    if !s.flag F.HBM_SCRUB_SCRUB_EN k.val ∨ s.flag F.BC_PWR_ST_HBM_SR then .next s
    else if bad.val = 1 then .next (s.bumpSat F.HBM_ECC_CE_COUNT k.val)
    else if bad.val = 2 then
      .next (((s.bumpSat F.HBM_ECC_UE_COUNT k.val).put F.HBM_ECC_LOG_BURST ((addr - hbmBase) / 64) k.val).memUe 3 k.val addr)
    else .next s
  else
    let m := k.val % 4
    if bad.val = 1 then .next (s.bumpSat F.MD_ECC_CE_COUNT m)
    else if bad.val = 2 then .next (((s.bumpSat F.MD_ECC_UE_COUNT m).put F.MD_ECC_LOG_LINE (addr / 128) m).memUe 2 m addr)
    else .next s

/-! ## Atomics at a slice (R256, R306) -/

/-- The slice that executes an atomic: the one that holds the word, or that caches its HBM address. -/
def State.atomSlice (s : State) (a : Nat) : Nat :=
  match s.place a with
  | .slice m => m
  | _ => homeSlice a

/-- A pool buffer held in a cluster store leaves it before an atomic on it: to its home slice while the quota and the
slice have room, else home (R306). Log entry 174 (DEDUCED). -/
def State.leaveCluster (s : State) (a : Nat) : State :=
  match firstWhere (fun (b : PoolBuf) => decide (b.addr ≤ a) && decide (a < b.addr + b.len)) s.pool with
  | some b =>
    (match b.place with
     | .cluster _ =>
       let m := PoolPlace.slice (homeSlice b.addr)
       let fits := s.poolRoom m b.len && decide (s.poolJob ≤ s.quotaBytes)
       let s := (s.setPoolPlace b.handle (if fits then m else .home)).bumpSat F.MD_EVICT_COUNT (homeSlice b.addr)
       ({ s with pool := s.pool.map (fun (c : PoolBuf) => if c.handle = b.handle then { c with barred := s.sect.map (fun (y : SectSt) => y.id) } else c) }).poolView
     | _ => s)
  | none => s

/-- ATOMIC_EXECUTE (R255, R256, R306): the oldest atomic that has reached slice `m` executes. A word of a locked shard
refuses it. -/
def execAtomicExecute (m : Fin 4) (s : State) : Out? :=
  match firstWhere (fun (x : AtomReq) => s.atomSlice x.addr == m.val) s.atoms with
  | none => .next s
  | some x =>
    let s := { s with atoms := s.atoms.erase x }
    if s.lockedAt x.addr x.width then
      match x.home with
      | some (n, sl, _, _) => .next (s.moveFault n sl 0x26 1 s.selfLog)
      | none => .next (s.refusePkt x.away 1)
    else
      let s := s.leaveCluster x.addr
      let old := s.load x.addr x.width
      let s := (s.store x.addr x.width (atomNew x.op x.width old x.opnd x.cmp)).linesWritten x.addr x.width
      match x.home with
      | some (n, sl, id, some r) => .next (s.storeNear n sl id 0x26 r x.width (fun s => s.store r x.width old))
      | some (n, sl, id, none) => .next (s.complete n sl id)
      | none => .next (s.respond x.away 0x06 (if bit (pkSub x.away) 5 then old else 0) 0 [])

end Sys2Proof.Machine
end

