-- ==== Sys2Proof/Machine/Image.lean ====
section
/-! DEFINITION. Pitch images (R182, R576 to R578, R298 to R300) and the checks of a pitch, in the order of Table 6.8. -/

namespace Sys2Proof.Machine

/-! ## The image as CMD reads it (Tables 6.6 and 6.7) -/

/-- A station record, its place in the image's order being its index. -/
structure ImgStn where
  name : Nat
  core : Nat
  slot : Nat
  prog : Nat
  plen : Nat
  tqidx : Nat
  regoff : Nat
  raw : List Byte
  /-- FIRINGS in the selected rate table, the program, and the physical core (R183). -/
  firings : Nat
  code : List Nat
  phys : Option Nat
  deriving DecidableEq, Repr

/-- A stream record. -/
structure ImgStr where
  id : Nat
  src : Nat
  sport : Nat
  dst : Nat
  dport : Nat
  kind : Nat
  depth : Nat
  fetch : Nat
  qloc : Nat
  fmt : Nat
  mxcol : Bool
  rows : Nat
  cols : Nat
  raw : List Byte
  /-- P and C in the selected rate table, and the indices of its end stations. -/
  p : Nat
  c : Nat
  srcIx : Option Nat
  dstIx : Option Nat
  deriving DecidableEq, Repr

/-- A pitch image with its selected rate table. -/
structure Image where
  addr : Nat
  rt : Nat
  head : List Byte
  stns : List ImgStn
  strs : List ImgStr
  deriving DecidableEq, Repr

def Image.f (g : Image) (o w : Nat) : Nat := fieldAt g.head o w
def Image.mode (g : Image) : Nat := g.f 2 1
def Image.world (g : Image) : World := World.ofBit (g.f 3 1 == 1)
def Image.id (g : Image) : Nat := g.f 4 2
def Image.nstn (g : Image) : Nat := g.f 6 2
def Image.nstr (g : Image) : Nat := g.f 8 2
def Image.nbkt (g : Image) : Nat := g.f 13 1
def Image.len (g : Image) : Nat := g.f 32 4

/-- The length of a rate table (R576). -/
def rtLen (nstn nstr : Nat) : Nat := 4 * nstn + 4 * ceilDiv (2 * nstr) 4

/-- No name: memory or the fabric. -/
def noName : Nat := 0xFFFF

/-- The logical cores' physical ones: those in the core map, ascending (R183). -/
def State.coreMap (s : State) : List Nat :=
  (List.range 16).filter (fun n => !s.fenced.contains n && !bit (s.fld F.BC_BOOT_UNAV_CORE) n)

/-- The header of an image at `a`. -/
def State.imageHead (s : State) (a rt : Nat) : Image := ⟨a, rt, s.bytes a 64, [], []⟩

/-- The station records of an image. -/
def State.imageStns (s : State) (g : Image) : List ImgStn :=
  (List.range g.nstn).map (fun i =>
    let r := s.bytes (g.addr + g.f 16 4 + 32 * i) 32
    let plen := fieldAt r 8 4
    ⟨fieldAt r 0 2, fieldAt r 2 1, fieldAt r 3 1, fieldAt r 4 4, plen, fieldAt r 12 1, fieldAt r 16 4, r,
     s.load (g.addr + g.f 24 4 + rtLen g.nstn g.nstr * g.rt + 4 * i) 4,
     (List.range (Nat.min plen 65536)).map (fun k => s.load (g.addr + fieldAt r 4 4 + 16 * k) 16),
     s.coreMap[fieldAt r 2 1]?⟩)

/-- The index of a station by name. -/
def stnIndex (xs : List ImgStn) (name : Nat) : Option Nat :=
  if name = noName then none else firstWhere (fun i => (xs.map (·.name)).getD i noName == name) (List.range xs.length)

/-- The stream records of an image. -/
def State.imageStrs (s : State) (g : Image) : List ImgStr :=
  (List.range g.nstr).map (fun j =>
    let r := s.bytes (g.addr + g.f 20 4 + 32 * j) 32
    let pc := g.addr + g.f 24 4 + rtLen g.nstn g.nstr * g.rt + 4 * g.nstn + 2 * j
    ⟨fieldAt r 0 2, fieldAt r 2 2, fieldAt r 4 1, fieldAt r 5 2, fieldAt r 7 1, fieldAt r 8 1, fieldAt r 9 1, fieldAt r 10 1,
     fieldAt r 11 1, fieldAt r 12 1, bit (fieldAt r 13 1) 0, fieldAt r 14 2, fieldAt r 16 2, r, s.load pc 1, s.load (pc + 1) 1,
     stnIndex g.stns (fieldAt r 2 2), stnIndex g.stns (fieldAt r 5 2)⟩)

def Image.stn? (g : Image) (i : Option Nat) : Option ImgStn :=
  match i with
  | some k => g.stns[k]?
  | none => none

/-- The stream is fed from memory (R298). -/
def ImgStr.fed (y : ImgStr) : Bool := y.kind == 1 || (y.kind == 5 && y.src == noName)

/-- The stream is an edge of the station graph (R177). -/
def ImgStr.edge (y : ImgStr) : Bool := (y.kind == 0 || y.kind == 5) && y.src != noName

/-- The stream has a receive queue. -/
def ImgStr.queued (y : ImgStr) : Bool := y.kind == 0 || y.kind == 1 || y.kind == 3 || y.kind == 5

/-- Ports that a program names as peg ports: sending and taking (R265 to R267). Log entry 131 (DEDUCED). -/
def pegPorts (code : List Nat) : List Nat × List Nat :=
  (code.filterMap (fun w => if wOp w = 0x43 ∧ wSub w = 0 then some (bits w 91 86) else none),
   code.filterMap (fun w => if wOp w = 0x43 ∧ wSub w = 1 then some (bits w 91 86)
     else if wOp w = 0x44 then some (bits w 85 80) else none))

/-- A peg stream: an end's program uses its port for pegs. Log entry 131 (DEDUCED). -/
def Image.isPeg (g : Image) (y : ImgStr) : Bool :=
  (match g.stn? y.srcIx with | some x => (pegPorts x.code).1.contains y.sport | none => false) ||
  (match g.stn? y.dstIx with | some x => (pegPorts x.code).2.contains y.dport | none => false)

/-- The physical core that consumes a stream. -/
def Image.dstCore (g : Image) (y : ImgStr) : Option Nat :=
  match g.stn? y.dstIx with
  | some x => x.phys
  | none => none

/-- Fields of a memory-fed stream (Table 10.4) and of its list (Table 10.5). -/
def ImgStr.flist (y : ImgStr) : Nat := fieldAt y.raw 24 6
def State.flen (s : State) (a : Nat) : Nat := s.load a 4

/-- Tiles that the consumer of a fed stream takes per run. -/
def Image.need (g : Image) (y : ImgStr) : Nat :=
  match g.stn? y.dstIx with
  | some x => x.firings * y.c
  | none => 0

/-! ## Placed space (R578) -/

def page (n : Nat) : Nat := roundUp n 4096

/-- Bytes of a stream's queue. -/
def Image.queueBytes (g : Image) (y : ImgStr) : Nat :=
  if g.isPeg y then 8 * y.depth else y.depth * tileBytes y.fmt y.mxcol y.rows y.cols

/-- Placed bytes at the top of a core store. -/
def Image.coreBytes (g : Image) (n : Nat) : Nat :=
  g.stns.foldl (fun t x => if x.phys = some n then t + page (16 * x.plen + 256) else t)
    (g.strs.foldl (fun t y => if y.queued ∧ y.qloc = 0 ∧ g.dstCore y = some n then t + page (g.queueBytes y) else t) 0)

/-- Placed bytes at the top of the section part of a cluster store. -/
def Image.clBytes (g : Image) (k : Nat) : Nat :=
  g.strs.foldl (fun t y =>
    if y.queued ∧ y.qloc = 1 ∧ (g.dstCore y).map coreCluster = some k then t + page (g.queueBytes y) else t) 0

/-- The section part of a cluster store. -/
def State.sectionPart (s : State) (k : Nat) : Nat := (32 - s.poolCl.getD k 16) * miB

/-- The placed space of a section. -/
def State.placedOf (s : State) (g : Image) : List (Nat × Nat) :=
  ((List.range 16).filterMap (fun n =>
    let top := 0x2000000 * n + 24 * miB
    if g.coreBytes n = 0 then none else some (top - g.coreBytes n, top))) ++
  ((List.range 8).filterMap (fun k =>
    let top := 0x20000000 + 0x2000000 * k + s.sectionPart k
    if g.clBytes k = 0 then none else some (top - g.clBytes k, top)))

/-! ## The checks of Table 6.8 -/

/-- A rejection: its code, and what CMD_PERR_LOC and CMD_PERR_SHORT report. Log entry 138 (DEDUCED). -/
structure PitchErr where
  code : Nat
  stn : Nat := 0
  aux : Nat := 0
  stream : Nat := 0
  tiles : Nat := 0
  deriving DecidableEq, Repr

def noRepeats : List Nat → Bool
  | [] => true
  | x :: xs => !xs.contains x && noRepeats xs

def allZero (bs : List Byte) : Bool := bs.all (fun b => b == 0)

/-- A part of the image lies within it. -/
def Image.holds (g : Image) (o len : Nat) : Bool := decide (o + len ≤ g.len)

/-- The header's part of PITCH_FORMAT (Table 6.6, R282, R289). Log entry 136 (DEDUCED). -/
def State.headFormatBad (s : State) (g : Image) : Bool :=
  let split := [g.f 10 1, g.f 11 1, g.f 12 1]
  g.addr % 4096 != 0 || g.f 0 2 != 1 || decide (g.len < 64) || !s.inOne g.addr g.len
    || (match s.place g.addr with | .hidden => true | .reg _ => true | .door _ => true | _ => false)
    || decide (3 < g.mode) || decide (1 < g.f 3 1) || g.nstn == 0 || decide (96 < g.nstn) || g.nstr == 0
    || decide (1024 < g.nstr) || g.nbkt == 0 || decide (64 < g.nbkt) || decide (g.nbkt ≤ g.rt)
    || split.any (fun v => v == 0 || decide (18 < v)) || g.f 10 1 + g.f 11 1 + g.f 12 1 != 20
    || !allZero ((g.head.drop 14).take 2) || !allZero ((g.head.drop 36).take 20) || !allZero (g.head.drop 60)
    || !g.holds (g.f 16 4) (32 * g.nstn) || !g.holds (g.f 20 4) (32 * g.nstr)
    || !g.holds (g.f 24 4) (g.nbkt * rtLen g.nstn g.nstr) || decide (g.len < g.f 28 4)
    || g.f 56 4 != crc32c (putField (s.bytes g.addr g.len) 56 4 0)

/-- The tally queues of the job, or none. -/
def State.jobTqs (s : State) : List Nat := match s.job with | some j => j.tqs | none => []

/-- A station record's part of PITCH_FORMAT. -/
def State.stnFormatBad (s : State) (g : Image) (x : ImgStn) : Bool :=
  decide (15 < x.core) || decide (5 < x.slot) || x.plen == 0 || decide (65536 < x.plen) || x.name == noName
    || decide (x.prog < g.f 28 4) || x.prog % 16 != 0 || !g.holds x.prog (16 * x.plen)
    || (decide (x.slot < 2) && x.tqidx != 0xFF && decide (s.jobTqs.length ≤ x.tqidx))
    || !allZero ((x.raw.drop 13).take 3) || !allZero (x.raw.drop 20)
    || x.regoff % 64 != 0
    || (x.regoff != 0 && (!g.holds x.regoff 256 || !allZero (s.bytes (g.addr + x.regoff + 200) 56)
        || (List.range 4).any (fun k => s.load (g.addr + x.regoff + 168 + 8 * k + 6) 2 != 0)))

/-- The ends that a KIND needs: source and destination are stations (some true), memory or the fabric (some false), or
either (none); `none` for an unknown kind. -/
def kindEnds (k : Nat) : Option (Option Bool × Option Bool) :=
  match k with
  | 0 => some (some true, some true)
  | 1 => some (some false, some true)
  | 2 => some (some true, some false)
  | 3 => some (some false, some true)
  | 4 => some (some true, some false)
  | 5 => some (none, some true)
  | _ => none

/-- An end of a stream does not fit its KIND. Log entry 137 (DEDUCED). -/
def endBad (want : Option Bool) (name : Nat) (ix : Option Nat) (port : Nat) : Bool :=
  if name = noName then want == some true else want == some false || ix.isNone || decide (31 < port)

/-- A fetch list breaks R298 where it lies: outside the consuming core's stores, in placed space, or misshapen. -/
def State.listBad (s : State) (g : Image) (y : ImgStr) : Bool :=
  let a := y.flist
  let len := 32 + 32 * s.flen a
  if a % 64 ≠ 0 then true
  else match g.dstCore y with
    | none => false
    | some n =>
      s.flen a == 0 || s.load (a + 8) 8 % 64 != 0 || !s.inOne a len
        || !(match s.place a with | .core m => m == n | .cl k => k == coreCluster n | _ => false)
        || (s.placedOf g).any (fun r => decide (r.1 < a + len) && decide (a < r.2))

/-- A stream record's part of PITCH_FORMAT (Tables 6.7, 6.8 and 10.4, R347). Log entry 137 (DEDUCED). -/
def State.strFormatBad (s : State) (g : Image) (y : ImgStr) : Bool :=
  match kindEnds y.kind with
  | none => true
  | some (a, b) =>
    endBad a y.src y.srcIx y.sport || endBad b y.dst y.dstIx y.dport
      || (y.queued && (y.depth == 0 || decide (64 < y.depth))) || (y.kind == 1 && (y.fetch == 0 || decide (8 < y.fetch)))
      || decide (1 < y.qloc) || decide (0xC < y.fmt) || byteAt y.raw 13 / 2 != 0 || (y.mxcol && !fmtMx y.fmt)
      || decide (256 < y.rows) || decide (512 < y.cols)
      || (y.kind == 5 && (match g.stn? y.dstIx with | some x => decide (1 < x.slot) | none => false))
      || (y.fed && (byteAt y.raw 18 / 64 != 0 || !allZero ((y.raw.drop 20).take 4) || !allZero (y.raw.drop 30) || s.listBad g y))
      || ((y.kind == 3 || y.kind == 4) && !allZero (y.raw.drop 22))

/-- Two streams on one port of a station. Log entry 137 (DEDUCED). -/
def portsRepeat (g : Image) : Bool :=
  !noRepeats (g.strs.filterMap (fun y => y.srcIx.map (fun i => 256 * i + y.sport)))
    || !noRepeats (g.strs.filterMap (fun y => y.dstIx.map (fun i => 256 * i + y.dport)))

/-- Padding of a rate table that is not 0 (R576). Log entry 136 (DEDUCED). -/
def State.padBad (s : State) (g : Image) : Bool :=
  let l := rtLen g.nstn g.nstr
  let used := 4 * g.nstn + 2 * g.nstr
  (List.range g.nbkt).any (fun t => !allZero (s.bytes (g.addr + g.f 24 4 + l * t + used) (l - used)))

/-- PITCH_FORMAT past the header. Log entry 137 (DEDUCED). -/
def State.bodyFormatBad (s : State) (g : Image) : Bool :=
  g.stns.any (s.stnFormatBad g) || !noRepeats (g.stns.map (·.name)) || !noRepeats (g.strs.map (·.id))
    || g.strs.any (s.strFormatBad g) || portsRepeat g || s.padBad g

/-- The station that a rejected stream is charged to: its source, else its destination. -/
def ImgStr.stn (y : ImgStr) : Nat := if y.src = noName then y.dst else y.src

/-- PITCH_SHAPE. -/
def Image.shapeErr (g : Image) : Option PitchErr :=
  match firstWhere (fun (x : ImgStn) => x.firings == 0) g.stns with
  | some x => some { code := 2, stn := x.name }
  | none =>
    match firstWhere (fun (y : ImgStr) =>
        y.rows == 0 || y.cols == 0 || (fmtMx y.fmt && (y.cols % 32 != 0 || (y.mxcol && y.rows % 32 != 0)))
          || (y.src != noName && y.p == 0) || (y.dst != noName && y.c == 0)) g.strs with
    | some y => some { code := 2, stn := y.stn }
    | none => none

/-- PITCH_UNITS (R183, R68). -/
def State.unitsErr (s : State) (g : Image) : Option PitchErr :=
  match firstWhere (fun (p : ImgStn × Nat) =>
      match p.1.phys with
      | none => true
      | some n =>
        (decide (p.1.slot < 2) && s.flag F.ME_STATUS_UNAVAIL (2 * n + p.1.slot))
          || (g.stns.take p.2).any (fun (x : ImgStn) => x.core == p.1.core && x.slot == p.1.slot)) g.stns.zipIdx with
  | some (x, _) => some { code := 3, stn := x.name }
  | none => none

/-- PITCH_WORLD (R184 step 3): the cores, the cluster stores that hold queues, the tally queues, the fetch lists, and the
pool buffers and work-counter pairs that the schedule entry names. Log entry 139 (DEDUCED). -/
def State.worldErr (s : State) (g : Image) (ranges : List (Nat × Nat)) : Option PitchErr :=
  let w := g.world
  match firstWhere (fun (x : ImgStn) =>
      (match x.phys with | some n => s.coreWorld n != w | none => false)
        || (decide (x.slot < 2) && decide (x.tqidx < s.jobTqs.length) && s.qWorld (s.jobTqs.getD x.tqidx 0) != w)) g.stns with
  | some x => some { code := 4, stn := x.name }
  | none =>
    match firstWhere (fun (y : ImgStr) =>
        (y.queued && y.qloc == 1 && (match g.dstCore y with
          | some n => World.ofBit (bit (s.fld F.SEC_WORLD_CL_CL) (coreCluster n)) != w
          | none => false))
          || (y.fed && !s.rangeWorld y.flist (32 + 32 * s.flen y.flist) w)) g.strs with
    | some y => some { code := 4, stn := y.dst }
    | none => if ranges.all (fun r => r.2 == 0 || s.rangeWorld r.1 r.2 w) then none else some { code := 4 }

/-- PITCH_MODE (R242). -/
def Image.modeErr (g : Image) : Option PitchErr :=
  match firstWhere (fun (x : ImgStn) =>
      x.code.any (fun w => wOp w == 0x43 || wOp w == 0x44 || (wOp w == 0x40 && wSub w == 1))) g.stns with
  | some x => some { code := 5, stn := x.name }
  | none => none

/-- PITCH_RATE: R176 for an edge in normal service, R300 for a memory-fed stream. -/
def State.rateErr (s : State) (g : Image) : Option PitchErr :=
  match firstWhere (fun (y : ImgStr) =>
      if y.edge then
        g.mode == 0 && (match g.stn? y.srcIx, g.stn? y.dstIx with
          | some a, some b => a.firings * y.p != b.firings * y.c
          | _, _ => false)
      else y.fed && decide (s.flen y.flist < g.need y)) g.strs with
  | some y => some { code := 6, stn := y.stn, aux := y.id }
  | none => none

/-- The edges of the station graph by indices: stream, source, destination. Log entry 137 (DEDUCED). -/
def Image.edges (g : Image) : List (ImgStr × Nat × Nat) :=
  g.strs.filterMap (fun y => if y.edge then (match y.srcIx, y.dstIx with | some a, some b => some (y, a, b) | _, _ => none) else none)

/-- Stations in an order that follows the edges: again and again the first in record order whose producers stand
already; `fuel` bounds the stations. Stations on a cycle never stand. -/
def topo (es : List (ImgStr × Nat × Nat)) (n : Nat) : Nat → List Nat → List Nat
  | 0, done => done
  | f + 1, done =>
    match firstWhere (fun v => !done.contains v && es.all (fun e => e.2.2 != v || done.contains e.2.1)) (List.range n) with
    | some v => topo es n f (done ++ [v])
    | none => done

def Image.order (g : Image) : List Nat := topo g.edges g.stns.length g.stns.length []

/-- PITCH_CYCLE (R177). -/
def Image.cycleErr (g : Image) : Option PitchErr :=
  let o := g.order
  match firstWhere (fun (p : ImgStn × Nat) => !o.contains p.2) g.stns.zipIdx with
  | some (x, _) => some { code := 7, stn := x.name }
  | none => none

/-- PITCH_CAPACITY (R578). -/
def State.capacityErr (s : State) (g : Image) : Option PitchErr :=
  let queues := fun n => (g.strs.filter (fun y => y.queued && g.dstCore y == some n)).length
  match firstWhere (fun (y : ImgStr) => y.queued && (match g.dstCore y with | some n => decide (32 < queues n) | none => false)) g.strs with
  | some y => some { code := 8, stn := y.dst }
  | none =>
    match firstWhere (fun (x : ImgStn) =>
        match x.phys with
        | some n => decide (24 * miB < g.coreBytes n) || decide (s.sectionPart (coreCluster n) < g.clBytes (coreCluster n))
        | none => false) g.stns with
    | some x => some { code := 8, stn := x.name }
    | none => none

/-! ## Rounds (R178) and the fork–join check (R179, R180) -/

/-- Labels of the connected parts: every station takes the least label that an edge brings; `fuel` rounds suffice. -/
def partLabels (es : List (ImgStr × Nat × Nat)) : Nat → List Nat → List Nat
  | 0, ls => ls
  | f + 1, ls =>
    partLabels es f (es.foldl (fun ls e =>
      let m := Nat.min (ls.getD e.2.1 0) (ls.getD e.2.2 0)
      setAt (setAt ls e.2.1 m) e.2.2 m) ls)

/-- Firings of each station per round: q_s, and 1 in a service mode, where every firing ends at a boundary. -/
def Image.rounds (g : Image) : List Nat :=
  if g.mode ≠ 0 then g.stns.map (fun _ => 1)
  else
    let ls := partLabels g.edges g.stns.length (List.range g.stns.length)
    g.stns.zipIdx.map (fun p =>
      p.1.firings / (g.stns.zipIdx.foldl (fun d x => if ls.getD x.2 0 = ls.getD p.2 0 then Nat.gcd d x.1.firings else d) 0))

/-- An exact fraction: numerator and denominator, the latter not 0. -/
abbrev Frac := Nat × Nat
def Frac.plus (a b : Frac) : Frac := (a.1 * b.2 + b.1 * a.2, a.2 * b.2)
def Frac.less (a b : Frac) : Bool := decide (a.1 * b.2 < b.1 * a.2)

/-- What the loader keeps of a station seen from a fork: number of paths, longest latency, least capacity with latency,
and the stream into it on the path of least capacity. -/
structure PathInfo where
  npath : Nat
  lmax : Frac
  best : Frac
  via : Option ImgStr
  deriving DecidableEq, Repr

/-- One edge of the pseudocode of R179, taken into account at its destination. -/
def pathStep (q : List Nat) (f : Nat) (info : List (Option PathInfo)) (e : ImgStr × Nat × Nat) (v : Option PathInfo) : Option PathInfo :=
  match info.getD e.2.1 none with
  | none => v
  | some u =>
    let qf := q.getD f 1
    let qu := q.getD e.2.1 1
    let hop : Frac := if e.2.1 = f then (0, 1) else (qf, qu)
    let l := u.lmax.plus hop
    let b := (u.best.plus (e.1.depth * qf, e.1.p * qu)).plus hop
    match v with
    | none => some ⟨u.npath, l, b, some e.1⟩
    | some w => some ⟨w.npath + u.npath, if w.lmax.less l then l else w.lmax, if b.less w.best then b else w.best,
                      if b.less w.best then some e.1 else w.via⟩

/-- Path information of every station from fork `f`. -/
def pathsFrom (es : List (ImgStr × Nat × Nat)) (q order : List Nat) (f n : Nat) : List (Option PathInfo) :=
  order.foldl (fun info v =>
    if v = f then info
    else setAt info v ((es.filter (fun e => e.2.2 == v)).foldl (fun acc e => pathStep q f info e acc) none))
    (setAt (List.replicate n none) f (some ⟨1, (0, 1), (0, 1), none⟩))

/-- The shortfall in tiles of the last stream of the failing path, rounded up (R179). -/
def shortfall (q : List Nat) (f : Nat) (i : PathInfo) (y : ImgStr) (srcIx : Nat) : Nat :=
  let l := i.lmax.plus (1, 1)
  -- l − best, times the stream's rate p·q_u / q_f
  ceilDiv ((l.1 * i.best.2 - i.best.1 * l.2) * (y.p * q.getD srcIx 1)) (l.2 * i.best.2 * q.getD f 1)

/-- PITCH_IMBALANCE: the first failing pair, forks and joins in record order. -/
def Image.imbalanceErr (g : Image) : Option PitchErr :=
  let es := g.edges
  let q := g.rounds
  let n := g.stns.length
  let o := g.order
  let name := fun i => (g.stns.map (·.name)).getD i 0
  (List.range n).foldl (fun r f =>
    if r.isSome || decide ((es.filter (fun e => e.2.1 == f)).length < 2) then r
    else
      let info := pathsFrom es q o f n
      (List.range n).foldl (fun r j =>
        if r.isSome then r
        else match info.getD j none with
          | none => none
          | some i =>
            if 2 ≤ i.npath ∧ i.best.less (i.lmax.plus (1, 1)) = true then
              match i.via with
              | some y => some { code := 9, stn := name f, aux := name j, stream := y.id,
                                 tiles := Nat.min (shortfall q f i y (y.srcIx.getD 0)) 0xFFFF }
              | none => none
            else none) none) none

/-- The first of a list of rejections. -/
def firstErr : List (Option PitchErr) → Option PitchErr
  | [] => none
  | some e :: _ => some e
  | none :: es => firstErr es

/-- Read an image and apply the checks of Table 6.8 in order (R184, R192): the image, or its rejection. `ranges` are the
memory ranges that the schedule entry names. -/
def State.checkImage (s : State) (a rt : Nat) (ranges : List (Nat × Nat)) : Image × Option PitchErr :=
  let h := s.imageHead a rt
  if s.headFormatBad h then (h, some { code := 1 })
  else
    let h := { h with stns := s.imageStns h }
    let g := { h with strs := s.imageStrs h }
    let normal := g.mode == 0
    let when := fun (e : Option PitchErr) => if normal then e else none
    if s.bodyFormatBad g then (g, some { code := 1 })
    else (g, firstErr [g.shapeErr, s.unitsErr g, s.worldErr g ranges, when g.modeErr, s.rateErr g, when g.cycleErr,
                       s.capacityErr g, when g.imbalanceErr])

end Sys2Proof.Machine
end

