-- ==== Sys2Proof/Machine/Package.lean ====
section
/-! DEFINITION. The package network (chapter 11): routes, routers and links, merged reads at a slice, and in-network
addition. -/

namespace Sys2Proof.Machine

/-! ## Nodes and routes (R313, R318) -/

/-- Grid position of a cluster router. -/
def rtX (k : Nat) : Nat := k % 4
def rtY (k : Nat) : Nat := k / 4

/-- The routers that a node is attached to: a router to itself, an end node to two, lower x and then lower y first. -/
def attached (node : Nat) : List Nat :=
  match node with
  | 8 => [0, 1]
  | 9 => [2, 3]
  | 10 => [4, 5]
  | 11 => [6, 7]
  | 12 => [0, 4]
  | 13 => [3, 7]
  | _ => if node < 8 then [node] else []

/-- Grid hops between two routers. -/
def gridHops (a b : Nat) : Nat := (rtX a - rtX b) + (rtX b - rtX a) + ((rtY a - rtY b) + (rtY b - rtY a))

/-- The nearest of some routers to a router, the first on a tie. Log entry 169 (DEDUCED). -/
def nearest (k : Nat) : List Nat → Option Nat
  | [] => none
  | r :: rs =>
    match nearest k rs with
    | none => some r
    | some q => if gridHops q k < gridHops r k then some q else some r

/-- The router through which a packet at router `k` leaves toward a node. -/
def exitRouter (k node : Nat) : Option Nat := nearest k (attached node)

/-- One step from router `k` toward router `t`: along x first, then along y. -/
def towards (k t : Nat) : Nat :=
  if rtX k < rtX t then k + 1
  else if rtX t < rtX k then k - 1
  else if rtY k < rtY t then k + 4
  else if rtY t < rtY k then k - 4
  else k

/-- Where a packet at router `k` for a node goes: to another router, or out at this one. -/
def nextOn (k node : Nat) : Option Nat := (exitRouter k node).map (towards k)

/-- The routers on the way from `k` to a node's exit, `k` first. -/
def routeOf (node : Nat) : Nat → Nat → List Nat
  | 0, k => [k]
  | f + 1, k =>
    match nextOn k node with
    | some n => if n = k then [k] else k :: routeOf node f n
    | none => [k]

/-! ## Links (Table 11.2, R315, R316) -/

/-- Modules of a UCIe link of router `k`: 0 centre, 1 vertical, 2 memory, 3 I/O; 0 when it has none. -/
def linkModules (k link : Nat) : Nat :=
  match link with
  | 0 => if rtX k = 1 ∨ rtX k = 2 then 8 else 0
  | 1 => 8
  | 2 => 12
  | _ => if rtX k = 0 ∨ rtX k = 3 then 4 else 0

/-- The router at the other end of a centre or vertical link. -/
def linkPeer (k link : Nat) : Option Nat :=
  match link with
  | 0 => if rtX k = 1 then some (k + 1) else if rtX k = 2 then some (k - 1) else none
  | 1 => some (if k < 4 then k + 4 else k - 4)
  | _ => none

/-- The MOD_ field of a link. -/
def linkField (link : Nat) : Fld :=
  match link with
  | 0 => F.CL_NET_LINK_MOD_X
  | 1 => F.CL_NET_LINK_MOD_Y
  | 2 => F.CL_NET_LINK_MOD_MD
  | _ => F.CL_NET_LINK_MOD_IO

/-- The modules in service on a link, at both its routers. Log entry 170 (DESIGN CHOICE). -/
def State.setModules (s : State) (k link m : Nat) : State :=
  let s := s.put (linkField link) m k
  match linkPeer k link with
  | some q => s.put (linkField link) m q
  | none => s

/-- A link carries nothing while it retrains. -/
def State.linkBusy (s : State) (k link : Nat) : Bool :=
  s.netTrain.any (fun x => x == (k, link) || (linkPeer k link == some x.1 && x.2 == link))

/-- The UCIe link, if any, that a packet crosses from router `k` to router `n`, or to an end node. -/
def linkTo (k n : Nat) : Option Nat :=
  if rtY k ≠ rtY n then some 1 else if (rtX k = 1 ∧ rtX n = 2) ∨ (rtX k = 2 ∧ rtX n = 1) then some 0 else none
def linkOut (node : Nat) : Option Nat := if node < 8 then none else if node < 12 then some 2 else some 3

/-- A packet can cross. -/
def State.linkOpen (s : State) (k : Nat) (link : Option Nat) : Bool :=
  match link with
  | none => true
  | some l => !s.linkBusy k l && s.fld (linkField l) k != 0

/-- LINK_RETRY (R315, R316): a packet has failed its CRC on a link of router `k` and is sent again. A packet that fails
`twice` starts a retrain. Log entry 170 (DESIGN CHOICE). -/
def execLinkRetry (k : Fin 8) (link : Fin 4) (twice : Bool) (s : State) : Out? :=
  if s.fld (linkField link.val) k.val = 0 ∨ s.linkBusy k.val link.val then .next s
  else
    let t := s.bumpSat F.CL_NET_RETRY_COUNT k.val
    .next (if twice then { t with netTrain := t.netTrain ++ [(k.val, link.val)] } else t)

/-- A link has no module left: MESH_DOWN, of device class (R316, Table 21.3). Log entry 170 (DESIGN CHOICE). -/
def State.meshDown (s : State) (k link : Nat) : State :=
  (s.fire 0 136).raise 0x41 .dev srcDevice 0xFF s.sectId [] [k, link]

/-- MESH_RETRAIN (R316, R536): a retrain of a link ends with `mods` modules; a module lost stays out of service.
Log entry 170 (DESIGN CHOICE). -/
def execMeshRetrain (k : Fin 8) (link : Fin 4) (mods : Fin 13) (s : State) : Out? :=
  let now := s.fld (linkField link.val) k.val
  if now = 0 then .next s
  else
    let m := Nat.min now mods.val
    let t := { s with netTrain := s.netTrain.filter (fun x =>
      !(x == (k.val, link.val) || (linkPeer k.val link.val == some x.1 && x.2 == link.val))) }
    let t := (t.setModules k.val link.val m).fire 0 (128 + k.val)
    let t := t.raise 0x51 .none srcDevice 0xFF s.sectId [] [k.val, m]
    .next (if m = 0 then t.meshDown k.val link.val else t)

/-! ## Packets (Table 11.3) -/

def ppType (b : List Byte) : Nat := byteAt b 0
def ppVc (b : List Byte) : Nat := bits (byteAt b 1) 1 0
def ppWorld (b : List Byte) : World := World.ofBit (bit (byteAt b 1) 2)
def ppMcast (b : List Byte) : Bool := bit (byteAt b 1) 3
def ppDst (b : List Byte) : Nat := byteAt b 3
def ppCores (b : List Byte) : List Nat := (List.range 16).filter (fun n => bit (fieldAt b 4 2) n)
def ppLen (b : List Byte) : Nat := byteAt b 6
def ppTag (b : List Byte) : Nat := fieldAt b 16 4
def ppSeg (b : List Byte) : Nat := fieldAt b 20 2
def ppCset (b : List Byte) : Nat := fieldAt b 22 2
def ppData (b : List Byte) : List Byte := (b.drop 32).take (64 * ppLen b)

/-- A packet with its CRC formed over bytes 0 to 27 and the payload. -/
def ppSigned (b : List Byte) : List Byte := putField b 28 4 (crc32c (b.take 28 ++ b.drop 32))

/-- A bit for each of some cores. -/
def maskOf (cs : List Nat) : Nat := cs.foldl (fun m n => setBit m n) 0

/-- A copy of a multicast packet for some of its cores. -/
def ppFor (b : List Byte) (cs : List Nat) : List Byte := ppSigned (putField b 4 2 (maskOf cs))

/-- A TYPE that Table 11.3 reserves, or a LEN above 8 (R317). -/
def ppBad (b : List Byte) : Bool := ppType b == 0 || decide (9 < ppType b) || decide (8 < ppLen b)

/-- A packet for core `n` at its cluster's local port (R322, R328): discarded for a fenced core or a cluster in bivouac;
a multicast copy for a core of the other world is dropped as a violation; any other is delivered, and what its unit does
with it is that unit's own step. -/
def State.localPort (s : State) (b : List Byte) (n : Nat) : State :=
  let k := coreCluster n
  if s.fenced.contains n ∨ s.flag F.ME_STATUS_CORE_FENCED (2 * n) ∨ s.inBivouac k then s.bumpSat F.CL_NET_FDROP_COUNT k
  else if ppMcast b ∧ s.coreWorld n ≠ ppWorld b then s.worldViol 3 n (fieldAt b 8 6)
  else s

/-- The next routers or end nodes of a packet at router `k`, each with the cores it goes there for: a router's number, `k`
for the local port, or 16 + node for an end node that this router is the exit of. Log entry 166 (DESIGN CHOICE). -/
def hopsOf (k : Nat) (b : List Byte) : List (Nat × List Nat) :=
  let cs := if ppMcast b ∨ ppDst b < 8 then ppCores b else []
  if ppMcast b then
    let ways := cs.map (fun n => (towards k (coreCluster n), n))
    ((List.range 8).filter (fun r => ways.any (fun p => p.1 == r))).map (fun r => (r, (ways.filter (fun p => p.1 == r)).map (·.2)))
  else match nextOn k (ppDst b) with
    | none => []
    | some r => if r = k ∧ 8 ≤ ppDst b then [(16 + ppDst b, [])] else [(r, cs)]

/-- Every output of a packet's tree at router `k` carries. -/
def State.treeOpen (s : State) (k : Nat) (b : List Byte) : Bool :=
  (hopsOf k b).all (fun h =>
    if h.1 = k then !(h.2.any (fun n => s.fld F.BC_CL_STATE (coreCluster n) == 1))
    else if 16 ≤ h.1 then s.linkOpen k (linkOut (h.1 - 16))
    else s.linkOpen k (linkTo k h.1))

/-- The packet leaves router `k`: to the next routers, one copy to each, to its local port, or out of the network.
Log entry 166 (DESIGN CHOICE). -/
def State.forwardPkt (s : State) (k : Nat) (b : List Byte) : State :=
  forEach (hopsOf k b) (fun h s =>
    let c := if ppMcast b then ppFor b h.2 else b
    if h.1 = k then forEach h.2 (fun n s => s.localPort c n) s
    else if 16 ≤ h.1 then s
    else { s with routers := s.routers ++ [⟨h.1, c⟩] }) s

/-- A reduction segment that router `k` combines waits there (R325, R326). -/
def State.tagAt (s : State) (k : Nat) (b : List Byte) : Option RouterTag :=
  if ppType b ≠ 8 then none
  else firstWhere (fun (t : RouterTag) => t.router == k && t.tag == ppTag b && t.operands.contains (ppCset b)) s.rtags

/-- A waiting packet of a router: of CTL if there is one, else the oldest. -/
def State.nextPkt (s : State) (k : Nat) : Option RouterPkt :=
  let mine := s.routers.filter (fun (p : RouterPkt) => p.router == k)
  match firstWhere (fun (p : RouterPkt) => ppVc p.bytes == 0) mine with
  | some p => some p
  | none => mine.head?

/-- A dozing cluster whose packet waits at its local port is asked to wake (R328, R493). -/
def State.wakeFor (s : State) (k : Nat) : State :=
  if s.fld F.BC_CL_STATE k = 1 ∧ !s.wakeReq.contains k then { s with wakeReq := s.wakeReq ++ [k] } else s

/-- PACKET_FORWARD (R318, R322, R328): router `k` takes a packet, `enter` from its own cluster or an attached end node,
else one that waits there, and sends it on its way. Log entry 166 (DESIGN CHOICE). -/
def execPacketForward (k : Fin 8) (enter : Option (List Byte)) (s : State) : Out? :=
  let p := match enter with
    | some b => some (RouterPkt.mk k.val b)
    | none => s.nextPkt k.val
  match p with
  | none => .next s
  | some p =>
    let t := match enter with
      | some _ => s
      | none => { s with routers := s.routers.erase p }
    if ppBad p.bytes then .next (t.bumpSat F.CL_NET_BAD_COUNT k.val)
    else match t.tagAt k.val p.bytes with
      | some g => .next { t with rtags := t.rtags.map (fun x => if x = g then { g with segs := g.segs ++ [p.bytes] } else x) }
      | none =>
        if t.treeOpen k.val p.bytes then .next (t.forwardPkt k.val p.bytes)
        else
          let w := if (hopsOf k.val p.bytes).any (fun h => h.1 == k.val) then t.wakeFor k.val else t
          .next (match enter with
            | some _ => { w with routers := w.routers ++ [p] }
            | none => { w with routers := s.routers })

/-! ## In-network addition (R325 to R327) -/

/-- The logical cores whose partials reach router `k` from each source, for contributors toward a node: each contributor of
its own cluster, and each child router on the routes. Log entry 167 (DESIGN CHOICE). -/
def operandsAt (map : List Nat) (cs : List Nat) (dst k : Nat) : List Nat :=
  let through := cs.filter (fun c => (routeOf dst 8 (coreCluster (map.getD c 0))).contains k)
  let own := through.filter (fun c => coreCluster (map.getD c 0) == k)
  let kids := (List.range 8).filter (fun r => r != k && through.any (fun c =>
    (routeOf dst 8 (coreCluster (map.getD c 0))).contains r && nextOn r dst == some k))
  own.map (fun c => 2 ^ c) ++ kids.map (fun r => maskOf (cs.filter (fun c => (routeOf dst 8 (coreCluster (map.getD c 0))).contains r)))

/-- At pitch, CMD writes a reduction into the routers on its routes, at most 16 TAGs in each.
Log entry 167 (DESIGN CHOICE). -/
def State.setTags (s : State) (reds : List (Nat × Nat × List Nat)) : State :=
  forEach reds (fun r s =>
    forN 8 (fun k s =>
      let ops := operandsAt s.coreMap r.2.2 r.2.1 k
      if ops.isEmpty ∨ 16 ≤ (s.rtags.filter (fun (t : RouterTag) => t.router == k)).length then s
      else { s with rtags := s.rtags ++ [⟨k, r.1, r.2.1, ops, []⟩] }) s) s

/-- The segments of a TAG that have arrived from every operand, in the order of the smallest logical core of each.
Log entry 167 (DESIGN CHOICE). -/
def RouterTag.whole (t : RouterTag) : Option (List (List Byte)) :=
  let ready := t.segs.filter (fun b => t.operands.all (fun o => t.segs.any (fun c => ppSeg c == ppSeg b && ppCset c == o)))
  match ready.head? with
  | none => none
  | some b =>
    let mine := t.segs.filter (fun c => ppSeg c == ppSeg b)
    some ((List.range 16).filterMap (fun n => firstWhere (fun c => firstSet 16 0 (ppCset c) == some n) mine))

/-- FP32 elements added one by one. -/
def addWords (a b : List Byte) : List Byte :=
  (List.range (a.length / 4)).flatMap (fun i => leBytes 4 (f32c (rn32 (vadd (f32 (fieldAt a (4 * i) 4)) (f32 (fieldAt b (4 * i) 4))))))

/-- IN_NETWORK_ADD (R326): router `k` combines the segment of a TAG that has come from all its operands, left to right with
one rounding each, and sends the sum onward. Log entry 167 (DESIGN CHOICE). -/
def execInNetworkAdd (k : Fin 8) (s : State) : Out? :=
  match firstWhere (fun (t : RouterTag) => t.router == k.val && t.whole.isSome) s.rtags with
  | none => .next s
  | some t =>
    match t.whole with
    | some (b :: bs) =>
      let sum := bs.foldl (fun d c => addWords d (ppData c)) (ppData b)
      let cset := (b :: bs).foldl (fun m c => Nat.lor m (ppCset c)) 0
      let out := ppSigned (putField (b.take 32) 22 2 cset ++ sum)
      let u := { s with rtags := s.rtags.map (fun x => if x = t then { t with segs := t.segs.filter (fun c => !(b :: bs).contains c) } else x) }
      if u.treeOpen k.val out then .next (u.forwardPkt k.val out) else .next { u with routers := u.routers ++ [⟨k.val, out⟩] }
    | _ => .next s

/-! ## Merged reads (R323, R324) -/

/-- The merge window in memory-side cycles (Table 11.7). Log entry 168 (DESIGN CHOICE). -/
def State.mergeWindow (s : State) (m : Nat) : Nat := Nat.min (s.fld F.MD_MERGE_X_WINDOW m) 64

/-- The slice whose window holds a direct line, or that is home to an HBM line. -/
def State.sliceOf (s : State) (a : Nat) : Option Nat :=
  match s.place a with
  | .slice m => some m
  | .hbm => some (homeSlice a)
  | _ => none

/-- The response to the cores of a read leaves the slice: one packet, a multicast when it answers several. It enters
the network at the router nearer to each core; where the cores' routes part at the slice itself, at both (R318, R322).
Log entry 169 (DEDUCED). -/
def State.answerRead (s : State) (r : SliceRead) : State :=
  let a := 128 * r.line
  let many := decide (1 < r.cores.length)
  let ways := attached (8 + r.slice)
  forEach ways (fun at_ s =>
    let cs := r.cores.filter (fun n => nearest (coreCluster n) ways == some at_)
    match cs with
    | [] => s
    | n :: _ =>
      let b := leBytes 1 3 ++ leBytes 1 (3 + 4 * r.world.bit + (if many then 8 else 0)) ++ leBytes 1 (8 + r.slice)
        ++ leBytes 1 (if many then 0xFF else coreCluster n) ++ leBytes 2 (maskOf cs) ++ leBytes 2 2 ++ leBytes 6 a
        ++ List.replicate 18 0 ++ s.bytes a 128
      { s with routers := s.routers ++ [⟨at_, ppSigned b⟩] }) s

/-- A read of a line's error, if any: 1 corrected, 2 uncorrectable (R287). Log entry 169 (DEDUCED). -/
def State.readError (s : State) (m a err : Nat) : State :=
  match err, s.place a with
  | 0, _ => s
  | 1, .hbm => s.bumpSat F.HBM_ECC_CE_COUNT (stackOf a)
  | 1, _ => s.bumpSat F.MD_ECC_CE_COUNT m
  | _, .hbm => ((s.bumpSat F.HBM_ECC_UE_COUNT (stackOf a)).put F.HBM_ECC_LOG_BURST ((a - hbmBase) / 64) (stackOf a)).memUe 3 (stackOf a) a
  | _, _ => ((s.bumpSat F.MD_ECC_UE_COUNT m).put F.MD_ECC_LOG_LINE (a / 128) m).memUe 2 m a

/-- SLICE_READ (R323): a read of an address reaches slice `m` at a cycle of the memory-side clock, from `core`, or (none)
from the fabric, BAR4, prefetch or an atomic's line fill, whose reads never merge. `gone` says that the data of the pending
read of its line has begun to leave, and `err` what reading the line finds: 0 nothing, 1 a corrected error, 2 an
uncorrectable one. Log entry 168 (DESIGN CHOICE). -/
def execSliceRead (m : Fin 4) (core : Option (Fin 16)) (addr cycle : Nat) (gone : Bool) (err : Fin 3) (s : State) : Out? :=
  let a := addr / 128 * 128
  if s.sliceOf a ≠ some m.val ∨ s.zeroingIn a 128 then .next s
  else
    let w := s.worldAt a
    match core with
    | none => .next ((s.hbmTouch).readError m.val a err.val)
    | some n =>
      if s.coreWorld n.val ≠ w then .next (s.worldViol 5 n.val addr)
      else
        let line := a / 128
        let old := s.reads.filter (fun r => r.slice == m.val && (decide (r.since + s.mergeWindow m.val < cycle) || (gone && r.line == line)))
        let t := forEach old (fun r (s : State) => s.answerRead r) { s with reads := s.reads.filter (fun r => !old.contains r) }
        match firstWhere (fun (r : SliceRead) => r.slice == m.val && r.line == line && r.world == w && r.merges) t.reads with
        | some p =>
          if s.mergeWindow m.val = 0 then .next t
          else .next (({ t with reads := t.reads.map (fun x => if x = p then { p with cores := if p.cores.contains n.val then p.cores else p.cores ++ [n.val] } else x) }).bump
            F.MD_MERGED_COUNT m.val)
        | none =>
          let r : SliceRead := ⟨m.val, line, w, cycle, [n.val], false, true⟩
          let t := t.readError m.val a err.val
          if s.mergeWindow m.val = 0 then .next (t.answerRead r) else .next { t with reads := t.reads ++ [r] }

end Sys2Proof.Machine
end

