-- ==== Sys2Proof/Machine/Sld.lean ====
section
/-! DEFINITION. SLD, sliced double (R100 to R104, R227 to R230): slices, the exact slice products, recombination, the
fall-back path, and the completion record. -/

namespace Sys2Proof.Machine

/-! ## Arithmetic (R100 to R102, R104) -/

def f64 (c : Nat) : Val := decodeIeee fp64 true c

/-- The largest magnitude of a row or column. -/
def vecMax (xs : List Val) : Val := (xs.map Val.abs).foldl vmax vzero

/-- The smallest nonzero magnitude. -/
def vecMin (xs : List Val) : Val :=
  match xs.filter (fun x => !x.isZero) with
  | [] => vzero
  | y :: ys => (ys.map Val.abs).foldl vmin y.abs

/-- A row of A or a column of B falls back (R104): it holds an infinity or a NaN, or spreads over more than 2^400. -/
def fallsBack (xs : List Val) : Bool :=
  xs.any (fun x => !x.isFin) || vlt ((vecMin xs).scale 400) (vecMax xs)

/-- The exponent of a row or column (R100): 2^e ≤ α < 2^(e+1), and 0 when all are zero. -/
def sliceExp (xs : List Val) : Int := if (vecMax xs).isZero then 0 else floorLog2 (vecMax xs)

/-- q = trunc(x · 2^(53 − e)). -/
def sliceInt (e : Int) (x : Val) : Int :=
  match x with
  | .fin sg m k =>
    let p := k + 53 - e
    let q : Int := if 0 ≤ p then (m * 2 ^ p.toNat : Nat) else (m / 2 ^ (-p).toNat : Nat)
    if sg then -q else q
  | _ => 0

/-- The digits of q in base 256 from −128 to 127, least significant first. -/
def sliceDigits : Nat → Int → List Int
  | 0, _ => []
  | n + 1, q =>
    let d := (q + 128) % 256 - 128
    d :: sliceDigits n ((q - d) / 256)

/-- The seven digits, most significant first: digit i is slice i. -/
def slices (e : Int) (x : Val) : List Int := (sliceDigits 7 (sliceInt e x)).reverse

/-- The slice product S_ij of a row and a column. -/
def sliceDot (a b : List (List Int)) (i j : Nat) : Int :=
  ((a.zip b).map (fun p => p.1.getD i 0 * p.2.getD j 0)).foldl (· + ·) 0

/-- Z over the 28 pairs with i + j ≤ 6 (R102). -/
def sliceZ (a b : List (List Int)) : Int :=
  ((List.range 7).flatMap (fun i => (List.range (7 - i)).map (fun j =>
    sliceDot a b i j * ((2 ^ (8 * (12 - i - j)) : Nat) : Int)))).foldl (· + ·) 0

/-- An output element from slices: one rounding to FP64, a zero result +0. -/
def slicedDot (xs ys : List Val) : Val :=
  let ea := sliceExp xs
  let eb := sliceExp ys
  nz (rnd fp64 .nearest (ofInt (sliceZ (xs.map (slices ea)) (ys.map (slices eb))) (ea + eb - 106)))

/-- An output element on the vector path: fused multiply-adds in ascending k from +0. Log entry 122 (DEDUCED). -/
def vectorDot (xs ys : List Val) : Val := (xs.zip ys).foldl (fun c p => ffmaF fp64 .nearest p.1 p.2 c) vzero

/-! ## The instruction -/

/-- Row `m` of A and column `n` of B. -/
def State.sldRow (s : State) (d : PDesc) (m : Nat) : List Val :=
  (List.range d.k).map (fun k => f64 (s.load (d.aopd + m * d.lda + 8 * k) 8))
def State.sldCol (s : State) (d : PDesc) (n : Nat) : List Val :=
  (List.range d.k).map (fun k => f64 (s.load (d.wopd + k * d.ldw + 8 * n) 8))

/-- Bytes of the scratch region (R228). -/
def sldScratch (d : PDesc) : Nat := 7 * (512 * ceilDiv (Nat.min d.k 65536) 512) * (d.m + d.n) + 24 * d.m * d.n

def sldScr (x : StnSt) (w : Nat) : Nat := x.ad (bits w 91 88)
def sldRec (x : StnSt) (w : Nat) : Nat := x.ad (bits w 87 84)

/-- The ranges of A and B, and of C, the scratch region and the record. -/
def sldNear (d : PDesc) : List (Nat × Nat) :=
  [(d.aopd, stridedSpan 0xC false d.m d.k d.lda), (d.wopd, stridedSpan 0xC false d.k d.n d.ldw)]
def sldFar (x : StnSt) (w : Nat) (d : PDesc) : List (Nat × Nat) :=
  [(d.caddr, stridedSpan 0xC false d.m d.n d.ldc), (sldScr x w, sldScratch d), (sldRec x w, 16)]

/-- Two ranges share a byte. -/
def rangesMeet (a b : Nat × Nat) : Bool := decide (a.1 < b.1 + b.2) && decide (b.1 < a.1 + a.2)

/-- The written ranges overlap each other or an operand. -/
def sldOverlap (x : StnSt) (w : Nat) (d : PDesc) : Bool :=
  match sldFar x w d with
  | [c, q, r] => rangesMeet c q || rangesMeet c r || rangesMeet q r
      || (sldNear d).any (fun o => [c, q, r].any (rangesMeet o))
  | _ => false

/-- Log entry 122 (DEDUCED). -/
def State.judgeSld (s : State) (n _sl : Nat) (x : StnSt) (w : Nat) : Option Nat :=
  let b := s.bytes (descAddr x w) 64
  let d := pdescOf b
  if s.descBad n x w then some 3
  else if d.spare || d.asrc || d.wsrc || decide (16777215 < d.m) || d.lda % 64 != 0 || d.ldw % 64 != 0 || d.ldc % 64 != 0
      || decide (2 ^ 48 ≤ d.caddr) then some 4
  else if d.afmt != 0xC || d.wfmt != 0xC then some 5
  else if decide (2048 < d.m) || decide (512 < d.n) then some 7
  else if (sldNear d ++ sldFar x w d).any (fun r => !aligned r.1 64) || sldOverlap x w d
      || !(sldNear d).all (fun r => s.nearOk n r.1 r.2) then some 3
  else s.rangesFault (s.localOk n) (sldNear d ++ sldFar x w d)

/-- SLD waits while an engine has stopped or has no room (R210). -/
def State.sldWaits (s : State) (n : Nat) : Bool :=
  [0, 1].any (fun k => (s.eng (2 * n + k)).stopped || decide (2 ≤ (s.eng (2 * n + k)).inHand))

/-- C and the completion record of a problem (R230, Table 7.6). Log entries 121 (DESIGN CHOICE), 122 (DEDUCED). -/
def State.sldWrite (s : State) (x : StnSt) (w : Nat) (d : PDesc) : State :=
  let zero := d.zero
  let rows := (List.range d.m).map (s.sldRow d)
  let cols := (List.range d.n).map (s.sldCol d)
  let fr := if zero then 0 else (rows.filter fallsBack).length
  let fc := if zero then 0 else (cols.filter fallsBack).length
  let short := decide (d.k < 32)
  let s := if zero then s else s.setFree (sldScr x w) (sldScratch d)
  let s := if zero then s else
    forEach rows.zipIdx (fun r s => s.setBytes (d.caddr + r.2 * d.ldc)
      (cols.flatMap (fun c => leBytes 8 (encodeIeee fp64
        (if short || fallsBack r.1 || fallsBack c then vectorDot r.1 c else slicedDot r.1 c))))) s
  s.setBytes (sldRec x w) (leBytes 4 fr ++ leBytes 4 fc
    ++ leBytes 1 ((if short && !zero then 1 else 0) + (if zero then 2 else 0)) ++ leBytes 3 0
    ++ leBytes 4 (if zero then 0 else ceilDiv d.k 65536))

/-- SLD runs whole: the engines and the vector engine write C in full, then its record. A write into a locked shard is
refused (R258). Log entry 121 (DESIGN CHOICE). -/
def State.doSld (s : State) (n sl : Nat) (x : StnSt) (w : Nat) : State :=
  let d := pdescOf (s.bytes (descAddr x w) 64)
  let id := s.nextId n
  let s := s.acceptOnly n sl w
  let s := (s.rampUp (2 * n)).rampUp (2 * n + 1)
  if (sldFar x w d).any (fun r => decide (0 < r.2) && s.lockedAt r.1 r.2) then s.moveFault n sl 0x12 1 s.selfLog
  else (s.sldWrite x w d).complete n sl id

end Sys2Proof.Machine
end

