-- ==== Sys2Proof/Machine/Sequence.lean ====
section
/-! DEFINITION. The sequencer of a core (R165, R208, R209): what a context's next instruction waits for, which context
issues, and the issue of each row of the instruction set. -/

namespace Sys2Proof.Machine

/-- What a context's next instruction waits for. -/
inductive WaitFor where
  | credit | input | hold | unit | fence
  deriving DecidableEq, Repr

/-- The row of the command table that a word belongs to: opcode and form. A word of no known opcode belongs to NOP's
row, and a reserved sub-operation to its opcode's first row; both end in ILLEGAL there. -/
def rowOf (w : Nat) : Nat × Nat :=
  let sub := fun (k : Nat) (v : Nat) => if v < k then v else 0
  match wOp w with
  | 0x21 => (0x21, sub 3 (bits w 61 60))
  | 0x31 => (0x31, sub 2 (wSub w))
  | 0x43 => (0x43, sub 2 (wSub w))
  | 0x51 => (0x51, sub 2 (wSub w))
  | 0x61 => (0x61, sub 4 (bits w 115 112))
  | op => if (wordFields op w).isSome then (op, 0) else (0, 0)

/-- What an output port waits for, where a tile leaves on it. -/
def creditWait (y : Option StreamSt) : Option WaitFor :=
  match y with
  | some y => if y.credits = 0 then some .credit else none
  | none => none

/-- What an input port waits for. -/
def inputWait (y : Option StreamSt) : Option WaitFor :=
  match y with
  | some y => if y.queue.isEmpty then some .input else none
  | none => none

def waitIf (b : Bool) (r : WaitFor) : Option WaitFor := if b then some r else none

/-- STEER waits for its next pair, and for a credit on each output the peg names. -/
def State.steerWait (s : State) (n sl : Nat) (x : StnSt) (w : Nat) : Option WaitFor :=
  if x.steer.getD (x.ct (bits w 67 65)) = 0 then none
  else match inputWait (s.takePort n sl (wPort w)), s.pegIn n sl (wPort2 w) with
    | some r, _ => some r
    | none, none => none
    | none, some g =>
      match g.queue with
      | [] => some .input
      | p :: _ =>
        if pegBad w p then none
        else waitIf ((pegOuts w p).any (fun o => (creditWait (s.sendPort n sl o)).isSome)) .credit

/-- What the word of a context waits for beyond a full unit or the device's requests (R165, R210, R345). -/
def State.formWait (s : State) (n sl : Nat) (x : StnSt) (w : Nat) : Option WaitFor :=
  match rowOf w with
  | (0x10, _) => waitIf (s.mmWaits false n sl x w) .unit
  | (0x11, _) => waitIf (s.mmWaits true n sl x w) .unit
  | (0x12, _) => waitIf (s.sldWaits n) .unit
  | (0x14, _) => waitIf ((s.dr (2 * n + sl)).next.isSome) .unit
  | (0x20, _) => creditWait (s.sendPort n sl (wPort w))
  | (0x21, 0) => inputWait (s.takePort n sl (wPort2 w))
  | (0x23, _) => inputWait (s.takePort n sl (wPort w))
  | (0x30, _) => creditWait (s.sendPort n sl (wPort w))
  | (0x31, _) => inputWait (s.takePort n sl (wPort w))
  | (0x41, _) => waitIf (s.holdWaits n x w) .hold
  | (0x42, _) => waitIf ((s.judgeWait n sl x w).isNone && s.waitWaits n x w) .hold
  | (0x43, 0) => creditWait (s.pegOut n sl (wPort w))
  | (0x43, _) => inputWait (s.pegIn n sl (wPort w))
  | (0x44, _) => s.steerWait n sl x w
  | (0x50, _) => waitIf (s.chnWaits w) .unit
  | (0x60, _) => waitIf (s.tallyWaits n sl x w) .credit
  | (0x62, _) => waitIf (s.fenceWaits n sl x w) .fence
  | _ => none

/-- A word that ends in a refusal before any wait: ILLEGAL or SLOT, or QUAD for what comes between the members of an
open group (R225). -/
def State.earlyFault (s : State) (n sl : Nat) (x : StnSt) (w : Nat) : Option Nat :=
  match s.wordFault n sl w with
  | some c => some c
  | none => if x.group.isSome ∧ wOp w ≠ 0x11 then some 10 else none

def State.waitOf (s : State) (n sl : Nat) (x : StnSt) (w : Nat) : Option WaitFor :=
  if (s.earlyFault n sl x w).isSome then none
  else if wOp w / 16 = 2 ∧ reqLimit ≤ s.reqCount then some .unit
  else s.formWait n sl x w

/-- Tiles or pegs from other stations or the fabric wait for a station: in the drain phase of a strike it goes on for
them, so that the queues are empty when saving starts (R187). -/
def State.behind (s : State) (n sl : Nat) : Bool :=
  s.streams.any (fun y => y.hasQueue && !y.fed && !y.closed && (!y.queue.isEmpty || !y.flight.isEmpty) &&
    (match y.dst with | some (a, b, _) => a == n && b == sl | none => false))

/-- The context may issue at all: its core runs and is not fenced, its section has not stopped it, and its program has not ended. -/
def State.contextOn (s : State) (n sl : Nat) (x : StnSt) : Bool :=
  s.coreRuns n && !s.flag F.ME_STATUS_CORE_FENCED (2 * n) && !x.halted && !x.finished &&
    (match s.sect with
     | some y => (match y.phase with
        | .running => true
        | .stopping => x.inRound || s.behind n sl
        | .saving => false)
     | none => false)

/-- A context is ready (R165). -/
def State.ready (s : State) (n sl : Nat) : Bool :=
  match s.stn? n sl with
  | some x => s.contextOn n sl x && (s.waitOf n sl x x.word).isNone
  | none => false

/-- The slot that issues next: the first ready one after the slot that issued last, wrapping from 5 to 0 (R165). -/
def State.pick (s : State) (n : Nat) : Option Nat :=
  firstWhere (fun sl => s.ready n sl) ((List.range 6).map (fun i => ((s.core n).lastSlot + 1 + i) % 6))

/-- The address that CO_IFLT_AUX records: that of the descriptor or of the chain header. -/
def auxAddr (x : StnSt) (w : Nat) : Nat :=
  let op := wOp w
  if op = 0x10 ∨ op = 0x11 ∨ op = 0x12 ∨ (0x20 ≤ op ∧ op ≤ 0x25) ∨ op = 0x52 then descAddr x w
  else if op = 0x14 then drcAd x w
  else 0

/-- The failing check of an instruction, in the order of R208. -/
abbrev Judge := State → Nat → Nat → StnSt → Nat → Option Nat

/-- The effect of an accepted instruction. -/
abbrev Act := State → Nat → Nat → StnSt → Nat → State

/-- An instruction at issue: refused at the first failing check, or accepted. -/
def State.issueWord (s : State) (n sl : Nat) (x : StnSt) (judge : Judge) (act : Act) : State :=
  let w := x.word
  match s.earlyFault n sl x w with
  | some c => s.refuse n sl c (auxAddr x w)
  | none =>
    match judge s n sl x w with
    | some c => (if wOp w = 0x14 ∧ c = 12 then s.chainFaultLog n sl x w else s).refuse n sl c (auxAddr x w)
    | none => act s n sl x w

/-- The command that issues slot `sl` of core `n`: it has its effect when that slot is the one to issue and its next
word belongs to the row. -/
def State.issue (s : State) (n sl : Nat) (row : Nat × Nat) (judge : Judge) (act : Act) : Out? :=
  match s.stn? n sl with
  | none => .next s
  | some x => if s.pick n = some sl ∧ rowOf x.word = row then .next (s.issueWord n sl x judge act) else .next s

/-- No check beyond the word's. -/
def noJudge : Judge := fun _ _ _ _ _ => none

/-- The effect is completion at issue. -/
def doNothing : Act := fun s n sl _ w => s.acceptDone n sl w

/-- NOP (R202): no effect but its completion. -/
def execNop (n : Fin 16) (sl : Fin 6) (s : State) : Out? := s.issue n.val sl.val (0, 0) noJudge doNothing

/-- MMA (R221): one problem for the matrix engine. -/
def execMma (n : Fin 16) (sl : Fin 6) (s : State) : Out? := s.issue n.val sl.val (0x10, 0) (fun s => s.judgeMm false) (fun s => s.doMm false)

/-- MMQ (R225, R226): one quadrant's problem. -/
def execMmq (n : Fin 16) (sl : Fin 6) (s : State) : Out? := s.issue n.val sl.val (0x11, 0) (fun s => s.judgeMm true) (fun s => s.doMm true)

/-- SLD (R227 to R230): sliced FP64 multiplication. -/
def execSld (n : Fin 16) (sl : Fin 6) (s : State) : Out? := s.issue n.val sl.val (0x12, 0) State.judgeSld State.doSld

/-- VOP (R234). -/
def execVop (n : Fin 16) (sl : Fin 6) (s : State) : Out? := s.issue n.val sl.val (0x13, 0) State.judgeVop State.doVop

/-- RDX (R235). -/
def execRdx (n : Fin 16) (sl : Fin 6) (s : State) : Out? := s.issue n.val sl.val (0x15, 0) State.judgeRdx State.doRdx

/-- DRC (R231 to R233): the next chain of a drain. -/
def execDrc (n : Fin 16) (sl : Fin 6) (s : State) : Out? := s.issue n.val sl.val (0x14, 0) State.judgeDrc State.doDrc

/-- TALLY (R238). -/
def execTally (n : Fin 16) (sl : Fin 6) (s : State) : Out? := s.issue n.val sl.val (0x60, 0) noJudge State.doTally

/-- SCALE, commit form (R239). -/
def execScaleCommit (n : Fin 16) (sl : Fin 6) (s : State) : Out? := s.issue n.val sl.val (0x61, 0) State.judgeScale State.doScaleCommit

/-- SCALE, discard form (R239). -/
def execScaleDiscard (n : Fin 16) (sl : Fin 6) (s : State) : Out? := s.issue n.val sl.val (0x61, 1) State.judgeScale State.doScaleDiscard

/-- SCALE, form that sets E_INIT (R239). -/
def execSetEInit (n : Fin 16) (sl : Fin 6) (s : State) : Out? := s.issue n.val sl.val (0x61, 2) State.judgeScale State.doSetEInit

/-- SCALE, form that sets E_FIX (R239). -/
def execSetEFix (n : Fin 16) (sl : Fin 6) (s : State) : Out? := s.issue n.val sl.val (0x61, 3) State.judgeScale State.doSetEFix

/-- LDT (R248). -/
def execLdt (n : Fin 16) (sl : Fin 6) (s : State) : Out? := s.issue n.val sl.val (0x20, 0) State.judgeLdt State.doLdt

/-- STT with SRC 0: a tile of an input port (R249). -/
def execSttFromPort (n : Fin 16) (sl : Fin 6) (s : State) : Out? := s.issue n.val sl.val (0x21, 0) State.judgeStt State.doSttPort

/-- STT with SRC 1: a tile image in memory (R249). -/
def execSttFromImage (n : Fin 16) (sl : Fin 6) (s : State) : Out? := s.issue n.val sl.val (0x21, 1) State.judgeStt State.doSttImage

/-- STT with SRC 2: the next tile of the slot's drain (R249). -/
def execSttFromDrain (n : Fin 16) (sl : Fin 6) (s : State) : Out? := s.issue n.val sl.val (0x21, 2) State.judgeStt State.doSttDrain

/-- SND (R250). -/
def execSnd (n : Fin 16) (sl : Fin 6) (s : State) : Out? := s.issue n.val sl.val (0x30, 0) State.judgeSnd State.doSnd

/-- RCV with OP 0: the head tile is copied to memory (R251). -/
def execRcvCopy (n : Fin 16) (sl : Fin 6) (s : State) : Out? := s.issue n.val sl.val (0x31, 0) State.judgeRcv State.doRcvCopy

/-- RCV with OP 1: the head tile is discarded (R251). -/
def execRcvDiscard (n : Fin 16) (sl : Fin 6) (s : State) : Out? := s.issue n.val sl.val (0x31, 1) State.judgeRcv State.doRcvDiscard

/-- PUT (R252). -/
def execPut (n : Fin 16) (sl : Fin 6) (s : State) : Out? := s.issue n.val sl.val (0x24, 0) State.judgePutGet State.doPut

/-- GET (R252). -/
def execGet (n : Fin 16) (sl : Fin 6) (s : State) : Out? := s.issue n.val sl.val (0x25, 0) State.judgePutGet State.doGet

/-- SCT (R253). -/
def execSct (n : Fin 16) (sl : Fin 6) (s : State) : Out? := s.issue n.val sl.val (0x23, 0) State.judgeSct State.doSct

/-- ATM (R255). -/
def execAtm (n : Fin 16) (sl : Fin 6) (s : State) : Out? := s.issue n.val sl.val (0x26, 0) State.judgeAtm State.doAtm

/-- GAT (R257). -/
def execGat (n : Fin 16) (sl : Fin 6) (s : State) : Out? := s.issue n.val sl.val (0x22, 0) State.judgeGat State.doGat

/-- CHN (R259). -/
def execChn (n : Fin 16) (sl : Fin 6) (s : State) : Out? := s.issue n.val sl.val (0x50, 0) State.judgeChn State.doChn

/-- PRM with OP 0 (R260): the owner's segment, divided. -/
def execPrmReceive (n : Fin 16) (sl : Fin 6) (s : State) : Out? := s.issue n.val sl.val (0x51, 0) State.judgePrm State.doPrmReceive

/-- PRM with OP 1 (R260): a step's shards committed. -/
def execPrmCommit (n : Fin 16) (sl : Fin 6) (s : State) : Out? := s.issue n.val sl.val (0x51, 1) State.judgePrm State.doPrmCommit

/-- UPD (R261). -/
def execUpd (n : Fin 16) (sl : Fin 6) (s : State) : Out? := s.issue n.val sl.val (0x52, 0) State.judgeUpd State.doUpd

/-- LOOP (R262). -/
def execLoop (n : Fin 16) (sl : Fin 6) (s : State) : Out? := s.issue n.val sl.val (0x40, 0) State.judgeLoop State.doLoop

/-- HOLD (R263). -/
def execHold (n : Fin 16) (sl : Fin 6) (s : State) : Out? := s.issue n.val sl.val (0x41, 0) noJudge State.doHold

/-- WAIT (R264). -/
def execWait (n : Fin 16) (sl : Fin 6) (s : State) : Out? := s.issue n.val sl.val (0x42, 0) State.judgeWait State.doWait

/-- PEG with OP 0 (R266): a peg is sent. -/
def execPegSend (n : Fin 16) (sl : Fin 6) (s : State) : Out? := s.issue n.val sl.val (0x43, 0) State.judgePeg State.doPegSend

/-- PEG with OP 1 (R266): a peg is taken. -/
def execPegTake (n : Fin 16) (sl : Fin 6) (s : State) : Out? := s.issue n.val sl.val (0x43, 1) State.judgePeg State.doPegTake

/-- STEER (R267): one pair of tile and peg. -/
def execSteer (n : Fin 16) (sl : Fin 6) (s : State) : Out? := s.issue n.val sl.val (0x44, 0) State.judgeSteer State.doSteer

/-- FENCE (R268): every earlier instruction of its scope has completed. -/
def execFence (n : Fin 16) (sl : Fin 6) (s : State) : Out? := s.issue n.val sl.val (0x62, 0) noJudge doNothing

end Sys2Proof.Machine
end

