-- ==== Sys2Proof/Machine/Pitch.lean ====
section
/-! DEFINITION. Pitching (R182 to R186), tiles and pegs arriving at queues (R171, R193), credit returns (R173, R174), and
fetch engines (R298 to R305). -/

namespace Sys2Proof.Machine

/-! ## Binding (R184 steps 5 to 7) -/

/-- Registers of a station from its block in the image (R577). Log entry 132 (DEDUCED). -/
def State.imageRegs (s : State) (g : Image) (x : ImgStn) : StnRegs :=
  if x.regoff = 0 then {}
  else
    let a := g.addr + x.regoff
    { ad := (List.range 16).map (fun k => s.load (a + 8 * k) 8), ct := (List.range 8).map (fun k => s.load (a + 128 + 4 * k) 4),
      sc := (List.range 8).map (fun k => s.load (a + 160 + k) 1), pd := (List.range 4).map (fun k => s.load (a + 168 + 8 * k) 8) }

/-- The number of a stream's queue on its consuming core: queues count in stream-record order. -/
def Image.queueNo (g : Image) (j : Nat) : Nat :=
  match g.strs[j]? with
  | some y => ((g.strs.take j).filter (fun z => z.queued && g.dstCore z == g.dstCore y)).length
  | none => 0

def Image.port (g : Image) (i : Option Nat) (p : Nat) : Option (Nat × Nat × Nat) :=
  match g.stn? i with
  | some x => match x.phys with
    | some n => some (n, x.slot, p)
    | none => none
  | none => none

/-- A stream at its first pitch: credits DEPTH for a producer in the device or a fetch engine, none for a sink until its
peer grants them (R173, R347). -/
def State.newStrm (s : State) (g : Image) (y : ImgStr) (j : Nat) : StreamSt :=
  let n := (g.dstCore y).getD 0
  let q := g.queueNo j
  { id := y.id, kind := y.kind, src := g.port y.srcIx y.sport, dst := g.port y.dstIx y.dport, depth := y.depth,
    fetch := if y.kind = 5 ∧ (y.fetch = 0 ∨ 8 < y.fetch) then y.depth else y.fetch,
    qloc := y.qloc, fmt := y.fmt, mxcol := y.mxcol, rows := y.rows, cols := y.cols, peg := g.isPeg y, p := y.p, c := y.c,
    qnum := q, wepoch := if y.queued then s.epochOf n else 0,
    credits := if y.kind = 0 ∨ y.kind = 1 ∨ y.kind = 5 then y.depth else 0,
    flist := if y.fed then y.flist else 0, irreg := y.fed && bit (byteAt y.raw 18) 0,
    hport := if y.fed then bits (byteAt y.raw 18) 5 1 else 0, need := if y.fed then g.need y else 0,
    gen := if y.fed then s.fld F.CO_FQ_STAT_GEN n q else 0,
    peer := if y.kind = 3 ∨ y.kind = 4 then fieldAt y.raw 18 2 % 32768 else 0,
    peerStream := if y.kind = 3 ∨ y.kind = 4 then fieldAt y.raw 20 2 else 0 }

/-- A stream pitched again: what was saved, with the credits and epoch of this pitch (R187). -/
def StreamSt.again (old new : StreamSt) : StreamSt :=
  { new with txSeq := old.txSeq, rxSeq := old.rxSeq, taken := old.taken, fi := old.fi, runIx := old.runIx,
             credits := new.credits - old.queue.length, queue := old.queue, closed := false }

/-- A station at its first pitch. -/
def State.newStn (s : State) (g : Image) (x : ImgStn) (q n : Nat) : StnSt :=
  let r := s.imageRegs g x
  { name := x.name, prog := x.code, tqidx := x.tqidx, firings := x.firings, q := q, regs := r, mark := (s.core n).issued,
    snap := { regs := r } }

/-- A station pitched again: it resumes at its saved round. -/
def StnSt.again (old : StnSt) (mark : Nat) : StnSt :=
  { old with halted := false, mark := mark, snaps := [], snap := { old.snap with upto := 0 } }

/-- Tile and drain state of a drain at a pitch: no chain, no tallies (R233); what belongs to the step stays. -/
def DrainSt.fresh (d : DrainSt) : DrainSt := { tensorE := d.tensorE, rescales := d.rescales, rsStep := d.rsStep }

/-- The saved part of a section that this pitch resumes: same identifier and step (R187). Log entry 146 (DEDUCED). -/
def State.savedOf (s : State) (id step : Nat) : Option Saved :=
  firstWhere (fun (v : Saved) => v.id == id && v.step == step) s.saved

/-- One station bound to its core and slot. Log entry 132 (DEDUCED). -/
def State.bindStn (s : State) (g : Image) (sv : Option Saved) (x : ImgStn) (q : Nat) : State :=
  match x.phys with
  | none => s
  | some n =>
    let key := 6 * n + x.slot
    let old := match sv with
      | some v => firstWhere (fun (p : Nat × StnSt) => p.1 == key) v.stns
      | none => none
    let st := match old with
      | some (_, o) => o.again (s.core n).issued
      | none => s.newStn g x q n
    let c := s.core n
    let s := s.setCore n { c with
      stns := setAt c.stns x.slot (some st),
      mm0 := if x.slot = 0 then st.snap.mm else c.mm0, mm1 := if x.slot = 1 then st.snap.mm else c.mm1 }
    let s := (s.put F.CO_DONE_COUNT st.snap.dones n x.slot).put F.CO_HOLDS_COUNT st.snap.holds n x.slot
    let s := if x.slot = 0 then s.put F.CO_ROUND_ROUNDS (st.fired / st.q) n else s
    if x.slot < 2 then
      let e := 2 * n + x.slot
      let d := match sv with
        | some v => (match firstWhere (fun (p : Nat × DrainSt) => p.1 == e) v.drains with | some p => p.2 | none => (s.dr e).fresh)
        | none => (s.dr e).fresh
      let y := s.eng e
      (s.setEng e { dens := y.dens, ramp := y.ramp, alt := y.alt, gap := y.gap }).setDr e d
    else s

/-- Registers of a core at a pitch: its section and step, its scale table, its queue peaks, and CO_NUM_X latched at the
start of a step (R161, R198, R271, R575). Log entry 140 (DEDUCED). -/
def State.bindCore (s : State) (g : Image) (step : Nat) (tbl : Option Nat) (n : Nat) : State :=
  let s := ((s.put F.CO_SECT_SECTION g.id n).put F.CO_SECT_STATE 2 n).put F.CO_SECT_MODE g.mode n
  let s := s.put F.CO_STEP_STEP step n
  let s := match tbl with
    | some a => ((s.put F.CO_NUM_TBL_LO_ADDR_LO (a / 4096) n).put F.CO_NUM_TBL_HI_ADDR_HI (a / 2 ^ 32) n).put F.CO_NUM_STAT_TBL_BOUND 1 n
    | none => s.put F.CO_NUM_STAT_TBL_BOUND 0 n
  let s := forN 32 (fun q s => s.put F.CO_Q_PEAK_PEAK 0 n q) s
  let c := s.core n
  let keep := match c.numX with
    | some (st, _) => st == step
    | none => false
  let s := s.setCore n { issued := c.issued, numX := if keep then c.numX else some (step, (s.rd .CO_NUM_X n).toNat) }
  s.dozeWake (coreCluster n)

/-- FQ_STAT of a fed queue (Table 10.11). -/
def State.fqView (s : State) (y : StreamSt) : State :=
  let n := y.dstCore
  let s := (s.put F.CO_FQ_STAT_OUTST y.fly.length n y.qnum).put F.CO_FQ_STAT_GEN y.gen n y.qnum
  s.put F.CO_FQ_STAT_LISTEND (if y.need ≤ y.fi then 1 else 0) n y.qnum

/-- A checked image is bound and its stations start. Log entry 140 (DEDUCED). -/
def State.bindImage (s : State) (g : Image) (runs step : Nat) (entry : Option Nat) (tbl : Option Nat) : State :=
  let sv := s.savedOf g.id step
  let cores := (List.range 16).filter (fun n => g.stns.any (fun x => x.phys == some n))
  let s := forEach cores (fun n s => s.bindCore g step tbl n) s
  let q := g.rounds
  let s := forEach g.stns.zipIdx (fun p s => s.bindStn g sv p.1 (q.getD p.2 1)) s
  let strms := g.strs.zipIdx.map (fun p =>
    let new := s.newStrm g p.1 p.2
    match sv with
    | some v => (match firstWhere (fun (o : StreamSt) => o.id == new.id) v.streams with | some o => o.again new | none => new)
    | none => new)
  let s := forN 4 (fun m s => ((s.put F.MD_SPLIT_RD (g.f 10 1) m).put F.MD_SPLIT_WR (g.f 11 1) m).put F.MD_SPLIT_RM (g.f 12 1) m) s
  let s := { s with
    streams := strms,
    saved := s.saved.filter (fun v => v.id ≠ g.id),
    sect := some { id := g.id, mode := g.mode, world := g.world, img := g.addr, bucket := g.rt, nbkt := g.nbkt, runs := runs,
                   step := step, entry := entry, cores := cores, epochs := cores.map (fun n => (n, s.epochOf n)),
                   placed := s.placedOf g, movedAt := s.now } }
  forEach strms (fun y s =>
    let s := if y.fed then s.fqView y else s
    if y.kind = 3 then s.sendCredit y (y.depth - y.queue.length) else s) s

/-- A rejected pitch is recorded and reported, and binds nothing (R184). Log entries 138 (DEDUCED), 141 (DEDUCED). -/
def State.rejectPitch (s : State) (g : Image) (e : PitchErr) : State :=
  let s := (s.put F.CMD_PERR_CODE e.code).put F.CMD_PERR_SECTION g.id
  let s := (s.put F.CMD_PERR_LOC_STN e.stn).put F.CMD_PERR_LOC_AUX e.aux
  let s := (s.put F.CMD_PERR_SHORT_STREAM e.stream).put F.CMD_PERR_SHORT_TILES e.tiles
  s.postJob 0x01 srcDevice (s.rd .CMD_STEP).toNat [e.code]

/-- Clusters of an image's cores that are in bivouac. -/
def State.sleeping (s : State) (g : Image) : List Nat :=
  (List.range 8).filter (fun k => s.inBivouac k && g.stns.any (fun x => x.phys.map coreCluster == some k))

/-- The pitch once its image is chosen: rejected, or waiting for a cluster to leave bivouac (R495), or bound with `prep`
done first. Log entry 140 (DEDUCED). -/
def State.pitch (s : State) (a rt runs step : Nat) (entry : Option Nat) (tbl : Option Nat) (ranges : List (Nat × Nat))
    (prep : State → State) : State :=
  let (g, e) := s.checkImage a rt ranges
  match e with
  | some e => s.rejectPitch g e
  | none =>
    if s.sleeping g ≠ [] then
      { s with wakeReq := s.wakeReq ++ (s.sleeping g).filter (fun k => !s.wakeReq.contains k) }
    else (prep s).bindImage g runs step entry tbl

/-- The rate-table index of a schedule entry: the STEP command's, or the entry's own (R282, R436). -/
def State.entryRt (s : State) (j : Job) (i : Nat) : Nat :=
  let x := match j.stepCmd with
    | some c => c.idx.getD i 0xFF
    | none => 0xFF
  if x = 0xFF then s.ent j i 8 1 else x

/-- The job may pitch its next schedule entry: a step runs and is neither aborted nor halted, and entries are left. -/
def State.mayPitch (s : State) (j : Job) : Bool :=
  s.sect.isNone && j.stepCmd.isSome && s.bar.aborted.isNone && !s.flag F.CMD_FLT_ST_HALTED
    && decide (s.entryFrom j j.entry < s.schedLen j)

/-- Work-counter pairs and pool buffers at the first pitch of a section in the step (R294, R308).
Log entry 132 (DEDUCED). -/
def State.firstPitch (s : State) (j : Job) (i : Nat) : State :=
  let keep := (s.entBufs j i).map (·.1) ++ s.protectedBufs
  let s := forEach (s.entBufs j i) (fun b s => s.nameBuf j keep b) s
  s.poolView

/-- PITCH (R184): CMD pitches the job's next schedule entry, or, when no job is bound, the image at an address with rate
table 0 for one run (a built-in test, R192). `reds` are the section's in-network reductions: TAG, destination node and
contributing logical cores (R325). Log entry 141 (DEDUCED). -/
def execPitch (img : Option Nat) (reds : List (Nat × Nat × List Nat)) (s : State) : Out? :=
  s.served 4 <|
  match img, s.job with
  | some a, none => if s.sect.isSome then .next s else .next (s.poolResize.pitch a 0 1 0 none none [] (fun s => s.setTags reds))
  | none, some j =>
    if !s.mayPitch j then .next s
    else
      let s := s.poolResize
      match s.job with
      | none => .next s
      | some j =>
        let i := s.entryFrom j j.entry
        let step := (s.rd .CMD_STEP).toNat
        let a := s.ent j i 0 8
        let id := s.load (a + 4) 2
        let sv := s.savedOf id step
        let rt := match sv with | some v => v.bucket | none => s.entryRt j i
        let tbl := if s.ent j i 19 1 = 0xFF then none else j.scts[s.ent j i 19 1]?
        let ranges := (s.entBufs j i).map (fun b => (b.2.2, b.2.1)) ++ (s.entPairs j i).map (fun p => (p, 64))
        let prep := fun (s : State) =>
          let s := s.firstPitch j i
          let s := if sv.isSome then s else { s with wcSnap := (s.entPairs j i).map (fun p => (p, s.bytes p 64)), mapChanged := false }
          let s := ((s.put F.CMD_JOB_PHASE (s.ent j i 10 1)).pfAtPitch j i).setTags reds
          { s with job := some { j with entry := i } }
        .next (s.pitch a rt (s.ent j i 12 4) step (some i) tbl ranges prep)
  | _, _ => .next s

/-! ## Arrival at a receive queue (R171, R193) -/

/-- CO_Q_PEAK follows a queue while its counters are on. -/
def State.peak (s : State) (n q k : Nat) : State :=
  if s.flag F.CO_CNT_X_Q_EN n && decide (s.fld F.CO_Q_PEAK_PEAK n q < k) then s.put F.CO_Q_PEAK_PEAK k n q else s

/-- A tile or peg of an old wake epoch: discarded, its credit returned (R171 step 2). -/
def State.discardOld (s : State) (x : StreamSt) : State := (s.bumpSat F.CO_DISCARD_COUNT x.dstCore).freeSlot x.id

/-- A tile or peg of the other world (R171 step 3). Log entry 134 (DEDUCED). -/
def State.discardWorld (s : State) (x : StreamSt) : State := s.worldViol 2 x.dstCore 0

/-- The checks of R171 on a tile that has left the flight of stream `id`. -/
def State.tileIn (s : State) (id : Nat) (t : List Byte) : State :=
  match s.strm? id with
  | none => s
  | some x =>
    let n := x.dstCore
    if !tCrcOk t then s.protoFault n x.qnum 1 id
    else if tWepoch t ≠ s.epochOf n then s.discardOld x
    else if tWorld t ≠ s.sectWorld then s.discardWorld x
    else if tileShapeBad t x.fmt x.rows x.cols then s.protoFault n x.qnum 2 id
    else if tSeq t ≠ x.rxSeq % 2 ^ 32 then s.protoFault n x.qnum 3 id
    else ((s.setStrm { x with queue := x.queue ++ [t], rxSeq := x.rxSeq + 1 }).peak n x.qnum (x.queue.length + 1)).moved

/-- A hardware fault turns a bit of a tile's header. Log entry 135 (DESIGN CHOICE). -/
def corruptTile (t : List Byte) : List Byte := putField t 56 1 (Nat.xor (byteAt t 56) 1)

/-- TILE_ARRIVAL (R171): the oldest tile on its way on a stream reaches its receive queue. `corrupt` is a hardware fault
on the way. A queue that has faulted accepts no further tile (R172). Log entry 135 (DESIGN CHOICE). -/
def execTileArrival (sid : Fin 65536) (corrupt : Bool) (s : State) : Out? :=
  match s.strm? sid.val with
  | none => .next s
  | some x =>
    match x.flight with
    | [] => .next s
    | t :: ts =>
      if x.closed ∨ x.peg ∨ !x.hasQueue then .next s
      else .next (((s.setStrm { x with flight := ts }).dozeWake (coreCluster x.dstCore)).tileIn x.id (if corrupt then corruptTile t else t))

/-- The checks of R193 on a peg. -/
def State.pegIn_ (s : State) (id : Nat) (b : List Byte) : State :=
  match s.strm? id with
  | none => s
  | some x =>
    let n := x.dstCore
    if fieldAt b 4 4 ≠ s.epochOf n then s.discardOld x
    else if World.ofBit (bit (byteAt b 3) 0) ≠ s.sectWorld then s.discardWorld x
    else ((s.setStrm { x with queue := x.queue ++ [b] }).peak n x.qnum (x.queue.length + 1)).moved

/-- PEG_ARRIVAL (R193): the oldest peg on its way on a stream reaches its peg queue. -/
def execPegArrival (sid : Fin 65536) (s : State) : Out? :=
  match s.strm? sid.val with
  | none => .next s
  | some x =>
    match x.flight with
    | [] => .next s
    | b :: bs =>
      if x.closed ∨ !x.peg ∨ !x.hasQueue then .next s else .next (((s.setStrm { x with flight := bs }).dozeWake (coreCluster x.dstCore)).pegIn_ x.id b)

/-- CREDIT_RETURN (R173, R174): a credit comes back over the guy line; one above DEPTH is dropped as a CREDIT fault.
Log entry 159 (DEDUCED). -/
def execCreditReturn (sid : Fin 65536) (s : State) : Out? :=
  match s.strm? sid.val with
  | none => .next s
  | some x =>
    if x.kind = 2 ∨ x.kind = 3 ∨ x.kind = 4 then .next s
    else
      let s := s.setStrm { x with guy := x.guy - 1 }
      let s := match x.src with | some (n, _, _) => s.dozeWake (coreCluster n) | none => s
      if x.depth ≤ x.credits then .next (s.protoFault x.dstCore x.qnum 4 x.id)
      else .next (s.setStrm { x with guy := x.guy - 1, credits := x.credits + 1 })

/-! ## Fetch engines (R299 to R305) -/

/-- Address of entry `i` of a fetch list. -/
def StreamSt.fentry (y : StreamSt) (i : Nat) : Nat := y.flist + 32 + 32 * i

/-- Tiles of a fed stream that its consumer has taken in this run. -/
def StreamSt.takenRun (y : StreamSt) : Nat := y.taken - y.need * y.runIx

/-- The entries whose rounds the consumer has begun (R301): below this one. -/
def State.begunEntries (s : State) (y : StreamSt) : Nat :=
  match y.dst with
  | none => 0
  | some (n, sl, _) =>
    match s.stn? n sl with
    | none => 0
    | some x => (x.fired / x.q + (if x.inRound then 1 else 0)) * (y.c * x.q)

/-- HOLD marks that name the stream's HPORT, passed by the consumer in this run. -/
def State.holdsFor (s : State) (y : StreamSt) : Nat :=
  match y.dst with
  | none => 0
  | some (n, sl, _) =>
    match s.stn? n sl with
    | none => 0
    | some x => match firstWhere (fun (h : Nat × Nat) => h.1 == y.hport) x.holdsOf with
      | some h => h.2
      | none => 0

/-- The strike in progress stops new rounds. Log entry 143 (DEDUCED). -/
def State.stopping (s : State) : Bool := match s.sect with | some x => x.phase == .stopping | none => false
def State.saving (s : State) : Bool := match s.sect with | some x => x.phase == .saving | none => false

/-- An entry breaks R299: an extent above the shape, an address outside R247, or the other world. -/
def State.entryBad (s : State) (y : StreamSt) (a : Nat) : Bool :=
  let vr := s.load (a + 12) 2
  let vc := s.load (a + 14) 2
  let adr := encInt 64 ((s.load a 6 : Int) + y.runIx * signed 64 (s.load (y.flist + 8) 8))
  let ld := s.load (a + 8) 4
  let span := stridedSpan y.fmt y.mxcol vr vc ld
  decide (y.rows < vr) || decide (y.cols < vc) ||
    (vr != 0 && vc != 0 && (!aligned adr 64 || !aligned ld 64 || !s.localOk y.dstCore adr span || !s.worldOk adr span))

/-- The tile of entry `i` of a fetch list, in the stream's run (R299). Log entry 142 (DEDUCED). -/
def State.fetchTile (s : State) (y : StreamSt) : List Byte :=
  let a := y.fentry y.fi
  let adr := encInt 64 ((s.load a 6 : Int) + y.runIx * signed 64 (s.load (y.flist + 8) 8))
  s.builtTile y.dstCore y y.fmt (s.load (a + 17) 1 % 2) (s.load (a + 12) 2) (s.load (a + 14) 2) (s.load (a + 16) 1)
    (s.load (a + 20) 4) (s.load (a + 24) 4) (s.load (a + 28) 4) adr (s.load (a + 8) 4)

/-- FETCH_ISSUE (R301): the fetch engine of a stream issues the reads of its next entry when the depth, the credits, the
tag and the strike allow. Log entry 142 (DEDUCED). -/
def execFetchIssue (sid : Fin 65536) (s : State) : Out? :=
  match s.strm? sid.val with
  | none => .next s
  | some y =>
    let n := y.dstCore
    let a := y.fentry y.fi
    let tag := s.load (a + 18) 2
    if !y.fed ∨ y.closed ∨ s.saving = true ∨ y.need ≤ y.fi ∨ y.takenRun + Nat.min y.fetch y.depth ≤ y.fi ∨ y.credits = 0
        ∨ (s.stopping = true ∧ s.begunEntries y ≤ y.fi) then .next s
    else if y.irreg ∧ s.holdsFor y < tag then .next (s.put F.CO_FQ_STAT_FALLBACK 1 n y.qnum)
    else
      let s := s.put F.CO_FQ_STAT_FALLBACK 0 n y.qnum
      if (y.irreg ∧ 0 < y.fi ∧ tag < s.load (y.fentry (y.fi - 1) + 18) 2) ∨ s.entryBad y a = true then
        .next (s.protoFault n y.qnum 2 y.id)
      else
        let y' := { y with credits := y.credits - 1, fly := y.fly ++ [(y.fi, y.gen, s.fetchTile y)], fi := y.fi + 1, txSeq := y.txSeq + 1 }
        .next ((s.setStrm y').fqView y')

/-- FETCH_TILE_ARRIVAL (R301, R305): the oldest fetched tile has arrived whole and enters its queue; one of an old
generation is dropped. Log entry 142 (DEDUCED). -/
def execFetchTileArrival (sid : Fin 65536) (s : State) : Out? :=
  match s.strm? sid.val with
  | none => .next s
  | some y =>
    match y.fly with
    | [] => .next s
    | (_, g, t) :: rest =>
      let n := y.dstCore
      let y' := { y with fly := rest }
      let s := (s.setStrm y').fqView y'
      let on := s.flag F.CO_CNT_X_Q_EN n
      if g ≠ y.gen then .next (if on then s.bumpSat F.CO_FQ_WASTE_COUNT n y.qnum else s)
      else if y.closed then .next s
      else
        let r := s.tileIn y.id t
        let entered := match r.strm? y.id with
          | some z => z.rxSeq != y.rxSeq
          | none => false
        .next (if on && entered then r.bump F.CO_FQ_FETCHED_COUNT n y.qnum else r)

end Sys2Proof.Machine
end

