-- ==== Sys2Proof/Machine/Strike.lean ====
section
/-! DEFINITION. Striking (R187 to R191), the end of a section (R186), and the service-mode watch (R196). -/

namespace Sys2Proof.Machine

/-! ## Where the stations stand -/

/-- A store of a station is on its way: a remote write or atomic not yet answered. -/
def State.storing (s : State) (n id : Nat) : Bool :=
  s.xfers.any (fun x => x.core == n && x.iid == id && (x.op == 0x23 || x.op == 0x24 || x.op == 0x26))
    || s.atoms.any (fun a => match a.home with | some (m, _, i, _) => m == n && i == id | none => false)

/-- A station is not at a round boundary: an instruction of its round is still to issue or to complete, stores on their
way apart (R187 step 4). Log entry 143 (DEDUCED). -/
def State.midRound (s : State) (n : Nat) (x : StnSt) : Bool :=
  x.inRound || x.outst.any (fun i => !i.done && !s.storing n i.id)

/-- The stations that a cut would affect. Log entry 144 (DEDUCED). -/
def State.uncut (s : State) : List (Nat × Nat × StnSt) := s.allStns.filter (fun x => s.midRound x.1 x.2.2)

/-- The drain limit in ticks (R187, Table 6.12). Log entry 143 (DEDUCED). -/
def State.drainTicks (s : State) : Nat := usTicks (Nat.min (s.fld F.CMD_STRIKE_X_DRAIN_US) 40)

/-- The strike cuts now: it was requested as a cut, or the drain limit has passed. -/
def State.cutNow (s : State) (x : SectSt) : Bool := x.cut || decide (x.reqAt + s.drainTicks ≤ s.now)

/-! ## The stop phase (R187 step 1, R305) -/

/-- A fetch engine gives up the entries beyond the rounds that its consumer has begun. -/
def State.cutFetch (s : State) (y : StreamSt) : State :=
  let lim := s.begunEntries y
  if y.fi ≤ lim then s
  else
    let inQ := y.fi - y.fly.length - y.takenRun          -- tiles in the queue
    let dropQ := Nat.min inQ (y.fi - y.fly.length - lim)
    let keep := y.fly.filter (fun e => decide (e.1 < lim))
    let dropF := y.fly.length - keep.length
    let gen := (y.gen + 1) % 65536
    let y' := { y with
      queue := y.queue.take (y.queue.length - dropQ), fly := keep.map (fun e => (e.1, gen, e.2.2)), fi := lim, gen := gen,
      credits := y.credits + dropQ + dropF, txSeq := y.txSeq - (dropQ + dropF), rxSeq := y.rxSeq - dropQ }
    let s := (s.setStrm y').fqView y'
    if s.flag F.CO_CNT_X_Q_EN y.dstCore then s.bumpSat F.CO_FQ_WASTE_COUNT y.dstCore y.qnum (dropQ + dropF) else s

/-- A strike is requested (R187): the section stops, or the request joins the strike in progress. -/
def State.requestStrike (s : State) (cut : Bool) : State :=
  match s.sect with
  | none => s
  | some x =>
    match x.phase with
    | .running =>
      let s := { s with sect := some { x with phase := .stopping, reqAt := s.now, cut := cut } }
      let s := forEach x.cores (fun n s => (s.put F.CO_SECT_STATE 3 n).dozeWake (coreCluster n)) s
      let s := forEach (s.allStns.filter (fun p => decide (p.2.1 < 2))) (fun p s =>
        let e := 2 * p.1 + p.2.1
        if s.fillerOn e then s.rampDown e else s) s
      forEach (s.streams.filter (·.fed)) (fun y s => s.cutFetch y) s
    | .stopping => { s with sect := some { x with cut := x.cut || cut } }
    | .saving => s

/-- EARLY_STRIKE (R187): a strike before the end of the section, with or without a cut. Log entry 211 (DEDUCED). -/
def execEarlyStrike (cut : Bool) (s : State) : Out? := s.served 4 <| .next (s.requestStrike (cut || s.fld F.CMD_STRIKE_X_DRAIN_US == 0))

/-- Stations stop at once because the wake epoch of their core has changed, and the section is struck with a cut
(R185). -/
def State.epochChanged (s : State) (n : Nat) : State :=
  match s.sect with
  | none => s
  | some x =>
    if x.cores.contains n then
      (forN 6 (fun sl s => s.onStn n sl (fun st => { st with halted := true })) s).requestStrike true
    else s

/-! ## The cut (R190, R191, R305) -/

/-- The SEQ position of a stream's end at a station, from its counts by port. Log entry 144 (DEDUCED). -/
def seqAt (tot : List (Nat × Int)) (y : StreamSt) (out : Bool) (p : Nat) : Nat :=
  (countOf tot (if out then p else (if y.kind = 5 then 64 else 32) + p)).toNat

/-- The station of an end is among those being cut. -/
def cutHas (cs : List (Nat × Nat × StnSt)) (e : Option (Nat × Nat × Nat)) : Option StnSt :=
  match e with
  | none => none
  | some (n, sl, _) => (firstWhere (fun (c : Nat × Nat × StnSt) => c.1 == n && c.2.1 == sl) cs).map (·.2.2)

/-- A stream with a cut end: its queued and travelling tiles are discarded, its credits are DEPTH again, and each cut
end's SEQ returns to its station's snapshot. A fetch engine returns to the first entry of the cut round.
Log entry 144 (DEDUCED). -/
def State.cutStrm (s : State) (cs : List (Nat × Nat × StnSt)) (y : StreamSt) : State :=
  let cp := cutHas cs y.src
  let cc := cutHas cs y.dst
  if cp.isNone && cc.isNone then s
  else
    let tx := match cp, y.src with
      | some x, some (_, _, p) => if y.peg then y.txSeq else seqAt x.snap.total y true p
      | _, _ => y.txSeq
    let rx := match y.dst with
      | some (n, sl, p) => (match cc with
        | some x => seqAt x.snap.total y false p
        | none => (match s.stn? n sl with
          | some x => seqAt x.total y false p
          | none => y.rxSeq))
      | none => y.rxSeq
    let credits := if y.kind = 0 ∨ y.kind = 1 ∨ y.kind = 5 then y.depth else y.credits
    let y' := { y with txSeq := tx, rxSeq := rx, taken := rx, queue := [], flight := [], part := [], held := 0, guy := 0,
                       credits := credits }
    if y.fed then
      match cc with
      | some x =>
        let y' := { y' with txSeq := rx, runIx := x.snap.runsDone, fi := rx - y.need * x.snap.runsDone, gen := (y.gen + 1) % 65536 }
        let s := (s.setStrm y').fqView y'
        if s.flag F.CO_CNT_X_Q_EN y.dstCore then s.bumpSat F.CO_FQ_WASTE_COUNT y.dstCore y.qnum y.queue.length else s
      | none => s
    else s.setStrm y'

/-- One station returns to the snapshot of its last round boundary; its engine and drain drop the cut work.
Log entry 144 (DEDUCED). -/
def State.cutStn (s : State) (n sl : Nat) (x : StnSt) : State :=
  let p := x.snap
  let c := s.core n
  let s := s.onStn n sl (fun x => { x with
    pc := p.pc, loops := p.loops, regs := p.regs, fired := p.fired, runsDone := p.runsDone, total := p.total, moved := [],
    outst := [], steer := none, group := none, inRound := false, unsafeRound := false, snaps := [], holdsOf := p.holdsOf,
    mark := c.issued })
  let s := (s.put F.CO_DONE_COUNT p.dones n sl).put F.CO_HOLDS_COUNT p.holds n sl
  let s := if sl = 0 then s.put F.CO_ROUND_ROUNDS (p.fired / x.q) n else s
  let gone := s.xfers.filter (fun t => t.core == n && t.slot == sl && !(t.op == 0x23 || t.op == 0x24 || t.op == 0x26))
  let s := { s with
    xfers := (s.xfers.filter (fun t => !gone.contains t)).map (fun (t : Xfer) => if t.core = n ∧ t.slot = sl then { t with todo := [], stream := none } else t),
    reqs := s.reqs.keep (fun _ r => match r with | some r => !gone.any (fun t => t.core == r.core && t.iid == r.iid) | none => false),
    atoms := s.atoms.filter (fun a => match a.home with | some (m, b, _, _) => !(m == n && b == sl) | none => true),
    held := s.held.filter (fun h => match h.home with | some (m, b, _, _) => !(m == n && b == sl) | none => true),
    prms := s.prms.filter (fun u => !(u.core == n && u.slot == sl)),
    upds := s.upds.filter (fun u => !(u.core == n && u.slot == sl)) }
  let s := (forEach s.chanQueues (fun q (s : State) => s.onChan q (fun c => { c with ring := c.ring.filter (fun x => !(x.core == n && x.slot == sl)) })) s).reqView
  if sl < 2 then
    let e := 2 * n + sl
    let y := s.eng e
    let s := s.setEng e { y with probs := [], pipe := [], again := [], psb := .empty, rebuild := none, stopped := false }
    let s := s.setDr e { p.drain with tensorE := (s.dr e).tensorE, rescales := (s.dr e).rescales, rsStep := (s.dr e).rsStep,
                                      rawOut := (s.dr e).rawOut }
    let c := s.core n
    let s := s.setCore n { c with jobs := [], loads := [], pairs := [], mm0 := if sl = 0 then p.mm else c.mm0,
                                  mm1 := if sl = 1 then p.mm else c.mm1 }
    ((s.drView e).handView n).meView n
  else s

/-- The stations `cs` are cut. -/
def State.cutAll (s : State) (x : SectSt) (cs : List (Nat × Nat × StnSt)) : State :=
  let bad := cs.any (fun c => c.2.2.unsafeRound)
  let s := if x.wasCut then s else s.bumpSat F.CMD_STRIKE_ST_CUTS
  let s := { s with sect := some { x with wasCut := true, unsafe_ := x.unsafe_ || bad } }
  let s := forEach s.streams (fun y s => s.cutStrm cs y) s
  forEach cs (fun c s => s.cutStn c.1 c.2.1 c.2.2) s

/-- CUT (R190): at the drain limit, or at once when the strike was requested as a cut, every station that is not at a
round boundary goes back to its last one. -/
def execCut (s : State) : Out? :=
  s.served 4 <|
  match s.sect with
  | none => .next s
  | some x =>
    let cs := s.uncut
    if x.phase = .stopping ∧ s.cutNow x = true ∧ cs ≠ [] then .next (s.cutAll x cs) else .next s

/-! ## Completion and saving (R186, R187 step 5) -/

/-- Every store of the section has been accepted: no request of its stations is under way. Log entry 144 (DEDUCED). -/
def State.storesDone (s : State) : Bool := s.xfers.isEmpty && s.atoms.all (fun a => a.home.isNone)

/-- SECTION_COMPLETE (R186): every station has run its firings and every store is accepted; CMD strikes the section. -/
def execSectionComplete (s : State) : Out? :=
  s.served 4 <|
  match s.sect with
  | none => .next s
  | some x =>
    if x.phase = .running ∧ s.storesDone = true ∧
        s.allStns.all (fun p => decide (x.runs ≤ p.2.2.runsDone) && p.2.2.outst.isEmpty) = true then
      let s := { s with sect := some { x with phase := .saving, ending := true, reqAt := s.now } }
      let s := forEach x.cores (fun n s => s.put F.CO_SECT_STATE 3 n) s
      .next (forEach (s.allStns.filter (fun p => decide (p.2.1 < 2))) (fun p s =>
        let e := 2 * p.1 + p.2.1
        if s.fillerOn e then s.rampDown e else s) s)
    else .next s

/-- SUSPECT clears on an engine that issued 4,096 beats or more with no miss (R61). -/
def State.clearSuspect (s : State) (e : Nat) : State :=
  let y := s.eng e
  if 4096 ≤ y.beats ∧ y.misses = 0 then s.put F.ME_STATUS_SUSPECT 0 e else s

/-- A core is left with no section. -/
def State.unbindCore (s : State) (n : Nat) : State :=
  let c := s.core n
  let s := forEach [2 * n, 2 * n + 1] (fun e s =>
    let y := s.eng e
    let s := if (s.stn? n (e % 2)).isSome then s.clearSuspect e else s
    let s := s.setEng e { dens := y.dens, ramp := y.ramp, alt := y.alt, gap := y.gap }
    let s := s.setDr e { (s.dr e).fresh with rawOut := (s.dr e).rawOut }
    s.drView e) s
  let s := s.setCore n { issued := c.issued, numX := c.numX }
  let s := (s.put F.CO_SECT_STATE 4 n).put F.CO_ROUND_ROUNDS 0 n
  ((s.put F.CO_NUM_STAT_TBL_BOUND 0 n).handView n).meView n

/-- What a struck section keeps for its next pitch in the step. Log entry 146 (DEDUCED). -/
def State.saveOf (s : State) (x : SectSt) : Saved :=
  let stns := s.allStns
  { id := x.id, step := x.step, bucket := x.bucket,
    stns := stns.map (fun p => (6 * p.1 + p.2.1, { p.2.2 with halted := false, outst := [] })),
    streams := s.streams,
    drains := (stns.filter (fun p => decide (p.2.1 < 2))).map (fun p => (2 * p.1 + p.2.1, s.dr (2 * p.1 + p.2.1))) }

/-- The far ends of a struck section's fabric streams: credits are withdrawn from the producers, and after an early strike
the peers' CMDs are told (R347). Log entry 145 (DEDUCED). -/
def State.farEnds (s : State) (early : Bool) : State :=
  forEach s.streams (fun y s =>
    let s := if y.kind = 3 then s.sendCredit y 0 else s
    if early ∧ (y.kind = 3 ∨ y.kind = 4) then s.sendControl 5 y.peer s.sectWorld [] y.peerStream else s) s

/-- Fetched tiles that never arrive are dropped (R305). -/
def State.wasteFly (s : State) : State :=
  forEach s.streams (fun y s =>
    if y.fed && s.flag F.CO_CNT_X_Q_EN y.dstCore then s.bumpSat F.CO_FQ_WASTE_COUNT y.dstCore y.qnum y.fly.length else s) s

/-- The section leaves its units. -/
def State.unpitch (s : State) (x : SectSt) : State :=
  let s := (s.farEnds (!x.ending)).wasteFly
  let s := forEach x.cores (fun n s => s.unbindCore n) s
  { s with sect := none, streams := [], rtags := [], routers := s.routers.filter (fun (p : RouterPkt) => ppType p.bytes != 8),
           pool := s.pool.map (fun (b : PoolBuf) => if b.barred = some x.id then { b with barred := none } else b),
           job := match s.job with
             | some j => some (if x.ending then { j with entry := j.entry + 1 } else j)
             | none => none }

/-- A strike ends its section: the section is complete and no section-class event of it waits for its replay (R529).
Log entry 209 (DEDUCED). -/
def State.endsNow (s : State) (x : SectSt) : Bool :=
  x.ending && !s.faults.any (fun (f : FaultEv) => f.cls == FaultClass.sect && f.sect == x.id)

/-- STRIKE_SAVE (R187 step 5): every station is at a round boundary and every store issued is complete; CMD saves the
section, unless it has ended, and frees its units. An unsafe cut is reported (R191).
Log entries 145 (DEDUCED), 146 (DEDUCED), 211 (DEDUCED). -/
def execStrikeSave (s : State) : Out? :=
  s.served 4 <|
  match s.sect with
  | none => .next s
  | some x =>
    let ready := match x.phase with
      | .running => false
      | .stopping => s.uncut.isEmpty && (s.cutNow x || s.allStns.all (fun p => !s.behind p.1 p.2.1 || p.2.2.halted || p.2.2.finished))
      | .saving => true
    if !ready || !s.storesDone then .next s
    else
      let x := { x with ending := s.endsNow x }
      let s := if x.ending then s else { s with saved := s.saved ++ [s.saveOf x] }
      let s := s.unpitch x
      if x.unsafe_ then .next ((s.put F.CMD_STRIKE_ST_UNSAFE 1).raise 0x07 .step srcDevice 0xFF x.id [] [])
      else .next s

/-- SECTION_STALL (R196): a service-mode section in which nothing has moved for the watch time is struck with a cut. -/
def execSectionStall (s : State) : Out? :=
  s.served 4 <|
  match s.sect with
  | none => .next s
  | some x =>
    let ms := Nat.max (s.fld F.CMD_SVC_X_STALL_MS) 1
    if x.mode ≠ 0 ∧ x.phase = .running ∧ s.flag F.CMD_SVC_WATCH_EN = true ∧ x.movedAt + msTicks ms ≤ s.now then
      .next ((s.postJob 0x08 srcDevice (s.rd .CMD_STEP).toNat [x.id, (s.rd .CMD_STEP).toNat, ms]).requestStrike true)
    else .next s

end Sys2Proof.Machine
end

