-- ==== Sys2Proof/Machine/Fabric.lean ====
section
/-! DEFINITION. The torus ports (R330 to R338, R348) and the routing of fabric packets (R339 to R344, R350). -/

namespace Sys2Proof.Machine

def State.port (s : State) (p : Nat) : PortSt := s.ports.get p {}
/-- Log entry 163 (DEDUCED). -/
def State.setPort (s : State) (p : Nat) (x : PortSt) : State := { s with ports := s.ports.set p {} x }

/-- The port's state: 0 down, 1 training, 2 up, 3 degraded, 4 retraining (Table 12.9). -/
def State.portState (s : State) (p : Nat) : Nat := s.fld F.IKF_PST_STATE p
def State.portOn (s : State) (p : Nat) : Bool := s.portState p == 2 || s.portState p == 3

/-! ## Flits (Table 12.3) -/

/-- Credit units of a flit that carries a packet of so many bytes (R336). -/
def flitUnits (len : Nat) : Nat := ceilDiv (16 + len) 64

/-- Credits of a VC and class at a receiver: four maximum flits for VC0, two for the others (R336).
Log entry 163 (DEDUCED). -/
def creditLimit (key : Nat) : Nat := if key < 4 then 40 else 20

/-- The credits that a flit returns: the lowest VC and class that has some. Log entry 163 (DEDUCED). -/
def PortSt.creditOut (x : PortSt) : Nat × Nat × PortSt :=
  match x.owe.ents with
  | (k, n) :: _ => let c := Nat.min n 65535; (k, c, { x with owe := x.owe.set k 0 (n - c) })
  | [] => (0, 0, x)

/-- The 16 bytes around a packet, and the flit's check. Log entry 154 (DESIGN CHOICE). -/
def flitBytes (ftype vcClass lseq ack : Nat) (nak : Bool) (crvc crcnt : Nat) (pkt : List Byte) : List Byte :=
  let b := leBytes 1 ftype ++ leBytes 1 vcClass ++ leBytes 2 lseq ++ leBytes 2 ack ++ leBytes 1 (if nak then 1 else 0)
    ++ leBytes 1 (pkt.length / 16) ++ leBytes 1 crvc ++ leBytes 2 crcnt ++ leBytes 1 0 ++ pkt
  b ++ leBytes 4 (crc32c b)

/-- The last LSEQ received in order and passed. -/
def PortSt.ackNo (x : PortSt) : Nat := (x.rxSeq + 65535) % 65536

/-- CRVC: the VC in [1:0] and the class in [3:2], from the key 4·VC + class. -/
def crvcOf (key : Nat) : Nat := key / 4 + 4 * (key % 4)

/-- An idle flit leaves a port. -/
def State.sendIdle (s : State) (p : Nat) (nak : Bool) : State :=
  let (k, c, x) := (s.port p).creditOut
  (s.setPort p { x with lastTx := s.now }).emit (.port p (flitBytes 0 0 0 x.ackNo nak (crvcOf k) c []))

/-- IDLE_FLIT (R334): a port that has sent nothing for 1 µs sends an idle flit. -/
def execIdleFlit (p : Fin 6) (s : State) : Out? :=
  if s.portOn p.val ∧ (s.port p.val).lastTx + usTicks 1 ≤ s.now then .next (s.sendIdle p.val false) else .next s

/-- Bytes in a port's retry buffer. -/
def PortSt.retryBytes (x : PortSt) : Nat := x.retry.foldl (fun t r => t + r.2.length) 0

/-- A packet flit leaves a port: it takes the next LSEQ and credits, and stays in the retry buffer until an ACK covers
it (R334, R336). Log entry 154 (DESIGN CHOICE). -/
def State.sendFlit (s : State) (p cls : Nat) (pkt : List Byte) : State :=
  let (k, c, x) := (s.port p).creditOut
  let key := 4 * pkVc pkt + cls
  let f := flitBytes 1 (pkVc pkt + 4 * cls) x.txSeq x.ackNo false (crvcOf k) c pkt
  (s.setPort p { x with
    txSeq := (x.txSeq + 1) % 65536, retry := x.retry ++ [(x.txSeq, f)], lastTx := s.now,
    spent := x.spent.set key 0 (x.spent.get key 0 + flitUnits pkt.length) }).emit (.port p f)

/-- A flit with this packet may be sent: its VC and class have credits, and the retry buffer has room. -/
def PortSt.maySend (x : PortSt) (cls : Nat) (pkt : List Byte) : Bool :=
  decide (x.spent.get (4 * pkVc pkt + cls) 0 + flitUnits pkt.length ≤ creditLimit (4 * pkVc pkt + cls))
    && decide (x.retryBytes + 16 + pkt.length ≤ 262144)

/-- A sender's flits that an ACK covers leave the retry buffer. -/
def ackRetry (ack : Nat) (r : List (Nat × List Byte)) : List (Nat × List Byte) :=
  r.filter (fun e => decide (32768 ≤ (ack + 65536 - e.1) % 65536))

/-- NAK_RESEND (R334): the sender sends again from the failed flit onward. -/
def execNakResend (p : Fin 6) (s : State) : Out? :=
  let x := s.port p.val
  if s.portOn p.val ∧ x.nakGot then
    let s := (s.setPort p.val { x with nakGot := false, lastTx := s.now }).bumpSat F.IKF_PRETRY_COUNT p.val
    .next (forEach x.retry (fun r s => s.emit (.port p.val r.2)) s)
  else .next s

/-- What a flit's acknowledgement, negative acknowledgement and credits do at the sender. A second NAK of one flit makes the
port retrain (R335). -/
def PortSt.heard (x : PortSt) (f : List Byte) : PortSt :=
  let ack := fieldAt f 4 2
  let nak := bit (byteAt f 6) 0
  let key := 4 * bits (byteAt f 8) 1 0 + bits (byteAt f 8) 3 2
  let x := { x with retry := ackRetry ack x.retry, spent := x.spent.set key 0 (x.spent.get key 0 - fieldAt f 9 2) }
  if nak then
    let n := (ack + 1) % 65536
    { x with nakGot := true, naked := some n, twice := x.twice || x.naked == some n }
  else x

/-- A flit is whole: its type and length are in range and its check holds (R334). -/
def flitOk (f : List Byte) : Bool :=
  let plen := byteAt f 7
  let n := 16 + 16 * plen
  f.length == n && fieldAt f (n - 4) 4 == crc32c (f.take (n - 4))
    && ((byteAt f 0 == 0 && plen == 0) || (byteAt f 0 == 1 && decide (5 ≤ plen) && decide (plen ≤ 37)))

/-- A flit fails: NAK goes back, and packet flits are discarded until the failed one arrives again. -/
def State.flitFails (s : State) (p : Nat) : State :=
  let x := s.port p
  (s.setPort p { x with discard := true, fails := x.fails + 1, twice := x.twice || decide (1 ≤ x.fails) }).sendIdle p true

/-- FLIT_RECEIVE (R334): a flit arrives at a port. `uncorr`: an uncorrectable codeword lay under it; `cor`: codewords
corrected. `hops`: the detour hops that a packet in class 2 has left, which the flit does not carry.
Log entry 154 (DESIGN CHOICE). -/
def execFlitReceive (p : Fin 6) (f : List Byte) (uncorr : Bool) (cor : Nat) (hops : List (Fin 8)) (s : State) : Out? :=
  if !s.portOn p.val then .next s
  else
    let s := s.bump F.IKF_PFEC_COR_COUNT p.val 0 cor
    let s := if uncorr then s.bumpSat F.IKF_PFEC_UNC_COUNT p.val else s
    if uncorr ∨ !flitOk f then .next (s.flitFails p.val)
    else
      let x := { (s.port p.val).heard f with lastRx := s.now }
      let s := s.setPort p.val x
      if byteAt f 0 = 0 then .next s
      else
        let l := fieldAt f 2 2
        if l ≠ x.rxSeq then
          -- resent and already passed, or after a gap
          if x.discard ∨ 32768 ≤ (l + 65536 - x.rxSeq) % 65536 then .next s else .next (s.flitFails p.val)
        else
          let pkt := (f.drop 12).take (16 * byteAt f 7)
          let s := s.setPort p.val { x with rxSeq := (x.rxSeq + 1) % 65536, discard := false, fails := 0 }
          .next { s with node := s.node ++ [⟨pkt, some p.val, bits (byteAt f 1) 3 2, hops.map (·.val)⟩] }

/-! ## Training, degradation and loss of a port (R335, R337, R338) -/

/-- The lane sets of R337, widest first: how many lanes, and their mask. Log entry 164 (DESIGN CHOICE). -/
def laneSets : List (Nat × Nat) :=
  [(16, 0xFFFF), (8, 0x00FF), (8, 0xFF00), (4, 0x000F), (4, 0x00F0), (4, 0x0F00), (4, 0xF000)]

/-- The widest set of at most `most` lanes whose lanes all pass. Log entry 164 (DESIGN CHOICE). -/
def laneSet (most pass : Nat) : Option (Nat × Nat) :=
  firstWhere (fun (x : Nat × Nat) => decide (x.1 ≤ most) && (List.range 16).all (fun i => !bit x.2 i || bit pass i)) laneSets

/-- The port goes on with a lane set. -/
def State.portUse (s : State) (p : Nat) (x : Nat × Nat) : State :=
  let s := (s.put F.IKF_PST_LANES x.1 p).put F.IKF_PST_LANEMASK x.2 p
  let s := s.put F.IKF_PST_STATE (if x.1 = 16 then 2 else 3) p
  s.setPort p { s.port p with lastRx := s.now, lastTx := s.now, twice := false, fails := 0, naked := none }

/-- The port goes down (R338): the retry buffer is discarded, FAB and CMD learn of it. -/
def State.portDown (s : State) (p : Nat) : State :=
  let s := ((s.put F.IKF_PST_LANES 0 p).put F.IKF_PST_LANEMASK 0 p).put F.IKF_PST_STATE 0 p
  let s := (s.setPort p {}).fire 2 (136 + p)
  (s.fire 4 (274 + p)).raise 0x3A .step srcDevice 0xFF s.sectId [] [p]

/-- A narrower lane set is in use: LINK_DEGRADED (R337). -/
def State.degraded (s : State) (p lanes : Nat) : State :=
  ((s.bumpSat F.IKF_PDEG_DEGRADES p).fire 2 (128 + p)).raise 0x50 .none srcDevice 0xFF s.sectId [] [p, lanes]

/-- FAB begins to train at full width every port that is down or degraded: at JOB_RESTART and JOB_END (R536). -/
def State.trainPorts (s : State) : State :=
  forN 6 (fun p s => if s.portState p = 0 ∨ s.portState p = 3 then s.put F.IKF_PST_STATE 1 p else s) s

/-- PORT_RETRAIN (R335): a port on which one flit has failed twice begins a retrain at its current width; a port in
training or retraining ends it with the lanes that `pass`. Training at full width takes the widest set that passes, and reports one narrower than the
port had, or than 16 lanes where it had none (R337). Log entry 164 (DESIGN CHOICE). -/
def execPortRetrain (p : Fin 6) (pass : Fin 65536) (s : State) : Out? :=
  let n := p.val
  let w := s.fld F.IKF_PST_LANES n
  if s.portOn n ∧ (s.port n).twice then .next ((s.put F.IKF_PST_STATE 4 n).bumpSat F.IKF_PDEG_RETRAINS n)
  else if s.portState n = 4 then
    let m := s.fld F.IKF_PST_LANEMASK n
    if (List.range 16).all (fun i => !bit m i || bit pass.val i) then .next (s.portUse n (w, m)) else .next (s.portDown n)
  else if s.portState n = 1 ∧ (s.proc 2).run = .running then
    match laneSet 16 pass.val with
    | some x =>
      let t := s.portUse n x
      .next (if x.1 < (if w = 0 then 16 else w) then t.degraded n x.1 else t)
    | none => .next (s.portDown n)
  else .next s

/-- LANE_FAILING (R337): lanes of a port fail; it retrains to the widest set, no wider than now, without a failing lane, and
reports it; with no such set it is down. -/
def execLaneFailing (p : Fin 6) (failing : Fin 65536) (s : State) : Out? :=
  let n := p.val
  let m := s.fld F.IKF_PST_LANEMASK n
  if !s.portOn n ∨ (List.range 16).all (fun i => !(bit m i && bit failing.val i)) then .next s
  else
    let s := s.bumpSat F.IKF_PDEG_RETRAINS n
    match laneSet (s.fld F.IKF_PST_LANES n) (0xFFFF - failing.val) with
    | some x =>
      let t := s.portUse n x
      .next (if x.1 < s.fld F.IKF_PST_LANES n then t.degraded n x.1 else t)
    | none => .next (s.portDown n)

/-- PORT_DOWN (R338): no valid flit for 10 µs while up or degraded, or (`failed`) a retrain that fails. -/
def execPortDown (p : Fin 6) (failed : Bool) (s : State) : Out? :=
  let n := p.val
  let quiet := s.portOn n && decide ((s.port n).lastRx + usTicks 10 ≤ s.now)
  if (failed && (s.portState n == 4 || s.portState n == 1)) || (!failed && quiet) then .next (s.portDown n) else .next s

/-! ## Routing (R341, R342) -/

/-- Where a packet in the device goes next. -/
inductive Hop where
  | here
  | out (p cls : Nat)
  | lost
  deriving DecidableEq, Repr

/-- The direction on a ring from coordinate `a` to `b`: the shorter way round, + when both are equal. -/
def ringPlus (d a b : Nat) : Bool := decide (2 * ((b + d - a) % d) ≤ d)

/-- A hop from `a` crosses the dateline between coordinates D − 1 and 0. -/
def crosses (d a : Nat) (plus : Bool) : Bool := if plus then a == d - 1 else a == 0

/-- The next hop of a packet under R341, or its next detour hop. -/
def State.nextHop (s : State) (k : NodePkt) : Hop :=
  match k.hops with
  | h :: _ => if h < 6 then .out h 2 else .lost
  | [] =>
    let me := s.selfPhys
    let dst := pkDstp k.bytes
    match firstWhere (fun ax => coord ax me != coord ax dst) [0, 1, 2] with
    | none => .here
    | some ax =>
      let d := s.extentOf ax
      let plus := ringPlus d (coord ax me) (coord ax dst)
      let p := 2 * ax + (if plus then 0 else 1)
      let same := match k.inPort with
        | some q => q / 2 == ax && k.cls == 1
        | none => false
      .out p (if crosses d (coord ax me) plus || same then 1 else 0)

/-- The credits of the input buffer that a packet leaves go back to its sender. -/
def State.freeInput (s : State) (k : NodePkt) : State :=
  match k.inPort with
  | none => s
  | some p =>
    let x := s.port p
    let key := 4 * pkVc k.bytes + k.cls
    s.setPort p { x with owe := x.owe.set key 0 (x.owe.get key 0 + flitUnits k.bytes.length) }

/-- A packet leaves the device's list. -/
def State.dropNode (s : State) (k : NodePkt) : State := { s with node := s.node.erase k }.freeInput k

/-- A packet that cannot go on is dropped; a request is refused with UNREACHABLE (R342). -/
def State.lostPkt (s : State) (k : NodePkt) : State :=
  let s := (s.dropNode k).netDrop
  if pkRequest k.bytes then s.refusePkt k.bytes 4 else s

/-- DET set in a packet's header. -/
def withDet (b : List Byte) : List Byte := putField b 1 1 (setBit (byteAt b 1) 5)

/-- A packet whose port is down: it takes the port's detour, or is dropped (R342). -/
def State.detour (s : State) (k : NodePkt) (p : Nat) : State :=
  let n := s.fld F.IKF_PDETOUR_NHOP p
  if pkDet k.bytes ∨ !s.flag F.IKF_PDETOUR_VALID p ∨ n = 0 then s.lostPkt k
  else
    let hops := ([s.fld F.IKF_PDETOUR_HOP0 p, s.fld F.IKF_PDETOUR_HOP1 p, s.fld F.IKF_PDETOUR_HOP2 p]).take n
    { s with node := s.node.map (fun x => if x = k then { k with bytes := withDet k.bytes, hops := hops } else x) }

/-- The oldest packet of a VC that goes out by a port, with its class. -/
def State.outPkt (s : State) (p vc : Nat) : Option (NodePkt × Nat) :=
  s.node.foldl (fun r k =>
    if r.isSome ∨ pkVc k.bytes ≠ vc then r
    else match s.nextHop k with
      | .out q c => if q = p then some (k, c) else none
      | _ => none) none

/-- The weight of a VC in the round robin of VC1 to VC3 (R348). -/
def State.vcWeight (s : State) (vc : Nat) : Nat :=
  Nat.max 1 (match vc with
    | 3 => s.fld F.IKF_ARB_X_W_VC3
    | 1 => s.fld F.IKF_ARB_X_W_VC1
    | _ => s.fld F.IKF_ARB_X_W_VC2)

/-- The VC after a VC in the round robin: 3, 1, 2. -/
def vcAfter (vc : Nat) : Nat := if vc = 3 then 1 else if vc = 1 then 2 else 3

/-- The packet of a VC that a port can send now. -/
def State.sendable (s : State) (p vc : Nat) : Option (NodePkt × Nat) :=
  match s.outPkt p vc with
  | some (k, c) => if (s.port p).maySend c k.bytes then some (k, c) else none
  | none => none

/-- The port sends a packet. -/
def State.sendOut (s : State) (p : Nat) (k : NodePkt) (c : Nat) : State := (s.dropNode k).sendFlit p c k.bytes

/-- VC1 to VC3 share a port by weighted round robin in flits; a VC with nothing to send leaves its turn (R348). -/
def State.sendShared (s : State) (p : Nat) : State :=
  let x := s.port p
  let v0 := if x.left = 0 then vcAfter x.turn else x.turn
  let l0 := if x.left = 0 then s.vcWeight v0 else x.left
  match firstWhere (fun v => (s.sendable p v).isSome) [v0, vcAfter v0, vcAfter (vcAfter v0)] with
  | none => s
  | some v =>
    match s.sendable p v with
    | none => s
    | some (k, c) =>
      let left := if v = v0 then l0 - 1 else s.vcWeight v - 1
      (s.setPort p { x with turn := v, left := left }).sendOut p k c

/-- A detour hop is done when the packet leaves by it: the rest of its list goes with it to the next device. FABRIC_FORWARD
(R341, R342, R348): port `p` takes its next packet, VC0 first; where the port is down, its oldest packet takes the
detour or is dropped. -/
def execFabricForward (p : Fin 6) (s : State) : Out? :=
  let n := p.val
  match firstWhere (fun k => s.nextHop k == .lost) s.node with
  | some k => .next (s.lostPkt k)
  | none =>
    if s.portState n = 0 then
      match [0, 3, 1, 2].filterMap (fun v => s.outPkt n v) with
      | (k, _) :: _ => .next (s.detour k n)
      | [] => .next s
    else if s.portOn n then
      match s.sendable n 0 with
      | some (k, c) => .next (s.sendOut n k c)
      | none => .next (s.sendShared n)
    else .next s

/-! ## Arrival at the destination (R339, R344, R350) -/

/-- CTYPE values that exist (R340). -/
def ctypeKnown (c : Nat) : Bool := decide (1 ≤ c) && decide (c ≤ 7)

/-- A packet breaks R339 or R340. -/
def pktBad (b : List Byte) : Bool :=
  vcOfType (pkType b) != some (pkVc b) || decide (8 < pkLen b) || !pkHcrcOk b || (pkType b == 0x0E && !ctypeKnown (pkSub b))

/-- The key under which the last counter of a source is kept. -/
def rxKey (b : List Byte) : Nat := 8 * pkSrc b + ctrKey (pkKslot b) (pkVc b)

/-- A sealed packet's tag is right and its counter new (R350). -/
def State.sealOk (s : State) (b : List Byte) : Bool :=
  let n := sealNonce (pkSrc b) (pkKslot b) (pkIvctr b)
  decide (pkKslot b < s.sec.jobKeys.length) && s.jobKey (pkKslot b) != []
    && pkTrailer b == gcmTag (s.jobKey (pkKslot b)) n (pkCovered b) (pkPayload b)
    && decide (s.sec.rxCtr.get (rxKey b) 0 < pkIvctr b)

/-- A packet dropped for its seal. -/
def State.sealDrop (s : State) (k : NodePkt) (report : Bool) : State :=
  let s := s.bumpSat F.IKF_AUTH_FAIL_COUNT
  if report then s.authFail (match k.inPort with | some p => portDie p | none => 0) else s

/-- FABRIC_PACKET_RECEIVE (R339, R344, R350): the oldest packet whose route ends here is checked, and accepted or
dropped. -/
def execFabricPacketReceive (s : State) : Out? :=
  match firstWhere (fun k => s.nextHop k == .here) s.node with
  | none => .next s
  | some k =>
    let b := k.bytes
    let s := s.dropNode k
    if pktBad b then .next s.netDrop
    else if pkDst b ≠ s.selfLog then .next (if pkRequest b then s.netDrop.refusePkt b 4 else s.netDrop)
    else if pkWorld b = .s ∧ !pkSealed b then .next (s.sealDrop k false)
    else if pkSealed b then
      if s.sealOk b then
        let n := sealNonce (pkSrc b) (pkKslot b) (pkIvctr b)
        let plain := b.take 64 ++ gcmCrypt (s.jobKey (pkKslot b)) n (pkPayload b) ++ pkTrailer b
        .next { s with fabIn := s.fabIn ++ [plain], sec := { s.sec with rxCtr := s.sec.rxCtr.set (rxKey b) 0 (pkIvctr b) } }
      else .next (s.sealDrop k true)
    else if fieldAt (pkTrailer b) 0 4 ≠ crc32c (pkPayload b) then .next s.netDrop
    else .next { s with fabIn := s.fabIn ++ [b] }

end Sys2Proof.Machine
end

