-- ==== Sys2Proof/Machine/Remote.lean ====
section
/-! DEFINITION. The fabric packets accepted for this device, and what each does: remote requests served (R254 to R258,
R345), their responses (R345, R346), fabric streams (R347) and control messages (R340). -/

namespace Sys2Proof.Machine

/-- The oldest accepted packet that passes a test, and the state without it. -/
def takeWhere (p : List Byte → Bool) : List (List Byte) → Option (List Byte × List (List Byte))
  | [] => none
  | b :: bs =>
    if p b then some (b, bs)
    else match takeWhere p bs with
      | some (x, ys) => some (x, b :: ys)
      | none => none

def State.takePkt (s : State) (p : List Byte → Bool) : Option (List Byte × State) :=
  match takeWhere p s.fabIn with
  | some (b, bs) => some (b, { s with fabIn := bs })
  | none => none

/-- A CONTROL packet of a CTYPE (R340). Log entry 157 (DEDUCED). -/
def isControl (c : Nat) (b : List Byte) : Bool := pkType b == 0x0E && pkSub b == c

/-! ## Requests served (R254, R345) -/

/-- The cause for which this device refuses an access of `len` bytes at `a` by a request packet: outside the shared
cache and HBM, or another world (R254). -/
def State.farCause (s : State) (b : List Byte) (a len : Nat) : Option Nat :=
  if len = 0 ∨ !s.inShared a len then some 3
  else if !s.rangeWorld a len (pkWorld b) then some 2
  else none

/-- A request refused: another world's access is also a world violation (R254, R450). Log entry 156 (DEDUCED). -/
def State.farRefuse (s : State) (b : List Byte) (cause : Nat) : State :=
  (if cause = 2 then s.worldViol 4 0xFF (pkAddr b) else s).refusePkt b cause

/-- A remote access touches HBM (R290, R507). -/
def State.farTouch (s : State) (a : Nat) : State := if s.place a = .hbm then s.hbmTouch else s

/-- READ (R345): up to 512 bytes of the shared cache or HBM are returned. A region that is being zeroed makes the request
wait (R449). Log entry 156 (DEDUCED). -/
def execRead (s : State) : Out? :=
  match s.takeIn 0x01 with
  | none => .next s
  | some (b, t) =>
    let len := 64 * pkSub b
    let a := pkAddr b
    if 8 < pkSub b then .next (t.farRefuse b 3)
    else match t.farCause b a len with
      | some c => .next (t.farRefuse b c)
      | none => if t.zeroingIn a len then .next s else .next ((t.farTouch a).respond b 0x02 0 0 (t.bytes a len))

/-- A message for fabric receive queue `q`: the queue's next slot takes it; a queue that is full, inactive or of another
world drops it and counts it in LOST (R443). Log entries 52 (DEDUCED), 162 (DESIGN CHOICE). -/
def State.frqTake (s : State) (q : Nat) (w : World) (msg : List Byte) : State :=
  if s.qState q = 1 ∧ s.qWorld q = w ∧ s.qFull q = false then s.produceRaw q (padTo 64 msg) else s.qDrop q

/-- WRITE (R254, R345): the payload is written and acknowledged; a range of a locked shard refuses it. A WRITE to the
doorbell address of a fabric receive queue is a message for that queue (R443). -/
def execWrite (s : State) : Out? :=
  match s.takeIn 0x03 with
  | none => .next s
  | some (b, t) =>
    let len := 64 * pkLen b
    let a := pkAddr b
    match t.place a with
    | .door off =>
      if off % 64 = 0 ∧ t.qClass (off / 64) = 3 then .next (t.frqTake (off / 64) (pkWorld b) ((pkPayload b).take 60))
      else .next (t.farRefuse b 3)
    | _ =>
      match t.farCause b a len with
      | some c => .next (t.farRefuse b c)
      | none =>
        if t.lockedAt a len then .next (t.farRefuse b 1)
        else if t.zeroingIn a len then .next s
        else .next ((((t.farTouch a).setBytes a (pkPayload b)).linesWritten a len).respond b 0x04 0 0 [])

/-- ATOMIC (R255, R345): the request goes to the slice that holds or caches the word. Log entry 156 (DEDUCED). -/
def execAtomic (s : State) : Out? :=
  match s.takeIn 0x05 with
  | none => .next s
  | some (b, t) =>
    let a := pkAddr b
    let wd := if bit (pkSub b) 4 then 8 else 4
    let m := 2 ^ (8 * wd)
    if 7 < bits (pkSub b) 3 0 ∨ !aligned a wd then .next (t.farRefuse b 3)
    else match t.farCause b a wd with
      | some c => .next (t.farRefuse b c)
      | none =>
        if t.zeroingIn a wd then .next s
        else
          let t := t.farTouch a
          .next { t with atoms := t.atoms ++ [⟨a, bits (pkSub b) 3 0, wd, pkOpnd b % m, pkCmpv b % m, pkWorld b, none, b⟩] }

/-- GATHER (R257): the owner serves, holds or refuses it. Log entry 156 (DEDUCED). -/
def execGather (s : State) : Out? :=
  match s.takeIn 0x08 with
  | none => .next s
  | some (b, t) => if 8 < pkSub b then .next (t.farRefuse b 3) else .next (t.gatherFar b false)

/-! ## Responses (R345, R346) -/

/-- The transfer of an outstanding request. -/
def State.xferOf? (s : State) (r : ReqSt) : Option Xfer := firstWhere (fun (x : Xfer) => x.core == r.core && x.iid == r.iid) s.xfers

/-- Transfers that wait for room go on, oldest first. -/
def State.pumpAll (s : State) : State := forEach s.xfers (fun x s => s.pump x (x.todo.length + 1)) s

/-- An outstanding request ends. -/
def State.endReq (s : State) (tag : Nat) : State := ({ s with reqs := s.reqs.set tag none none }).reqView

/-- A transfer leaves the list. Log entry 158 (DEDUCED). -/
def State.dropXfer (s : State) (x : Xfer) : State :=
  { s with xfers := s.xfers.filter (fun y => !(y.core == x.core && y.iid == x.iid)) }

/-- One part of a transfer is done; the last completes the instruction, and a scatter frees its input slot (R253). -/
def State.partDone (s : State) (x : Xfer) : State :=
  let x := { x with open_ := x.open_ - 1 }
  let s :=
    if x.todo.isEmpty ∧ x.open_ = 0 then
      let s := s.dropXfer x
      (match x.stream with
       | some id => s.dropHeld id
       | none => s).complete x.core x.slot x.iid
    else s.setXfer x
  s.pumpAll

/-- The remote access of a transfer is refused: its instruction does not complete and its context stops (R254). A
snapshot's export has none and ends with the data it has sent. Log entry 158 (DEDUCED). -/
def State.failXfer (s : State) (x : Xfer) (cause : Nat) : State :=
  let s := s.dropXfer x
  (if x.core < 16 then s.moveFault x.core x.slot x.op cause x.dev else s).pumpAll

/-- A response for an outstanding request whose transfer is of one of the opcodes: the request ends, and `f` acts on its
transfer, unless the transfer has ended already. Any other response is dropped (R346). Log entry 157 (DEDUCED). -/
def State.onResponse (s : State) (b : List Byte) (ops : List Nat) (f : ReqSt → Xfer → State → State) : State :=
  match s.reqs.get (pkTag b) none with
  | none => s.netDrop
  | some r =>
    match s.xferOf? r with
    | none => s.endReq (pkTag b)
    | some x => if ops.contains x.op then f r x (s.endReq (pkTag b)) else s.netDrop

/-- A local write of a transfer, refused on a locked shard (R258). -/
def State.xferStore (s : State) (x : Xfer) (a : Nat) (bs : List Byte) : State :=
  if s.lockedAt a bs.length then s.failXfer x 1 else ((s.setBytes a bs).linesWritten a bs.length).partDone x

/-- READ_RSP (R345): data of a GET or GAT request. -/
def execReadRsp (s : State) : Out? :=
  match s.takeIn 0x02 with
  | none => .next s
  | some (b, t) => .next (t.onResponse b [0x25, 0x22] (fun r x u => u.xferStore x r.part.near (padTo r.part.len (pkPayload b))))

/-- WRITE_ACK (R345): a write of a PUT or SCT has been accepted. -/
def execWriteAck (s : State) : Out? :=
  match s.takeIn 0x04 with
  | none => .next s
  | some (b, t) => .next (t.onResponse b [0x24, 0x23] (fun _ x u => u.partDone x))

/-- ATOMIC_RSP (R255, R345): a remote ATM has executed; the old value goes to its destination when asked. -/
def execAtomicRsp (s : State) : Out? :=
  match s.takeIn 0x06 with
  | none => .next s
  | some (b, t) =>
    .next (t.onResponse b [0x26] (fun _ x u =>
      match x.ret with
      | some a => u.xferStore x a (leBytes x.width (pkOpnd b))
      | none => u.partDone x))

/-- REFUSE (R254, R342, R346, R364): a returned reduction piece goes back to its channel; a refused request ends its
instruction, and UNREACHABLE counts at the requester. -/
def execRefuse (s : State) : Out? :=
  match s.takeIn 0x07 with
  | none => .next s
  | some (b, t) =>
    if pkLen b ≠ 0 then .next (t.pieceBack b)
    else
      let t := if pkSub b = 4 ∧ (t.reqs.get (pkTag b) none).isSome then t.bumpSat F.IKF_UNREACH_COUNT else t
      .next (t.onResponse b [0x22, 0x23, 0x24, 0x25, 0x26] (fun _ x u => u.failXfer x (pkSub b)))

/-- GATHER_HOLD (R257, R346): the owner holds the request; its timer stops until the data arrives. -/
def execGatherHold (s : State) : Out? :=
  match s.takeIn 0x09 with
  | none => .next s
  | some (b, t) =>
    match t.reqs.get (pkTag b) none with
    | some r => .next { t with reqs := t.reqs.set (pkTag b) none (some { r with hold := true }) }
    | none => .next t.netDrop

/-- GATHER_EPOCH (R257): the owner refuses on epoch; the instruction does not complete. -/
def execGatherEpoch (s : State) : Out? :=
  match s.takeIn 0x0A with
  | none => .next s
  | some (b, t) =>
    .next (t.onResponse b [0x22] (fun _ x u => ((u.dropXfer x).shardEpoch x.core x.slot 0x22 x.dev (pkAux b)).pumpAll))

/-- The request timeout in ticks (R346). Log entry 165 (DEDUCED). -/
def State.rtoTicks (s : State) : Nat := Nat.max 1 (s.fld F.IKF_RTO_X_TICKS)

/-- REQUEST_TIMEOUT (R346): the first request that has had no response for the timeout, and is not held, ends as
UNREACHABLE. Log entry 165 (DEDUCED). -/
def execRequestTimeout (s : State) : Out? :=
  match firstWhere (fun (e : Nat × Option ReqSt) =>
      match e.2 with | some r => !r.hold && decide (r.since + s.rtoTicks ≤ s.now) | none => false) s.reqs.ents with
  | some (tag, some r) =>
    let t := (s.bumpSat F.IKF_UNREACH_COUNT).endReq tag
    match s.xferOf? r with
    | some x => .next (t.failXfer x 4)
    | none => .next t.pumpAll
  | _ => .next s

/-! ## Fabric streams (R347) -/

/-- A tile's wake epoch set to the receiving unit's recorded epoch by the port that delivers it, with its header check
made again (R171, R185). Log entry 133 (DEDUCED). -/
def restamp (t : List Byte) (epoch : Nat) : List Byte :=
  let t := putField t 16 4 epoch
  putField t 56 4 (crc32c (t.take 56))

/-- The source stream of kind 3 that a packet names. Log entry 160 (DEDUCED). -/
def State.source? (s : State) (b : List Byte) : Option StreamSt :=
  match s.strm? (pkAux b) with
  | some x => if x.kind = 3 then some x else none
  | none => none

/-- A tile that arrives while its stream is not pitched is discarded and counted once, at its header.
Log entry 160 (DEDUCED). -/
def State.dropTile (s : State) (b : List Byte) : State := if tCrcOk (pkPayload b) then s.bumpSat F.IKF_TDROP_COUNT else s

/-- A piece of a tile joins those before it; the tile goes to its queue when it is whole. -/
def State.tilePiece (s : State) (x : StreamSt) (piece : List Byte) : State :=
  let t := x.part ++ piece
  if x.part.isEmpty ∧ !tCrcOk piece then (s.setStrm { x with part := [] }).tileIn x.id piece
  else if t.length < roundUp (imageLen t x.mxcol) 64 then s.setStrm { x with part := t }
  else (s.setStrm { x with part := [] }).tileIn x.id (restamp (t.take (imageLen t x.mxcol)) x.wepoch)

/-- TILE (R347): one tile, or part of one, of a fabric stream. Log entries 133 (DEDUCED), 160 (DEDUCED). -/
def execTile (s : State) : Out? :=
  match s.takeIn 0x0B with
  | none => .next s
  | some (b, t) =>
    match t.source? b with
    | none => .next (t.dropTile b)
    | some x =>
      if x.closed ∨ x.peg then .next (t.dropTile b)
      else if pkWorld b ≠ t.sectWorld then .next (t.discardWorld x)
      else .next (t.tilePiece x (pkPayload b))

/-- A CREDIT packet can act: its sink stream is pitched, or it withdraws. Log entry 159 (DEDUCED). -/
def State.creditReady (s : State) (b : List Byte) : Bool :=
  pkType b == 0x0C && (pkOpnd b == 0 || (match s.strm? (pkAux b) with | some x => x.kind == 4 | none => false))

/-- Credits granted, returned or withdrawn on a sink stream (R173, R174, R347). Log entry 159 (DEDUCED). -/
def State.creditIn (s : State) (x : StreamSt) (n : Nat) : State :=
  if n = 0 then s.setStrm { x with credits := 0, granted := false }
  else
    let c := (if x.granted then x.credits else 0) + n
    let s := s.setStrm { x with credits := Nat.min c x.depth, granted := true }
    if x.depth < c then
      match x.src with
      | some (k, _, _) => s.protoFault k x.qnum 4 x.id
      | none => s
    else s

/-- CREDIT (R347): credits for a sink stream. A grant waits until its stream is pitched; a withdrawal for a stream that is
not pitched also removes the grants that wait. -/
def execCredit (s : State) : Out? :=
  match s.takePkt s.creditReady with
  | none => .next s
  | some (b, t) =>
    match t.strm? (pkAux b) with
    | some x =>
      if x.kind ≠ 4 then .next t
      else if pkWorld b ≠ t.sectWorld then .next (t.worldViol 2 0xFF 0)
      else .next (t.creditIn x (pkOpnd b))
    | none => .next { t with fabIn := t.fabIn.filter (fun c => !(pkType c == 0x0C && pkAux c == pkAux b)) }

/-- PEG_MESSAGE (R193, R340): a peg from another device reaches its peg stream, with its wake epoch set by the port that
delivers it. Log entry 161 (DESIGN CHOICE). -/
def execPegMessage (s : State) : Out? :=
  match s.takePkt (isControl 4) with
  | none => .next s
  | some (b, t) =>
    match t.source? b with
    | none => .next t
    | some x =>
      if x.closed ∨ !x.peg then .next t
      else if pkWorld b ≠ t.sectWorld then .next (t.discardWorld x)
      else .next (t.pegIn_ x.id (putField ((pkPayload b).take 8) 4 4 x.wepoch))

/-- SECT_STRIKE (R347, R532): the peer section of a fabric stream has been struck; this end is struck, as a step-class
event. Log entries 145 (DEDUCED), 161 (DESIGN CHOICE). -/
def execSectStrike (s : State) : Out? :=
  match s.takePkt (isControl 5) with
  | none => .next s
  | some (b, t) =>
    match t.strm? (pkAux b) with
    | some x =>
      if (x.kind = 3 ∨ x.kind = 4) ∧ x.peer = pkSrc b then
        .next (((t.fire 4 280).raise 0x3C .step srcDevice 0xFF t.sectId [] [t.sectId, pkSrc b]).requestStrike true)
      else .next t
    | none => .next t

/-! ## Firmware messages (R340, R351) -/

/-- FAB_MGMT (R340): a message for FAB from another device's FAB. -/
def execFabMgmt (s : State) : Out? :=
  s.served 2 <|
  match s.takePkt (isControl 6) with
  | none => .next s
  | some (b, t) => .next ((t.fire 2 144).emit (.mgmt 3 (pkPayload b)))

/-- SEC_MGMT (R340, R351): a message for SEC from another device's SEC. Log entry 161 (DESIGN CHOICE). -/
def execSecMgmt (s : State) : Out? :=
  s.served 1 <|
  match s.takePkt (isControl 7) with
  | none => .next s
  | some (b, t) => .next ((t.fire 1 132).emit (.mgmt 2 (pkPayload b)))

end Sys2Proof.Machine
end

