-- ==== Sys2Proof/Machine/Store.lean ====
section
/-! DEFINITION. The checkpoint store (R403 to R420): flash blocks, planning, taking and restoring checkpoints; and
evaluation snapshots (R398 to R400). -/

namespace Sys2Proof.Machine

/-! ## Flash blocks (R406 to R411) -/

/-- User bytes of a page and of a codeword (Tables 15.2 and 15.3). -/
def pageBytes : Nat := 16384
def cwBytes : Nat := 4096

def State.block (s : State) (b : Nat) : FlashBlock := s.sto.blocks.get b {}
def State.setBlock (s : State) (b : Nat) (x : FlashBlock) : State :=
  { s with sto := { s.sto with blocks := s.sto.blocks.set b {} x } }

/-- The channel of a block number. -/
def blockChan (b : Nat) : Nat := b % 16

/-- A block number names a block of a target in use. -/
def State.blockFitted (s : State) (b : Nat) : Bool :=
  match s.sto.geom[b % 16]? with
  | some (t, l, n, _) => decide (b / 16 % 8 < t) && decide (b / 128 % 4 < l) && decide (b / 512 < n)
  | none => false

/-- The blocks that are fitted and not bad, by number. -/
def State.goodBlocks (s : State) : List Nat :=
  let top := s.sto.geom.foldl (fun m g => Nat.max m g.2.2.1) 0
  (List.range (512 * top)).filter (fun b => s.blockFitted b && !(s.block b).bad)

/-- Bytes that a block holds in pseudo-SLC mode. -/
def State.blockBytes (s : State) (b : Nat) : Nat :=
  match s.sto.geom[b % 16]? with
  | some (_, _, _, pages) => pages * pageBytes
  | none => 0

/-- The pseudo-SLC region and the native region. -/
def State.pslcBlocks (s : State) : List Nat := s.goodBlocks.take s.sto.pslc
def State.nativeBlocks (s : State) : List Nat := s.goodBlocks.drop s.sto.pslc

/-- Blocks that a region's first `n` bytes need. -/
def State.blocksFor (s : State) : List Nat → Nat → Nat
  | [], _ => 0
  | b :: bs, n => if n = 0 then 0 else s.blocksFor bs (n - s.blockBytes b) + 1

/-- A block put into a list by rising erase count. Log entry 196 (DEDUCED). -/
def State.byWear (s : State) (b : Nat) : List Nat → List Nat
  | [] => [b]
  | c :: cs => if (s.block b).erases < (s.block c).erases then b :: c :: cs else c :: s.byWear b cs

/-- A list of blocks by rising erase count. Log entry 196 (DEDUCED). -/
def State.wearOrder (s : State) (bs : List Nat) : List Nat := bs.foldl (fun o b => s.byWear b o) []

/-- STO_PE reports the pseudo-SLC region (Table 15.6). -/
def State.peView (s : State) : State :=
  let es := s.pslcBlocks.map (fun b => (s.block b).erases)
  (s.put F.STO_PE_AVG (if es.isEmpty then 0 else es.foldl (· + ·) 0 / es.length)).put F.STO_PE_MAX (es.foldl Nat.max 0)

/-- A generation's bytes are programmed into the free blocks of a region with the fewest erases (R409). -/
def State.programGen (s : State) (region : List Nat) (seq bytes : Nat) : State :=
  let free := s.wearOrder (region.filter (fun b => (s.block b).gen.isNone))
  let use := free.take (s.blocksFor free bytes)
  (forEach use (fun b s =>
    s.setBlock b { s.block b with erases := (s.block b).erases + 1, gen := some seq, soft := 0, readAt := some s.now }) s).peView

/-- A generation's blocks are free again. -/
def State.freeGen (s : State) (seq : Nat) : State :=
  forEach (s.sto.blocks.ents.filter (fun e => e.2.gen == some seq)) (fun e s => s.setBlock e.1 { s.block e.1 with gen := none }) s

/-- The newest of a list of generations. Log entry 198 (DEDUCED). -/
def newestGen (gs : List Gen) : Option Gen := gs.foldl (fun o g =>
  match o with
  | some h => if h.seq < g.seq then some g else some h
  | none => some g) none

/-- STO_LAST_OWN and STO_LAST_BUD (Table 15.6). Log entry 198 (DEDUCED). -/
def State.lastView (s : State) : State :=
  let pick := fun (bud : Bool) => match newestGen (s.sto.gens.filter (fun g => g.buddy == bud)) with
    | some g => g.step
    | none => 0xFFFFFFFF
  (s.put F.STO_LAST_OWN_STEP (pick false)).put F.STO_LAST_BUD_STEP (pick true)

/-- A generation is no longer valid. Log entry 195 (DEDUCED). -/
def State.dropGen (s : State) (seq : Nat) : State :=
  (({ s with sto := { s.sto with gens := s.sto.gens.filter (fun g => g.seq ≠ seq) } }).freeGen seq).lastView

/-- A block is retired (R408): it is bad, and its generation's codewords go to another block of its region.
Log entry 195 (DEDUCED). -/
def State.retire (s : State) (b : Nat) : State :=
  let x := s.block b
  let region := if s.pslcBlocks.contains b then s.pslcBlocks else s.nativeBlocks
  let s := (s.setBlock b { x with bad := true, gen := none }).bumpSat F.STO_BAD_GROWN
  match x.gen, s.wearOrder (region.filter (fun c => c ≠ b && (s.block c).gen.isNone)) with
  | some g, c :: _ => (s.setBlock c { s.block c with erases := (s.block c).erases + 1, gen := some g, soft := 0, readAt := some s.now }).peView
  | _, _ => s.peView

/-- NAND_PROGRAM_FAIL (R408): a program, or (`erase`) an erase, of a block fails. Log entry 202 (DESIGN CHOICE). -/
def execNandProgramFail (blk : Nat) (erase : Bool) (s : State) : Out? :=
  if !s.blockFitted blk || (s.block blk).bad then .next s
  else
    let c := blockChan blk
    .next ((if erase then s.bumpSat F.NAND_PEFAIL_ERASE c else s.bumpSat F.NAND_PEFAIL_PROG c).retire blk)

/-- An uncorrectable codeword (R407): FLASH_UE, and its generation is invalid. Log entry 197 (DEDUCED). -/
def State.flashUe (s : State) (b : Nat) : State :=
  let c := blockChan b
  let s := (s.bumpSat F.NAND_UNC_COUNT c).fire 3 (128 + c)
  let s := s.raise 0x52 .none srcDevice 0xFF 0 [] [c]
  match (s.block b).gen with
  | some g => s.dropGen g
  | none => s

/-- A block's retention read is due: SCRUB_D days have passed since the last one, or that time is unknown (R410). -/
def State.scrubDue (s : State) (b : Nat) : Bool :=
  match (s.block b).readAt with
  | some t => decide (t + 24 * 3600 * msTicks 1000 * Nat.max 1 (s.fld F.STO_SCRUB_X_SCRUB_D) ≤ s.now)
  | none => true

/-- RETENTION_SCRUB (R407, R410): a written block is read. `cor`: codewords corrected; `need`: the hardest decode among
its codewords: 0 a normal read, 1 to 16 an offset set, 17 a soft decode, 18 none. Log entry 202 (DESIGN CHOICE). -/
def execRetentionScrub (blk cor : Nat) (need : Fin 19) (s : State) : Out? :=
  s.served 3 <|
  let x := s.block blk
  if !s.flag F.STO_SCRUB_SCRUB_EN ∨ x.gen.isNone ∨ x.bad ∨ !s.scrubDue blk ∨ s.flag F.STO_ST_WRITING ∨ s.flag F.STO_ST_RESTORING then
    .next s
  else
    let c := blockChan blk
    let s := s.setBlock blk { x with readAt := some s.now, soft := x.soft + (if 17 ≤ need.val then 1 else 0) }
    let s := s.bump F.NAND_CW_COR_COUNT c 0 cor
    let s := if 1 ≤ need.val then s.bumpSat F.NAND_RETRY_COUNT c else s
    let s := if 17 ≤ need.val then s.bumpSat F.NAND_SOFT_COUNT c else s
    if need.val = 18 then
      let t := s.flashUe blk
      .next (if 2 ≤ (t.block blk).soft then t.retire blk else t)
    else if 2 ≤ (s.block blk).soft then .next (s.retire blk)
    else if Nat.max 1 (s.fld F.STO_SCRUB_X_REFRESH_LVL) ≤ need.val then
      let region := if s.pslcBlocks.contains blk then s.pslcBlocks else s.nativeBlocks
      match s.wearOrder (region.filter (fun b => (s.block b).gen.isNone)) with
      | f :: _ =>
        let s := s.setBlock f { s.block f with erases := (s.block f).erases + 1, gen := x.gen, soft := 0, readAt := some s.now }
        .next (s.setBlock blk { s.block blk with gen := none, soft := 0 }).peView
      | [] => .next s
    else .next s

/-- WEAR_LEVEL_MOVE (R409): when the erase counts of a region's blocks differ by more than 500, the data of its
least-erased written block moves to its most-erased free block. Log entry 196 (DEDUCED). -/
def execWearLevelMove (inNative : Bool) (s : State) : Out? :=
  s.served 3 <|
  let region := s.wearOrder (if inNative then s.nativeBlocks else s.pslcBlocks)
  match region, region.getLast? with
  | lo :: _, some hi =>
    if (s.block hi).erases ≤ (s.block lo).erases + 500 then .next s
    else
      match firstWhere (fun b => (s.block b).gen.isSome) region, (region.filter (fun b => (s.block b).gen.isNone)).getLast? with
      | some a, some f =>
        let g := (s.block a).gen
        let s := s.setBlock f { s.block f with erases := (s.block f).erases + 1, gen := g, soft := 0, readAt := some s.now }
        .next (s.setBlock a { s.block a with gen := none, soft := 0 }).peView
      | _, _ => .next s
  | _, _ => .next s

/-- NAND_COMMAND_DONE (R482): a command on channel `c` completes. Log entries 197 (DEDUCED), 202 (DESIGN CHOICE). -/
def execNandCommandDone (c : Fin 16) (s : State) : Out? := .next (s.fire 3 (144 + c.val))

/-! ## What a checkpoint holds (R412, R413) -/

/-- The bank of a shard that holds epoch `c`. -/
def State.bankOf (s : State) (i c : Nat) : Nat :=
  if s.shE i ≠ c ∧ s.shKept i = c ∧ !s.shKeptCur i then s.shBank i (1 - s.shCur i) else s.shBank i (s.shCur i)

/-- Master and extension of a shard in a bank. -/
def State.masterBytes (s : State) (i base : Nat) : List Byte :=
  s.bytes base (4 * s.shElems i) ++ s.bytes (base + extOff (s.shElems i)) (2 * s.shElems i)

/-- Bytes of a scale table: its header and NENT entries of 128 bytes each (Table 5.3). -/
def State.tableBytes (s : State) (t : Nat) : Nat := 128 * (s.tblNent t + 1)

/-- The extra ranges of the manifest (Table 16.14). -/
def State.manRanges (s : State) (j : Job) : List (Nat × Nat) :=
  (List.range (s.load (j.manifest + 12) 2)).map (fun k =>
    (s.load (j.manifest + 64 + 16 * k) 8, s.load (j.manifest + 64 + 16 * k + 8) 8))

/-- The job map and the shard table; the scale tables and the extra ranges. Log entry 190 (DEDUCED). -/
def State.genHead (s : State) (j : Job) : List Byte := s.bytes j.map 64 ++ s.bytes j.shtab (64 * j.nsh)
/-- Log entry 190 (DEDUCED). -/
def State.genTail (s : State) (j : Job) : List Byte :=
  j.scts.flatMap (fun t => s.bytes t (s.tableBytes t)) ++ (s.manRanges j).flatMap (fun r => s.bytes r.1 r.2)

/-- The masters and extensions of epoch `c`, in table order. Log entry 190 (DEDUCED). -/
def State.genShards (s : State) (c : Nat) : List Byte :=
  (List.range s.shCount).flatMap (fun i => s.masterBytes i (s.bankOf i c))

/-- Bytes of one generation of the job. -/
def State.genSize (s : State) (j : Job) : Nat :=
  64 + 64 * j.nsh + (List.range s.shCount).foldl (fun t i => t + 6 * s.shElems i) 0
    + j.scts.foldl (fun t a => t + s.tableBytes a) 0 + (s.manRanges j).foldl (fun t r => t + r.2) 0

/-- Codewords of so many bytes. Log entry 190 (DEDUCED). -/
def chunkCount (n : Nat) : Nat := ceilDiv n cwBytes

/-- SM3 of the job map with STEP0 taken as 0 (Table 15.4). -/
def mapDigest (map : List Byte) : List Byte := sm3 (putField map 20 4 0)

/-- SM3 of a generation's data fields in CHUNK order. Log entry 190 (DEDUCED). -/
def dataDigest (d : List Byte) : List Byte := sm3 (padTo (cwBytes * chunkCount d.length) d)

/-! ## Planning (R414) -/

/-- The least `r` with r² ≥ n, found bit by bit from `f` bits. -/
def sqrtBits (n : Nat) : Nat → Nat → Nat
  | 0, r => r
  | f + 1, r => if (r + 2 ^ f) * (r + 2 ^ f) ≤ n then sqrtBits n f (r + 2 ^ f) else sqrtBits n f r
def ceilSqrt (n : Nat) : Nat := let r := sqrtBits n 96 0; if r * r = n then r else r + 1

def sumOf (xs : List Nat) : Nat := xs.foldl (· + ·) 0

/-- A value held at least 1 where it divides. -/
def atLeast1 (n : Nat) : Nat := Nat.max n 1

/-- Mean time of the last committed steps, in ticks, as a fraction. Log entry 199 (DEDUCED). -/
def State.stepTime (s : State) : Nat × Nat := (atLeast1 (sumOf s.sto.times), atLeast1 s.sto.times.length)

/-- Ticks in one day. -/
def dayTicks : Nat := 86400 * msTicks 1000

/-- Bytes written per checkpoint: the own generation, and the buddy's where DZ is not 1. Log entry 199 (DEDUCED). -/
def State.ckptBytes (s : State) (j : Job) : Nat := s.genSize j * (if s.extentOf 2 = 1 then 1 else 2)

/-- Bytes of the pseudo-SLC region. -/
def State.pslcCap (s : State) : Nat := s.pslcBlocks.foldl (fun t b => t + s.blockBytes b) 0

/-- WEAR_PE_DAY, MIN_STEPS, MAX_STEPS and M_PRIOR of the manifest (Table 16.14). -/
def State.wearPe (s : State) (j : Job) : Nat := s.load (j.manifest + 6) 1
/-- Log entry 199 (DEDUCED). -/
def State.minSteps (s : State) (j : Job) : Nat := s.load (j.manifest + 2) 2
def State.maxSteps (s : State) (j : Job) : Nat := s.load (j.manifest + 4) 2

/-- Steps of t_wear: ⌈t_wear / step time⌉. -/
def State.wearSteps (s : State) (j : Job) : Nat :=
  let (num, den) := s.stepTime
  ceilDiv (dayTicks * s.ckptBytes j * den) (atLeast1 (s.pslcCap * s.wearPe j) * num)

/-- The interval n in steps. Log entry 199 (DEDUCED). -/
def State.planSteps (s : State) (j : Job) : Nat :=
  if !s.flag F.STO_CKPT_X_ADAPT then (if s.flag F.STO_CKPT_X_FIX_SEL then s.maxSteps j else s.minSteps j)
  else
    let (num, den) := s.stepTime
    let hour := 3600 * msTicks 1000
    let win := hour * atLeast1 (s.fld F.STO_CKPT_X_EV_WIN_H)
    let h := Nat.min (s.now - s.sto.obsFrom) win
    let k := (s.sto.events.filter (fun t => decide (s.now < t + win))).length
    let m := h + s.load (j.manifest + 8) 4 * 60 * msTicks 1000          -- over k + 1
    let n := atLeast1 s.sto.stalls.length
    let c := Nat.max (sumOf s.sto.stalls) (n * msTicks (atLeast1 (s.fld F.STO_CKPT_X_CFLOOR_MS)))   -- over n
    let opt := ceilSqrt (ceilDiv (2 * c * m * den * den) (n * (k + 1) * num * num))
    let rate := s.fld F.STO_RATE_MBPS
    let wrt := if rate = 0 then 0 else ceilDiv (25 * s.ckptBytes j * den) (rate * num)
    Nat.min (Nat.max (Nat.max opt (Nat.max (s.wearSteps j) wrt)) (s.minSteps j)) (s.maxSteps j)

/-! FAB_MGMT messages that FAB hands to STO. Byte 0 names the message, bytes 4–7 hold the step (a layout the model
chooses). -/
/-- Log entry 161 (DESIGN CHOICE). -/
def msgPlan : Nat := 1
/-- Log entry 161 (DESIGN CHOICE). -/
def msgBuddyDone : Nat := 2
/-- Log entry 161 (DESIGN CHOICE). -/
def stoMsg (kind step : Nat) : List Byte := padTo 64 (leBytes 4 kind ++ leBytes 4 step)
def isStoMsg (kind : Nat) (b : List Byte) : Bool := isControl 6 b && byteAt (pkPayload b) 0 == kind

/-- Every logical device of the hall. -/
def State.allDevices (s : State) : List Nat :=
  (List.range (s.extentOf 0)).flatMap (fun x => (List.range (s.extentOf 1)).flatMap (fun y =>
    (List.range (s.extentOf 2)).map (fun z => 1024 * x + 32 * y + z)))

/-- The job's world. -/
def Job.world (j : Job) : World := World.ofBit j.secure

/-- A plan reaches this device: a step it has committed already is skipped (R417). -/
def State.planIn (s : State) (step : Nat) : State :=
  let c := s.fld F.CMD_COMMITTED_STEP
  if c ≠ noStep ∧ step ≤ c then s.bumpSat F.STO_CKCNT_SKIPPED else s.put F.STO_PLAN_STEP step

/-- The root plans after it has committed `step`, and tells every device of the job (R414). -/
def State.planNext (s : State) (j : Job) (step : Nat) : State :=
  let p := s.fld F.STO_PLAN_STEP
  if s.selfLog ≠ 0 ∨ (p ≠ noStep ∧ step < p) then s
  else
    let n := s.planSteps j
    let own := s.fld F.STO_LAST_OWN_STEP
    let first := s.load (j.map + 20) 4
    let last : Int := if own = noStep then (first : Int) - 1 else own
    let plan := Nat.max (step + 2) (last + n).toNat
    let s := (s.put F.STO_NSTEP_N n).put F.STO_PLAN_STEP plan
    forEach (s.allDevices.filter (· ≠ s.selfLog)) (fun d s => s.sendControl 6 d j.world (stoMsg msgPlan plan)) s

/-- CHECKPOINT_PLAN_RECEIVE (R414, R417). -/
def execCheckpointPlanReceive (s : State) : Out? :=
  s.served 3 <|
  match s.takePkt (isStoMsg msgPlan) with
  | none => .next s
  | some (b, t) => .next (t.planIn (fieldAt (pkPayload b) 4 4))

/-! ## Taking a checkpoint (R415 to R417) -/

/-- The pseudo-SLC region is sized at the first checkpoint of a job (R409). -/
def State.sizePslc (s : State) (j : Job) : State :=
  if s.sto.pslc ≠ 0 then s
  else
    let g := s.goodBlocks
    let quarter := ceilDiv (g.foldl (fun t b => t + s.blockBytes b) 0) 4
    let want := Nat.max quarter (ceilDiv (4 * s.genSize j * 11) 10)
    let s := { s with sto := { s.sto with pslc := s.blocksFor g want } }
    (s.put F.STO_PSLC_GIB (s.pslcCap / 2 ^ 30)).peView

/-- A checkpoint of step `c` starts as `c` commits: the extra ranges and tables are taken (R415 step 1).
Log entries 192 (DEDUCED), 193 (DESIGN CHOICE). -/
def State.startCkpt (s : State) (j : Job) (c : Nat) : State :=
  let s := s.sizePslc j
  let (num, den) := s.stepTime
  let own := s.fld F.STO_LAST_OWN_STEP
  let s := if own ≠ noStep ∧ own < c ∧ (c - own) * num * (s.pslcCap * s.wearPe j) < dayTicks * s.ckptBytes j * den then
      s.put F.STO_ST_WEAR_OVER 1 else s
  { s.put F.STO_ST_WRITING 1 with
    ckpt := some { step := c, ownRead := false, buddyOut := s.extentOf 2 == 1, done := false, startAt := s.now,
                   stall0 := s.fld F.STO_STALL_TICKS, head := s.genHead j, tail := s.genTail j } }

/-- A step has committed: its planned checkpoint starts or is skipped, and the root plans the next (R414, R415, R417). -/
def State.ckptCommit (s : State) (j : Job) (c : Nat) : State :=
  let s := { s with sto := { s.sto with times := ((s.now - s.sto.lastAt) :: s.sto.times).take 16, lastAt := s.now } }
  let s :=
    if s.fld F.STO_PLAN_STEP ≠ c then s
    else if s.flag F.STO_ST_WRITING ∨ !s.flag F.STO_ST_READY then s.bumpSat F.STO_CKCNT_SKIPPED
    else s.startCkpt j c
  s.planNext j c

/-- The hold of a checkpoint ends when the own write has read the data and the buddy has pulled it: the UPDs that waited
run, and the checkpoint's stall is kept for the planner. -/
def State.holdEnd (s : State) : State :=
  match s.ckpt with
  | none => s
  | some c =>
    if c.ownRead && c.buddyOut then
      let s := s.resumeUpds true
      if c.done then
        { s with ckpt := none, sto := { s.sto with stalls := ((s.fld F.STO_STALL_TICKS - c.stall0) :: s.sto.stalls).take 8 } }
      else s
    else s

/-- BUDDY_DONE (R415): the +Z neighbour has pulled this device's generation. -/
def execBuddyDone (s : State) : Out? :=
  s.served 3 <|
  match s.takePkt (isStoMsg msgBuddyDone) with
  | none => .next s
  | some (b, t) =>
    let up := withCoord 2 t.selfLog ((coord 2 t.selfLog + 1) % t.extentOf 2)
    match t.ckpt with
    | some c =>
      if pkSrc b = up ∧ fieldAt (pkPayload b) 4 4 = c.step then .next ({ t with ckpt := some { c with buddyOut := true } }).holdEnd
      else .next t
    | none => .next t

/-- A generation is written (R409, R413): the older of two of its kind gives way; an own one that gives way stays in the
native region while KEEP allows. Log entries 192 (DEDUCED), 195 (DEDUCED). -/
def State.writeGen (s : State) (j : Job) (g : Gen) : State :=
  let s := { s with sto := { s.sto with seq := s.sto.seq + 1 } }
  let g := { g with seq := s.sto.seq }
  let mine : List Gen := s.sto.gens.filter (fun (x : Gen) => x.buddy == g.buddy && !x.inNative)
  let old := if mine.length < 2 then none else mine.head?
  let s :=
    match old with
    | none => s
    | some o =>
      let keep := s.load (j.manifest + 7) 1
      let s := s.freeGen o.seq
      if o.buddy ∨ keep = 0 then s.dropGen o.seq
      else
        let s := (s.programGen s.nativeBlocks o.seq (cwBytes * chunkCount o.data.length))
        let s := { s with sto := { s.sto with gens := s.sto.gens.map (fun (x : Gen) => if x.seq = o.seq then { x with inNative := true } else x) } }
        let nat := s.sto.gens.filter (fun (x : Gen) => x.inNative)
        forEach (nat.take (nat.length - keep)) (fun x s => s.dropGen x.seq) s
  let s := { s with sto := { s.sto with gens := s.sto.gens ++ [g] } }
  (s.programGen s.pslcBlocks g.seq (cwBytes * chunkCount g.data.length)).lastView

/-- CKPT_DONE (R415): both generations are written. `neighbour` is the data that the remote READs from the −Z neighbour's
staging area and banks have returned; when DZ is 1 there is none.
Log entries 191 (DESIGN CHOICE), 194 (DESIGN CHOICE). -/
def execCkptDone (neighbour : List Byte) (s : State) : Out? :=
  s.served 3 <|
  match s.ckpt, s.job with
  | some c, some j =>
    if c.done then .next s
    else
      let down := withCoord 2 s.selfLog ((coord 2 s.selfLog + s.extentOf 2 - 1) % s.extentOf 2)
      let dig := mapDigest (c.head.take 64)
      let own := c.head ++ s.genShards c.step ++ c.tail
      let s := s.writeGen j { seq := 0, step := c.step, logId := s.selfLog, buddy := false, world := j.world, mapDig := dig,
                              digest := dataDigest own, data := own, inNative := false }
      let two := s.extentOf 2 ≠ 1
      let s := if two then
          (s.writeGen j { seq := 0, step := c.step, logId := down, buddy := true, world := j.world, mapDig := dig,
                          digest := dataDigest neighbour, data := neighbour, inNative := false }).sendControl 6 down j.world
            (stoMsg msgBuddyDone c.step)
        else s
      let bytes := own.length + (if two then neighbour.length else 0)
      let s := s.put F.STO_RATE_MBPS (Nat.min 65535 (25 * bytes / atLeast1 (s.now - c.startAt)))
      let s := (s.put F.STO_ST_WRITING 0).bumpSat F.STO_CKCNT_DONE
      let s := s.postJob 0x05 srcDevice c.step []
      .next ({ s with ckpt := some { c with ownRead := true, done := true } }).holdEnd
  | _, _ => .next s

/-- A checkpoint in progress is abandoned (R417): its generation gets no header, and its hold is released.
Log entry 194 (DESIGN CHOICE). -/
def State.abandonCkpt (s : State) : State :=
  match s.ckpt with
  | none => s
  | some c =>
    let s := { s with ckpt := none }
    let s := if c.done then s else (s.put F.STO_ST_WRITING 0).bumpSat F.STO_CKCNT_SKIPPED
    s.resumeUpds true

/-! ## Restore (R418 to R420) -/

/-- One shard's master and extension written into bank 0, its working copy formed (R155), and its entry set (R420). -/
def State.restoreOne (s : State) (c i : Nat) (bs : List Byte) : State :=
  let n := s.shElems i
  let base := s.shBank i 0
  let s := (s.setBytes base (bs.take (4 * n))).setBytes (base + extOff n) ((bs.drop (4 * n)).take (2 * n))
  let s := forN n (fun k s =>
    let (m, l) := s.longElem base n k
    s.store (base + workOff n + 2 * k) 2 (workCopy m l)) s
  let f := 4 + 8 * (s.shWorld i).bit
  (((s.setSh i 32 1 f).setSh i 24 4 c).setSh i 28 4 noStep)

/-- Consecutive ranges of memory written from a byte list. -/
def State.scatter (s : State) : List (Nat × Nat) → List Byte → State
  | [], _ => s
  | (a, n) :: rs, bs => (s.setBytes a (bs.take n)).scatter rs (bs.drop n)

/-- The shards of a generation, in table order. -/
def State.restoreShards' (s : State) (c : Nat) : List Nat → List Byte → State × List Byte
  | [], bs => (s, bs)
  | i :: is, bs => (s.restoreOne c i (bs.take (6 * s.shElems i))).restoreShards' c is (bs.drop (6 * s.shElems i))

/-- A generation's data goes back to its places (R420). -/
def State.restoreData (s : State) (j : Job) (c : Nat) (d : List Byte) : State :=
  let s := s.setBytes j.shtab ((d.drop 64).take (64 * j.nsh))
  let (s, rest) := s.restoreShards' c (List.range s.shCount) (d.drop (64 + 64 * j.nsh))
  let s := s.scatter (j.scts.map (fun t => (t, s.tableBytes t)) ++ s.manRanges j) rest
  s.put F.CMD_COMMITTED_STEP c

/-- What a restore of step `c` reads: STO_REST's code and the data. Log entry 191 (DESIGN CHOICE). -/
def State.restoreFrom (s : State) (c : Nat) (moved : Bool) (map : List Byte) (pull : Pull) : Nat × Option (List Byte) :=
  let dig := mapDigest map
  let own := newestGen (s.sto.gens.filter (fun g => !g.buddy && g.step == c && g.logId == s.selfLog))
  match if moved then none else own with
  | some g => if g.mapDig = dig then (1, some g.data) else (4, none)
  | none =>
    if s.extentOf 2 = 1 then (3, none)
    else match pull with
      | .unreachable => (5, none)
      | .absent => (3, none)
      | .data m d => if m = dig then (2, some d) else (4, none)

/-! ## Snapshots (R398 to R400) -/

/-- Where the arrays of a snapshot lie: working copy and master offset of each shard, and the region's length.
Log entry 200 (DEDUCED). -/
def State.snapLayout (s : State) (full : Bool) : List (Nat × Nat) × Nat :=
  let n := s.shCount
  (List.range n).foldl (fun (r : List (Nat × Nat) × Nat) i =>
    let w := r.2
    let e := roundUp (w + 2 * s.shElems i) 64
    if full then (r.1 ++ [(w, e)], roundUp (e + workOff (s.shElems i)) 64) else (r.1 ++ [(w, 0)], e))
    ([], roundUp (64 + 32 * n) 64)

/-- A requested snapshot starts when its step commits (R398). -/
def State.snapCommit (s : State) (c : Nat) : State :=
  match s.snap with
  | none => s
  | some x =>
    if x.step.isSome ∨ (x.want ≠ none ∧ x.want ≠ some c) then s
    else
      let s := ((s.put F.CMD_SNAP_ACTIVE 1).put F.CMD_SNAP_COPIED 0).put F.CMD_SNAP_EXPORTED 0
      let s := s.put F.CMD_SNAP_STEP_STEP c
      let h := leBytes 4 c ++ leBytes 4 s.selfLog ++ leBytes 4 s.shCount ++ leBytes 4 (if x.full then 1 else 0)
      let ents := (s.snapLayout x.full).1.zipIdx.flatMap (fun e =>
        padTo 32 (leBytes 4 (s.shId e.2) ++ leBytes 4 (s.shElems e.2) ++ leBytes 8 e.1.1 ++ leBytes 8 e.1.2))
      let s := s.setBytes x.region (padTo 64 h ++ ents)
      { s with snap := some { x with step := some c, todo := List.range s.shCount } }

/-- The copy is complete: the export waits for the host DMA arbiter, and UPDs that waited run. -/
def State.snapCopied (s : State) (x : SnapSt) : State :=
  let s := (({ s with snap := some x }).put F.CMD_SNAP_COPIED 1).resumeUpds false
  if x.fabric then s else s.arbEnter 1 exportQueue x.level

/-- SNAPSHOT_COPY (R398): the arrays of the next shard are copied from the bank of the snapshot's epoch.
Log entry 200 (DEDUCED). -/
def execSnapshotCopy (s : State) : Out? :=
  match s.snap with
  | none => .next s
  | some x =>
    match x.step with
    | none => .next s
    | some c =>
      match x.todo with
      | [] => .next (if s.flag F.CMD_SNAP_COPIED then s else s.snapCopied x)
      | i :: is =>
        let (w, m) := (s.snapLayout x.full).1.getD i (0, 0)
        let b := s.bankOf i c
        let n := s.shElems i
        let s := s.copyBytes (b + workOff n) (x.region + w) (2 * n)
        let s := if x.full then s.copyBytes b (x.region + m) (extOff n + 2 * n) else s
        let x := { x with todo := is }
        .next (if is.isEmpty then s.snapCopied x else { s with snap := some x })

/-- The core number that stands for the device's own export among transfers. Log entry 201 (DESIGN CHOICE). -/
def exportUnit : Nat := 16

/-- The export has ended: SNAP_DONE (R400), and the command completes after its last write (R428). -/
def State.snapDone (s : State) (x : SnapSt) : State :=
  let s := { (s.put F.CMD_SNAP_ACTIVE 0).put F.CMD_SNAP_EXPORTED 1 with snap := none }
  (s.postJob 0x09 srcDevice (x.step.getD 0) []).finishCmd x.sq x.cid stOk 0 0

/-- The next request of at most 1 MiB of an export to the host, in its turn. Log entry 201 (DESIGN CHOICE). -/
def State.exportHost (s : State) (x : SnapSt) (total : Nat) : State :=
  match s.arbPick 1 (fun _ => true) with
  | none => s
  | some r =>
    if r.queue ≠ exportQueue then s
    else
      let n := Nat.min miB (total - x.sent)
      let s := (s.arbServe r).emit (.hostWrite x.fn x.world (x.dest + x.sent) (s.bytes (x.region + x.sent) n))
      let x := { x with sent := x.sent + n }
      if x.sent < total then ({ s with snap := some x }).arbEnter 1 exportQueue x.level else s.snapDone x

/-- An export to another device: WRITE requests named by physical and logical identifier, done when all are answered.
Log entry 201 (DESIGN CHOICE). -/
def State.exportFabric (s : State) (x : SnapSt) (total : Nat) : State :=
  if x.sent = 0 then
    ({ s with snap := some { x with sent := total } }).startXfer
      { core := exportUnit, slot := 0, iid := 0, op := 0x24, dev := bits x.dest 30 16, world := x.world,
        todo := dataParts x.taddr (s.bytes x.region total), open_ := 0, aop := 0, imm := 0, cmp := 0, width := 0, ret := none,
        shard := 0, epoch := 0, stream := none, dstp := some (bits x.dest 14 0) }
  else if s.xfers.any (fun t => t.core == exportUnit) then s
  else s.snapDone x

/-- SNAPSHOT_EXPORT (R400): the copied region goes to its destination. Log entry 201 (DESIGN CHOICE). -/
def execSnapshotExport (s : State) : Out? :=
  match s.snap with
  | none => .next s
  | some x =>
    if x.step.isNone ∨ !s.flag F.CMD_SNAP_COPIED then .next s
    else
      let total := (s.snapLayout x.full).2
      .next (if x.fabric then s.exportFabric x total else s.exportHost x total)

end Sys2Proof.Machine
end

