-- ==== Sys2Proof/Machine/Barrier.lean ====
section
/-! DEFINITION. The end of a step over the whole job (R392 to R397, R536 to R541): the barrier tree, commit, abort, replay
and halt; and section replay with fencing (R528 to R534). -/

namespace Sys2Proof.Machine

/-! ## The tree (R393) -/

def devOf (x y z : Nat) : Nat := 1024 * x + 32 * y + z

/-- The parent of a logical device; the root is its own. Log entry 213 (DEDUCED). -/
def parentOf (d : Nat) : Nat :=
  if coord 0 d ≠ 0 then devOf 0 (coord 1 d) (coord 2 d)
  else if coord 1 d ≠ 0 then devOf 0 0 (coord 2 d)
  else 0

/-- The children of this device. Log entry 213 (DEDUCED). -/
def State.children (s : State) : List Nat := s.allDevices.filter (fun d => d != s.selfLog && parentOf d == s.selfLog)

/-- This device is the root. Log entry 213 (DEDUCED). -/
def State.isRoot (s : State) : Bool := s.selfLog == 0

/-- Devices of the hall. -/
def State.hallSize (s : State) : Nat := s.extentOf 0 * s.extentOf 1 * s.extentOf 2

/-! ## Step messages (Table 14.6) -/

structure StepMsg where
  step : Nat
  attempt : Nat
  dir : Nat := 0
  cause : Nat := 0
  count : Nat := 0
  origin : Nat := 0
  flags : Nat := 0

def StepMsg.bytes (m : StepMsg) : List Byte :=
  padTo 64 (leBytes 4 m.step ++ leBytes 1 m.attempt ++ leBytes 1 m.dir ++ leBytes 2 m.cause ++ leBytes 4 m.count
    ++ leBytes 2 m.origin ++ leBytes 2 0 ++ leBytes 4 m.flags)

def smStep (b : List Byte) : Nat := fieldAt (pkPayload b) 0 4
def smAttempt (b : List Byte) : Nat := byteAt (pkPayload b) 4
def smDir (b : List Byte) : Nat := byteAt (pkPayload b) 5 % 2
def smCause (b : List Byte) : Nat := fieldAt (pkPayload b) 6 2
def smCount (b : List Byte) : Nat := fieldAt (pkPayload b) 8 4
def smOrigin (b : List Byte) : Nat := fieldAt (pkPayload b) 12 2
def smFlags (b : List Byte) : Nat := fieldAt (pkPayload b) 16 4

def ctBarrier : Nat := 1
def ctAbort : Nat := 2
def ctCommit : Nat := 3

/-- The current step and attempt. -/
def State.step_ (s : State) : Nat := s.fld F.CMD_STEP_STEP
def State.attempt (s : State) : Nat := s.fld F.CMD_JOB_ATTEMPT

/-- A message of the current step and attempt. -/
def State.currentMsg (s : State) (b : List Byte) : Bool :=
  s.job.isSome && !s.flag F.CMD_FLT_ST_HALTED && smStep b == s.step_ && smAttempt b == s.attempt

/-- A step message of another step or attempt is dropped and counted (R394). -/
def State.stale (s : State) : State := s.bumpSat F.CMD_ABORTCNT_STALE

def State.jobWorld (s : State) : World := match s.job with | some j => j.world | none => .n

/-- A step message to one device, or to every child. -/
def State.sendStep (s : State) (ctype dst : Nat) (m : StepMsg) : State := s.sendControl ctype dst s.jobWorld m.bytes
def State.toChildren (s : State) (ctype : Nat) (m : StepMsg) : State := forEach s.children (fun d s => s.sendStep ctype d m) s

/-- The barrier timeout in ticks (Table 14.9). -/
def State.barTicks (s : State) : Nat := msTicks (atLeast1 (s.fld F.CMD_BAR_X_BAR_MS))

/-! ## Fencing (R534) -/

/-- A core is fenced. Log entry 206 (DEDUCED). -/
def State.fenceCore (s : State) (cause n : Nat) : State :=
  if s.fenced.contains n then s
  else
    let s := { (s.put F.ME_STATUS_CORE_FENCED 1 (2 * n)).put F.ME_STATUS_CORE_FENCED 1 (2 * n + 1) with
               fenced := s.fenced ++ [n], mapChanged := true }
    let left := s.coreMap.length
    let s := (s.bumpSat F.CMD_FLT_FEN_FENCES).raise 0x22 .none srcDevice n 0 [] [n, cause, left]
    match s.job with
    | some j =>
      let lc := s.load (j.map + 5) 1
      if left < lc then s.raise 0x43 .dev srcDevice n 0 [] [left, lc] else s
    | none => s

/-- Every fence that a waiting event asks for. Log entry 206 (DEDUCED). -/
def State.fenceAll (s : State) : State :=
  forEach s.faults (fun f s => forEach f.fence (fun n s => s.fenceCore f.code n) s) s

/-! ## The abort sequence (R396, R537) -/

/-- Device-class causes (Table 21.3). -/
def devCause (c : Nat) : Bool := decide (0x40 ≤ c) && decide (c ≤ 0x46)

/-- The pitched section is struck with a cut at once. -/
def State.strikeNow (s : State) : State :=
  let s := s.requestStrike true
  match s.sect with
  | some x => (match s.uncut with
    | [] => s
    | cs => if x.phase = .stopping then s.cutAll x cs else s)
  | none => s

/-- The sequence of R396, and its report. The step's waiting section- and step-class events are answered by it. -/
def State.abortSeq (s : State) (cause origin : Nat) : State :=
  let s := s.fenceAll
  let step := s.step_
  let s := s.raise 0x21 .none srcDevice 0xFF 0 [] [step, s.attempt + 1, cause, origin]
  let s := ((s.bumpSat F.CMD_ABORTCNT_ABORTS).put F.CMD_FLT_ST_LAST_CLASS 2).put F.CMD_JOB_PHASE 7
  let s := { s with faults := s.faults.filter (fun (f : FaultEv) => f.cls == FaultClass.dev), bar := { s.bar with aborted := some (cause, origin) } }
  let s := { s.strikeNow with saved := [], replays := [] }
  let s := match s.job with
    | some j => forEach j.scts (fun t (s : State) => s.tblDiscard t step) s
    | none => s
  let s := (s.abortShards step).disarmAll
  { s with sto := { s.sto with events := s.now :: s.sto.events } }

/-- STEP_ABORT takes effect at the root, or arrives from the parent (R537): the attempt rises, the children hear of it, and
the sequence runs unless it has been started already. Log entry 203 (DEDUCED). -/
def State.takeAbort (s : State) (cause origin : Nat) : State :=
  let a := s.attempt
  let s := s.toChildren ctAbort { step := s.step_, attempt := a, cause := cause, origin := origin }
  let s := if s.bar.aborted.isSome && !s.bar.renewed then s else s.abortSeq cause origin
  { s.put F.CMD_JOB_ATTEMPT (a + 1) with bar := { aborted := some (cause, origin), renewed := true } }

/-- This device answers an event of its own: the root acts on it, another device starts the sequence and tells the root
(R537, R541). Log entry 203 (DEDUCED). -/
def State.ownAbort (s : State) (code : Nat) : State :=
  if s.isRoot then s.takeAbort code s.selfLog
  else
    let m : StepMsg := { step := s.step_, attempt := s.attempt, cause := code, origin := s.selfLog }
    let s := if s.bar.aborted.isSome && !s.bar.renewed then s else s.abortSeq code s.selfLog
    let s := { s with bar := { s.bar with aborted := some (code, s.selfLog), renewed := false } }
    s.sendStep ctAbort 0 m

/-- The attempt limit (R540). -/
def State.stepLim (s : State) : Nat := atLeast1 (s.fld F.CMD_FLT_X_STEP_LIM)

/-- The device halts once its abort sequence is complete: the cause is of device class, or the attempt has reached the
limit (R540, R541). Log entry 210 (DEDUCED). -/
def State.haltDue (s : State) : Bool :=
  match s.bar.aborted with
  | some (c, o) =>
    (devCause c && (s.bar.renewed || (o == s.selfLog && decide (0x44 ≤ c)))) || (s.bar.renewed && decide (s.stepLim ≤ s.attempt))
  | none => false

/-- The job halts on this device (R541). Log entry 210 (DEDUCED). -/
def State.halt (s : State) : State :=
  match s.bar.aborted with
  | none => s
  | some (c, o) =>
    let lim := !devCause c
    let s := if lim then
        let t := s.raise 0x46 .none srcDevice 0xFF 0 [] [s.step_, s.attempt]
        if t.isRoot then t else t.sendStep ctAbort 0 { step := s.step_, attempt := s.attempt, cause := 0x46, origin := s.selfLog }
      else s
    let (c, o) := if lim then (0x46, s.selfLog) else (c, o)
    let s := ((s.put F.CMD_FLT_ST_HALTED 1).put F.CMD_FLT_ST_LAST_CLASS 3).put F.CMD_JOB_PHASE 0
    let s := { s.bumpSat F.CMD_FLT_FEN_HALTS with faults := [], saved := [], bar := { s.bar with aborted := some (c, o) } }
    s.raise 0x24 .none srcDevice 0xFF 0 [] [c, o, (s.rd .CMD_FLT_PEER).toNat]

/-- The first waiting event that a step abort answers: of device class, else of step class in the current attempt.
Log entry 214 (DEDUCED). -/
def State.abortEvent (s : State) : Option FaultEv :=
  match firstWhere (fun (f : FaultEv) => f.cls == FaultClass.dev) s.faults with
  | some f => some f
  | none =>
    if s.bar.aborted.isSome then none
    else firstWhere (fun (f : FaultEv) => f.cls == FaultClass.step && f.step == s.step_ && f.attempt == s.attempt) s.faults

/-- A STEP_ABORT message: at the root from any device, elsewhere from the parent. -/
def State.abortIn (s : State) (b : List Byte) : State :=
  if !s.currentMsg b then s.stale
  else if s.isRoot then (if s.bar.decided then s.stale else s.takeAbort (smCause b) (smOrigin b))
  else if pkSrc b = parentOf s.selfLog then s.takeAbort (smCause b) (smOrigin b)
  else s.stale

/-- STEP_ABORT (R396, R537, R540, R541): a device whose abort sequence is complete and whose job halts, halts; else an
event of this device is answered; else the next STEP_ABORT message is. -/
def execStepAbort (s : State) : Out? :=
  s.served 4 <|
  if s.job.isSome ∧ !s.flag F.CMD_FLT_ST_HALTED ∧ s.haltDue ∧ s.sect.isNone then .next s.halt
  else
    let ev := if s.job.isSome ∧ !s.flag F.CMD_FLT_ST_HALTED ∧ !(s.isRoot && s.bar.decided) ∧ !s.haltDue then s.abortEvent else none
    match ev with
    | some f => .next (({ s with faults := s.faults.erase f }).ownAbort f.code)
    | none =>
      match s.takePkt (isControl ctAbort) with
      | some (b, t) => .next (t.abortIn b)
      | none => .next s

/-! ## Ready, report, commit (R392 to R395) -/

/-- A channel has delivered this device's own segments of every bucket. -/
def ChanSt.allIn (c : ChanSt) : Bool := (List.range c.nbkt).all (fun q => (c.delivered.get q {}).whole)

/-- The conditions of R392. -/
def State.stepDone (s : State) (j : Job) : Bool :=
  j.stepCmd.isSome && s.sect.isNone && s.saved.isEmpty && decide (s.schedLen j ≤ s.entryFrom j j.entry)
    && s.chanQueues.all (fun q => match s.chan? q with
      | some c => c.arm.isNone || (c.allIn && c.ring.isEmpty && c.live.isEmpty)
      | none => true)
    && s.prms.isEmpty && s.upds.isEmpty
    && (List.range s.shCount).all (fun i => s.shE i == s.step_)
    && !s.xfers.any (fun x => decide (x.core < exportUnit)) && s.atoms.all (fun a => a.home.isNone)

/-- STEP_READY (R392): no work of the step is left on the device, and no fault waits for its answer. -/
def execStepReady (s : State) : Out? :=
  s.served 4 <|
  match s.job with
  | some j =>
    if s.stepDone j ∧ s.bar.readyAt.isNone ∧ s.bar.aborted.isNone ∧ s.faults.isEmpty ∧ !s.flag F.CMD_FLT_ST_HALTED then
      .next { s.put F.CMD_JOB_PHASE 5 with bar := { s.bar with readyAt := some s.now } }
    else .next s
  | none => .next s

/-- Every child has reported. -/
def State.allReported (s : State) : Bool := s.children.all (fun d => s.bar.reports.any (fun r => r.dev == d))

/-- COUNT and FLAGS of this device's subtree. -/
def State.subCount (s : State) : Nat := s.bar.reports.foldl (fun t r => t + r.count) 1
def State.subFlags (s : State) : Nat := s.bar.reports.foldl (fun t r => Nat.lor t r.flags) s.bar.flags

/-- A report travels to the parent. -/
def State.sendReport (s : State) : State :=
  s.sendStep ctBarrier (parentOf s.selfLog)
    { step := s.step_, attempt := s.attempt, count := s.subCount, flags := s.subFlags }

/-- A child's report is kept. -/
def State.reportIn (s : State) (b : List Byte) : State :=
  if s.currentMsg b ∧ s.children.contains (pkSrc b) then
    { s with bar := { s.bar with
      reports := s.bar.reports.filter (fun r => r.dev ≠ pkSrc b) ++ [⟨pkSrc b, smCount b, smFlags b⟩] } }
  else s.stale

/-- The commit report, or at the root the decision to commit (R393, R394). -/
def State.commitReport (s : State) : State :=
  if s.bar.readyAt.isNone ∨ s.bar.sentAt.isSome ∨ s.bar.decided ∨ !s.allReported then s
  else if s.isRoot then
    if s.subCount = s.hallSize then
      let f := s.subFlags
      { (s.postJob 0x04 srcDevice s.step_ [f]).put F.CMD_JOB_PHASE 6 with bar := { s.bar with decided := true, flags := f } }
    else s
  else { s.sendReport with bar := { s.bar with sentAt := some s.now } }

/-- The replay report, or at the root the decision to release (R538). A device that halts sends none. -/
def State.replayReport (s : State) : State :=
  if !s.bar.renewed ∨ s.sect.isSome ∨ s.haltDue then s
  else
    let s := if s.bar.replayAt.isNone then { s with saved := [], bar := { s.bar with replayAt := some s.now } } else s
    if s.bar.replaySent.isSome ∨ s.bar.decided ∨ !s.allReported then s
    else if s.isRoot then
      (if s.subCount = s.hallSize then { s with bar := { s.bar with decided := true } } else s)
    else { s.sendReport with bar := { s.bar with replaySent := some s.now } }

/-- BARRIER_REPORT (R393, R538): a child's report arrives, and this device reports or decides when it can. -/
def execBarrierReport (s : State) : Out? :=
  s.served 4 <|
  let t := match s.takePkt (fun b => isControl ctBarrier b && smDir b == 0) with
    | some (b, t) => t.reportIn b
    | none => s
  if t.job.isNone ∨ t.flag F.CMD_FLT_ST_HALTED then .next t
  else if t.bar.aborted.isSome then .next t.replayReport
  else .next t.commitReport

/-- The commit sequence of R395 for the current step, with the aggregated flags. Log entry 214 (DEDUCED). -/
def State.commitStep (s : State) (j : Job) (flags : Nat) : State :=
  let step := s.step_
  let s := s.toChildren ctCommit { step := step, attempt := s.attempt, flags := flags }
  let s := forEach j.scts (fun t (s : State) => s.tblCommit t step) (s.put F.CMD_JOB_PHASE 6)
  let s := (s.commitShards step).2
  let s := (s.put F.CMD_COMMITTED_STEP step).bumpSat F.CMD_STEPCNT_COMMITS
  let s := (s.snapCommit step).ckptCommit j step
  let next := (step + 1) % 2 ^ 32
  let s := ((s.put F.CMD_STEP_STEP next).put F.CMD_JOB_ATTEMPT 0).put F.CMD_JOB_PHASE 0
  let s := s.armAll next
  let s := { s with
    bar := {}, saved := [], replays := [], wcSnap := [], mapChanged := false,
    faults := s.faults.filter (fun (f : FaultEv) => f.cls == FaultClass.dev),
    job := some { j with stepCmd := none, entry := 0 } }
  match j.stepCmd with
  | some c => s.finishCmd c.sq c.cid stOk flags step
  | none => s

/-- STEP_COMMIT (R395): the root that has decided, or a device that has reported and hears from its parent, commits.
Log entry 203 (DEDUCED). -/
def execStepCommit (s : State) : Out? :=
  s.served 4 <|
  match s.job with
  | some j =>
    if s.isRoot ∧ s.bar.decided ∧ s.bar.aborted.isNone ∧ s.bar.readyAt.isSome then .next (s.commitStep j s.bar.flags)
    else match s.takePkt (isControl ctCommit) with
      | some (b, t) =>
        if t.currentMsg b ∧ pkSrc b = parentOf t.selfLog ∧ t.bar.aborted.isNone ∧ t.bar.sentAt.isSome then
          .next (t.commitStep j (smFlags b))
        else .next t.stale
      | none => .next s
  | none =>
    match s.takePkt (isControl ctCommit) with
    | some (_, t) => .next t.stale
    | none => .next s

/-- The release of a replay on this device (R538). -/
def State.release (s : State) (j : Job) : State :=
  let s := s.toChildren ctBarrier { step := s.step_, attempt := s.attempt, dir := 1 }
  let s := s.armAll s.step_
  let s := s.put F.CMD_JOB_PHASE (if j.stepCmd.isSome then 1 else 0)
  { s with bar := {}, saved := [], replays := [], wcSnap := [], mapChanged := false, job := some { j with entry := 0 } }

/-- BARRIER_RELEASE (R538): the root that has decided, or a device that has reported and hears from its parent, runs the
step again. -/
def execBarrierRelease (s : State) : Out? :=
  s.served 4 <|
  match s.job with
  | some j =>
    if s.isRoot ∧ s.bar.decided ∧ s.bar.aborted.isSome then .next (s.release j)
    else match s.takePkt (fun b => isControl ctBarrier b && smDir b == 1) with
      | some (b, t) =>
        if t.currentMsg b ∧ pkSrc b = parentOf t.selfLog ∧ t.bar.replaySent.isSome then .next (t.release j) else .next t.stale
      | none => .next s
  | none =>
    match s.takePkt (fun b => isControl ctBarrier b && smDir b == 1) with
    | some (_, t) => .next t.stale
    | none => .next s

/-! ## Timeouts (R393, R397, R539) -/

/-- So many ticks have passed since a time that has been noted. -/
def State.past (s : State) (t : Option Nat) (ticks : Nat) : Bool :=
  match t with
  | some t => decide (t + ticks ≤ s.now)
  | none => false

/-- BARRIER_TIMEOUT (R393): the root has been ready for BAR_MS without the full count. -/
def execBarrierTimeout (s : State) : Out? :=
  s.served 4 <|
  if s.job.isSome ∧ s.isRoot ∧ !s.bar.decided ∧ s.bar.aborted.isNone ∧ s.past s.bar.readyAt s.barTicks then
    .next ((s.raise 0x3B .none srcDevice 0xFF 0 [] [s.step_]).takeAbort 0x3B s.selfLog)
  else .next s

/-- The lowest child that has not reported. -/
def State.missingChild (s : State) : Option Nat := firstWhere (fun d => !s.bar.reports.any (fun r => r.dev == d)) s.children

/-- REPLAY_TIMEOUT (R539): BAR_MS has passed since this device was ready to replay. A parent that waits for a child records
it; the root aborts with the cause REPLAY_TIMEOUT. -/
def execReplayTimeout (s : State) : Out? :=
  s.served 4 <|
  if s.job.isSome ∧ !s.flag F.CMD_FLT_ST_HALTED ∧ !s.bar.decided ∧ s.past s.bar.replayAt s.barTicks then
    match s.missingChild with
    | none => .next s
    | some d =>
      let t := (s.put F.CMD_FLT_PEER_PEER d).put F.CMD_FLT_PEER_VALID 1
      if t.isRoot then
        .next ((t.raise 0x44 .none srcDevice 0xFF 0 [] [(t.rd .CMD_FLT_PEER).toNat]).takeAbort 0x44 t.selfLog)
      else .next t
  else .next s

/-- When this device reported last, while no step message has come since: each one that takes effect clears it. -/
def BarrierSt.reportedAt (b : BarrierSt) : Option Nat := if b.replaySent.isSome then b.replaySent else b.sentAt

/-- STEP_STALL (R397, R539): no step message has come within 2·BAR_MS of this device's report. -/
def execStepStall (s : State) : Out? :=
  s.served 4 <|
  if s.job.isSome ∧ !s.flag F.CMD_FLT_ST_HALTED ∧ !s.haltDue ∧ s.past s.bar.reportedAt (2 * s.barTicks) then
    .next ((s.raise 0x45 .none srcDevice 0xFF 0 [] [s.step_, s.attempt]).ownAbort 0x45)
  else .next s

/-! ## Section replay (R308, R532, R533) -/

/-- Replays of a section in this attempt. -/
def State.replaysOf (s : State) (id : Nat) : Nat :=
  match firstWhere (fun (r : Nat × Nat) => r.1 == id) s.replays with
  | some r => r.2
  | none => 0

/-- An event becomes step class (R532). Log entry 209 (DEDUCED). -/
def State.escalate (s : State) (f : FaultEv) : State :=
  { s with faults := s.faults.map (fun (g : FaultEv) => if g = f then { f with cls := .step } else g) }

/-- The events of a section-class response are answered. -/
def State.dropSect (s : State) : State := { s with faults := s.faults.filter (fun (f : FaultEv) => f.cls != FaultClass.sect) }

/-- min(TAKEN, LIMIT) − DONE of a pair, and whether its run is complete (R307, R308). Log entry 207 (DEDUCED). -/
def State.pairLost (s : State) (a : Nat) : Nat := Nat.min (s.load a 8) (s.load (a + 16) 8) - s.load (a + 8) 8
/-- Log entry 208 (DEDUCED). -/
def State.pairDone (s : State) (a : Nat) : Bool := s.load (a + 8) 8 == s.load (a + 16) 8

/-- The struck section goes on: SECTION_REPLAY is posted (R532 step 5). -/
def State.replayPost (s : State) (f : FaultEv) (round : Nat) : State :=
  let n := s.replaysOf f.sect + 1
  let s := { s.dropSect with replays := (f.sect, n) :: s.replays.filter (fun r => r.1 != f.sect) }
  ((s.bumpSat F.CMD_FLT_SR_COUNT).put F.CMD_FLT_ST_LAST_CLASS 1).raise 0x20 .none srcDevice 0xFF f.sect [] [f.sect, f.code, round, n]

/-- The section has been struck: it resumes at its saved round, or starts again on a changed core map (R308, R532).
Log entries 207 (DEDUCED), 208 (DEDUCED). -/
def State.replayStruck (s : State) (j : Job) (v : Saved) (f : FaultEv) : State :=
  let gone := { s with saved := s.saved.filter (fun w => w.id ≠ v.id) }
  let pairs := s.wcSnap.map (·.1)
  if s.mapChanged then
    if !pairs.isEmpty && pairs.all s.pairDone then
      { gone.dropSect with mapChanged := false, job := some { j with entry := j.entry + 1 } }
    else if v.stns.any (fun x => x.2.unsafeRun) then s.escalate f
    else
      let lost := sumOf (pairs.map s.pairLost)
      let t := if pairs.isEmpty then gone else gone.put F.CMD_WCLOST_TILES (Nat.min lost 4294967295)
      let t := forEach s.wcSnap (fun p t => t.setBytes p.1 p.2) t
      ({ t with mapChanged := false }).replayPost f 0
  else
    match v.stns with
    | (_, x) :: _ => s.replayPost f (x.fired / atLeast1 x.q)
    | [] => s.replayPost f 0

/-- SECTION_REPLAY (R532 to R534): the next section-class event is answered: its cores are fenced; then the section is struck
with a cut, and once it is struck it is pitched again under PITCH; or the event rises to step class.
Log entry 209 (DEDUCED). -/
def execSectionReplay (s : State) : Out? :=
  s.served 4 <|
  match s.job, firstWhere (fun (f : FaultEv) => f.cls == FaultClass.sect) s.faults with
  | some j, some f =>
    let s := s.fenceAll
    let s := { s with faults := s.faults.map (fun (g : FaultEv) => if g.cls = FaultClass.sect then { g with fence := [] } else g) }
    let f := { f with fence := [] }
    if f.sect = noSect then .next { s with faults := s.faults.erase f }
    else if s.bar.aborted.isSome ∨ s.faults.any (fun (g : FaultEv) => g.cls == FaultClass.step || g.cls == FaultClass.dev) then .next s.dropSect
    else if s.fld F.CMD_FLT_X_SEC_LIM ≤ s.replaysOf f.sect ∧ (s.sect.isSome ∨ s.saved.any (fun v => v.id == f.sect)) then
      .next (s.dropSect.raise 0x37 .step srcDevice 0xFF f.sect [] [f.sect, f.code])
    else match s.sect with
      | some x =>
        if x.id ≠ f.sect then .next (s.escalate f)
        else if s.streams.any (fun y => y.kind == 3 || y.kind == 4) then .next (s.escalate f)
        else .next s.strikeNow
      | none =>
        match firstWhere (fun (v : Saved) => v.id == f.sect) s.saved with
        | some v =>
          .next (if v.streams.any (fun y => y.kind == 3 || y.kind == 4) then s.escalate f else s.replayStruck j v f)
        | none => .next (s.escalate f)
  | _, _ => .next s

end Sys2Proof.Machine
end

