-- ==== Sys2Proof/Machine/BasicControls.lean ====
section
/-! DEFINITION. The writes of the basic controls: each loads its function's expert registers from the selected
setting's table and clears EXPERT_HELD (R10). -/

namespace Sys2Proof.Machine

/-- A basic-control write of any world. -/
def State.basicWrite (s : State) (src : Src) (c : Ctl) (i : Nat) (v : Word) : State :=
  s.reach src c.basic.reg i (fun t => t.writeBasic c i v)

/-- A write of a basic control would change nothing: the basic field, the expert fields and EXPERT_HELD stand as the write
leaves them. -/
def State.holdsSetting (s : State) (c : Ctl) (v : Word) : Bool :=
  let b := bits v.toNat c.basic.hi c.basic.lo
  s.fld c.basic == b && !s.flag c.held && (c.loads 0 (c.acts b)).all (fun l => s.fld l.1 l.2.1 == l.2.2)

/-- A basic-control write whose field has access S; the held bit in the same register clears with it. From the N world it
changes nothing, and it is a world violation when it writes 1 to the held bit or would change something (R580). -/
def State.basicWriteS (s : State) (src : Src) (c : Ctl) (v : Word) : State :=
  s.reach src c.basic.reg 0 (fun t =>
    match srcWorld src with
    | .s => t.writeBasic c 0 v
    | .n =>
      if ¬ bit v.toNat c.held.lo ∧ t.holdsSetting c v = true then t
      else t.worldViol 1 (srcCode src) (c.basic.reg.addr 0 0))

/-- ME_FILL (R75). -/
def execMeFill (src : Src) (e : Fin 32) (v : Word) (s : State) : Out? := .next (s.basicWrite src .fill e.val v)
/-- ME_CHK (R75). -/
def execMeChk (src : Src) (e : Fin 32) (v : Word) (s : State) : Out? := .next (s.basicWrite src .chk e.val v)
/-- DR_TALLY (R138). -/
def execDrTally (src : Src) (e : Fin 32) (v : Word) (s : State) : Out? := .next (s.basicWrite src .tally e.val v)
/-- CO_NUM (R160). -/
def execCoNum (src : Src) (n : Fin 16) (v : Word) (s : State) : Out? := .next (s.basicWrite src .num n.val v)
/-- CMD_NUMW (R163). -/
def execCmdNumw (src : Src) (v : Word) (s : State) : Out? := .next (s.basicWrite src .watch 0 v)
/-- CO_CNT (R201). -/
def execCoCnt (src : Src) (n : Fin 16) (v : Word) (s : State) : Out? := .next (s.basicWrite src .cnt n.val v)
/-- CMD_STRIKE (R202). -/
def execCmdStrike (src : Src) (v : Word) (s : State) : Out? := .next (s.basicWrite src .strike 0 v)
/-- CMD_SVC (R202). -/
def execCmdSvc (src : Src) (v : Word) (s : State) : Out? := .next (s.basicWrite src .svc 0 v)
/-- MD_SC (R309). -/
def execMdSc (src : Src) (m : Fin 4) (v : Word) (s : State) : Out? := .next (s.basicWrite src .sc m.val v)
/-- CL_POOL (R309). -/
def execClPool (src : Src) (k : Fin 8) (v : Word) (s : State) : Out? := .next (s.basicWrite src .clp k.val v)
/-- MD_PF (R309). -/
def execMdPf (src : Src) (m : Fin 4) (v : Word) (s : State) : Out? := .next (s.basicWrite src .pf m.val v)
/-- HBM_SCRUB (R310). -/
def execHbmScrub (src : Src) (h : Fin 8) (v : Word) (s : State) : Out? := .next (s.basicWrite src .hscrub h.val v)
/-- CL_NET (R329). -/
def execClNet (src : Src) (k : Fin 8) (v : Word) (s : State) : Out? := .next (s.basicWrite src .net k.val v)
/-- MD_MERGE (R329). -/
def execMdMerge (src : Src) (m : Fin 4) (v : Word) (s : State) : Out? := .next (s.basicWrite src .merge m.val v)
/-- IKF_ARB (R353). -/
def execIkfArb (src : Src) (v : Word) (s : State) : Out? := .next (s.basicWrite src .arb 0 v)
/-- IKF_RTO (R353). -/
def execIkfRto (src : Src) (v : Word) (s : State) : Out? := .next (s.basicWrite src .rto 0 v)
/-- IKF_DEG (R353). -/
def execIkfDeg (src : Src) (v : Word) (s : State) : Out? := .next (s.basicWrite src .deg 0 v)
/-- IKF_RED (R377). -/
def execIkfRed (src : Src) (v : Word) (s : State) : Out? := .next (s.basicWrite src .red 0 v)
/-- CMD_BAR (R402). -/
def execCmdBar (src : Src) (v : Word) (s : State) : Out? := .next (s.basicWrite src .bar 0 v)
/-- STO_CKPT (R421). Log entry 24 (DEDUCED). -/
def execStoCkpt (src : Src) (v : Word) (s : State) : Out? := .next (s.basicWrite src .ckpt 0 v)
/-- STO_SCRUB (R421). -/
def execStoScrub (src : Src) (v : Word) (s : State) : Out? := .next (s.basicWrite src .sscrub 0 v)
/-- NAND_IF (R422). -/
def execNandIf (src : Src) (v : Word) (s : State) : Out? := .next (s.basicWrite src .nand 0 v)
/-- HIF_AGE (R445). -/
def execHifAge (src : Src) (v : Word) (s : State) : Out? := .next (s.basicWrite src .age 0 v)
/-- SEC_WV: access S (R464). -/
def execSecWv (src : Src) (v : Word) (s : State) : Out? := .next (s.basicWriteS src .wv v)
/-- BC_FW_WD: access S (R487). -/
def execBcFwWd (src : Src) (v : Word) (s : State) : Out? := .next (s.basicWriteS src .wd v)
/-- LNT_LVL (R489). -/
def execLntLvl (src : Src) (p : Proc) (v : Word) (s : State) : Out? := .next (s.basicWrite src .lnt (procNum p) v)
/-- BC_PWR: the factory V/F points come back with it (R504). Log entry 84 (DEDUCED). -/
def execBcPwr (src : Src) (v : Word) (s : State) : Out? := .next (s.basicWrite src .pwr 0 v)
/-- BC_SLEEP (R506). -/
def execBcSleep (src : Src) (v : Word) (s : State) : Out? := .next (s.basicWrite src .sleep 0 v)
/-- BC_BOOT: access S (R527). -/
def execBcBoot (src : Src) (v : Word) (s : State) : Out? := .next (s.basicWriteS src .boot v)
/-- CMD_FLT (R543). -/
def execCmdFlt (src : Src) (v : Word) (s : State) : Out? := .next (s.basicWrite src .flt 0 v)

/-! ## Counter clears -/

/-- The counters of one torus port (R354). -/
def portCounters : List Fld :=
  [F.IKF_PRETRY_COUNT, F.IKF_PFEC_COR_COUNT, F.IKF_PFEC_UNC_COUNT, F.IKF_PDEG_DEGRADES, F.IKF_PDEG_RETRAINS]

/-- The counters that a write of 1 to bit 0 of a clearing register returns to 0. Log entry 25 (DEDUCED). -/
def clearedBy : RegId → List Fld
  | .DR_CNT_CLR => [F.DR_CYC_BUSY_COUNT, F.DR_CYC_SIDEWAIT_COUNT, F.DR_CYC_RELWAIT_COUNT]
  | .VE_CNT_CLR => [F.VE_CYC_BUSY_COUNT, F.VE_CYC_QTR_COUNT, F.VE_CYC_FP64_COUNT]
  | .CO_NUM_CLR => [F.CO_CYC_SCWAIT_COUNT, F.CO_RESCALE_CNT_RESCALED, F.CO_RESCALE_CNT_LIMITED]
  | .MD_CNT_CLR =>
    [F.MD_PF_ST_PF_SHORT, F.MD_PF_ST_PF_LATE, F.MD_EVICT_COUNT, F.MD_SPILL_COUNT, F.MD_ECC_CE_COUNT,
     F.MD_ECC_UE_COUNT]
  | .HBM_CNT_CLR =>
    [F.HBM_BURST_RD_COUNT, F.HBM_BURST_WR_COUNT, F.HBM_BURST_RM_COUNT, F.HBM_IDLE_COUNT, F.HBM_UNLENT_COUNT,
     F.HBM_ECC_CE_COUNT, F.HBM_ECC_UE_COUNT]
  | .CL_NET_CLR => [F.CL_NET_RETRY_COUNT, F.CL_NET_FDROP_COUNT, F.CL_NET_BAD_COUNT]
  | .IKF_PCLR => portCounters
  | .IKF_RED_CLR =>
    [F.IKF_RED_LATE_COUNT, F.IKF_RED_DROP_COUNT, F.IKF_RED_SKIP_COUNT, F.IKF_RED_ESC_COUNT, F.IKF_RED_NF_COUNT,
     F.IKF_RED_PART_COUNT, F.IKF_RED_LOG_QUEUE, F.IKF_RED_LOG_STEP_LO, F.IKF_RED_LOGQ_BUCKET, F.IKF_RED_LOGP_PRESENT]
  | .STO_CLR => [F.STO_CKCNT_DONE, F.STO_CKCNT_SKIPPED, F.STO_STALL_TICKS, F.STO_BAD_GROWN]
  | .SEC_WV_CLR => [F.SEC_WV_CNT_COUNT]
  | .BC_LK_CLR => [F.BC_LK_CNT_THERM, F.BC_LK_CNT_OC, F.BC_LK_CNT_PCAP, F.BC_LK_CNT_BRAKE]
  | .CMD_FLT_CLR => [F.CMD_FLT_SR_COUNT, F.CMD_FLT_FEN_FENCES, F.CMD_FLT_FEN_HALTS]
  | .CL_ECC_CLR => [F.CL_ECC_CE_COUNT, F.CL_ECC_UE_COUNT]
  | _ => []

/-- A write of 1 to a clearing field of register `r`: the fields listed become 0. -/
def State.clearWrite (s : State) (src : Src) (r : RegId) (i : Nat) (fs : List Fld) : State :=
  s.reach src r i (fun t => t.clearFields i 0 fs)

/-- ME_CNT_CLR.CLR_CYC (R75). -/
def execClrCyc (src : Src) (e : Fin 32) (s : State) : Out? :=
  .next (s.clearWrite src .ME_CNT_CLR e.val [F.ME_CYC_BEAT_COUNT, F.ME_CYC_FLYWAIT_COUNT, F.ME_CYC_FILL_COUNT])
/-- ME_CNT_CLR.CLR_CHK (R75). -/
def execClrChk (src : Src) (e : Fin 32) (s : State) : Out? :=
  .next (s.clearWrite src .ME_CNT_CLR e.val [F.ME_CHK_CNT_RECOV, F.ME_CHK_CNT_ESC, F.ME_CHK_CNT_SKIP])
/-- DR_CNT_CLR (R138). -/
def execDrCntClr (src : Src) (e : Fin 32) (s : State) : Out? :=
  .next (s.clearWrite src .DR_CNT_CLR e.val (clearedBy .DR_CNT_CLR))
/-- VE_CNT_CLR (R139). -/
def execVeCntClr (src : Src) (n : Fin 16) (s : State) : Out? :=
  .next (s.clearWrite src .VE_CNT_CLR n.val (clearedBy .VE_CNT_CLR))
/-- CO_NUM_CLR (R162). -/
def execCoNumClr (src : Src) (n : Fin 16) (s : State) : Out? :=
  .next (s.clearWrite src .CO_NUM_CLR n.val (clearedBy .CO_NUM_CLR))

/-- Every station, queue and fetch counter of a core, and CO_DISCARD, made 0 (R199, R201, R311). -/
def State.clearCoCounters (s : State) (n : Nat) : State :=
  let s := s.put F.CO_DISCARD_COUNT 0 n
  let s := forN 6 (fun j s => s.clearFields n j [F.CO_STN_BUSY_COUNT, F.CO_STN_BLOCKED_COUNT, F.CO_STN_STARVED_COUNT,
    F.CO_STN_ASLEEP_COUNT, F.CO_STN_FIRINGS_COUNT]) s
  forN 32 (fun j s => s.clearFields n j [F.CO_Q_FULL_COUNT, F.CO_Q_EMPTY_COUNT, F.CO_Q_PEAK_PEAK,
    F.CO_FQ_FETCHED_COUNT, F.CO_FQ_WASTE_COUNT, F.CO_FQ_MEMWAIT_COUNT]) s

/-- CO_CNT_CLR (R201). -/
def execCoCntClr (src : Src) (n : Fin 16) (s : State) : Out? :=
  .next (s.reach src .CO_CNT_CLR n.val (fun t => t.clearCoCounters n.val))
/-- MD_CNT_CLR (R309). Log entry 25 (DEDUCED). -/
def execMdCntClr (src : Src) (m : Fin 4) (s : State) : Out? :=
  .next (s.clearWrite src .MD_CNT_CLR m.val (clearedBy .MD_CNT_CLR))
/-- HBM_CNT_CLR (R310). -/
def execHbmCntClr (src : Src) (h : Fin 8) (s : State) : Out? :=
  .next (s.clearWrite src .HBM_CNT_CLR h.val (clearedBy .HBM_CNT_CLR))
/-- CL_NET_CLR (R329). -/
def execClNetClr (src : Src) (k : Fin 8) (s : State) : Out? :=
  .next (s.clearWrite src .CL_NET_CLR k.val (clearedBy .CL_NET_CLR))

/-- IKF_CLR (R353): the device counters and every port's. -/
def execIkfClr (src : Src) (s : State) : Out? :=
  .next (s.reach src .IKF_CLR 0 (fun t =>
    forN 6 (fun p u => u.clearFields p 0 portCounters)
      (t.clearFields 0 0 [F.IKF_UNREACH_COUNT, F.IKF_AUTH_FAIL_COUNT, F.IKF_DROP_COUNT, F.IKF_TDROP_COUNT])))
/-- IKF_PCLR (R354). -/
def execIkfPclr (src : Src) (p : Fin 6) (s : State) : Out? := .next (s.clearWrite src .IKF_PCLR p.val (clearedBy .IKF_PCLR))
/-- IKF_RED_CLR (R377): the counters from IKF_RED_LATE to IKF_RED_LOGP. -/
def execIkfRedClr (src : Src) (s : State) : Out? :=
  .next (s.clearWrite src .IKF_RED_CLR 0 (clearedBy .IKF_RED_CLR))
/-- STO_CLR (R421). -/
def execStoClr (src : Src) (s : State) : Out? :=
  .next (s.clearWrite src .STO_CLR 0 (clearedBy .STO_CLR))
/-- NAND_CLR (R422): every channel's counters. -/
def execNandClr (src : Src) (s : State) : Out? :=
  .next (s.reach src .NAND_CLR 0 (fun t =>
    forN 16 (fun c u => u.clearFields c 0 [F.NAND_CW_COR_COUNT, F.NAND_RETRY_COUNT, F.NAND_SOFT_COUNT,
      F.NAND_UNC_COUNT, F.NAND_PEFAIL_PROG, F.NAND_PEFAIL_ERASE]) t))
/-- SEC_WV_CLR (R464). -/
def execSecWvClr (src : Src) (s : State) : Out? := .next (s.clearWrite src .SEC_WV_CLR 0 (clearedBy .SEC_WV_CLR))
/-- BC_LK_CLR (R509). -/
def execBcLkClr (src : Src) (s : State) : Out? :=
  .next (s.clearWrite src .BC_LK_CLR 0 (clearedBy .BC_LK_CLR))
/-- CMD_FLT_CLR (R543). -/
def execCmdFltClr (src : Src) (s : State) : Out? :=
  .next (s.clearWrite src .CMD_FLT_CLR 0 (clearedBy .CMD_FLT_CLR))
/-- CL_ECC_CLR (R544). -/
def execClEccClr (src : Src) (k : Fin 8) (s : State) : Out? :=
  .next (s.clearWrite src .CL_ECC_CLR k.val (clearedBy .CL_ECC_CLR))

/-! ## Reads that have an effect -/

/-- BC_LCNT_LO read: bits [31:0] of the local counter are returned and bits [63:32] latched for the reader's world
(R508). -/
def execBcLcntLo (src : Src) (s : State) : Out? :=
  .next (s.reach src .BC_LCNT_LO 0 (fun t =>
    let hi : Word := BitVec.ofNat 32 (t.now / 4294967296)
    let t := t.emit (.readData (leBytes 4 t.now))
    match srcWorld src with
    | .n => { t with lcntHiN := hi }
    | .s => { t with lcntHiS := hi }))

/-- BC_ENERGY_LO read: the same for the energy counter (R508). -/
def execBcEnergyLo (src : Src) (s : State) : Out? :=
  .next (s.reach src .BC_ENERGY_LO 0 (fun t =>
    let hi : Word := BitVec.ofNat 32 (t.energy.toNat / 4294967296)
    let t := t.emit (.readData (leBytes 4 t.energy.toNat))
    match srcWorld src with
    | .n => { t with energyHiN := hi }
    | .s => { t with energyHiS := hi }))

/-- BC_RAILd read: the word is returned and PEAK clears (R509). -/
def execBcRailPeakRead (src : Src) (d : Fin 4) (s : State) : Out? :=
  .next (s.reach src .BC_RAIL 0 (fun t =>
    (t.emit (.readData (leBytes 4 (t.rd .BC_RAIL d.val).toNat))).put F.BC_RAIL_PEAK 0 d.val))

end Sys2Proof.Machine
end

