-- ==== Sys2Proof/Machine/Keys.lean ====
section
/-! DEFINITION. What SEC derives, draws and measures: KDF and the keys of Table 17.2, job-key slots (R351), and the
measurement blocks that follow the configuration (Table 17.4). -/

namespace Sys2Proof.Machine

/-- The bytes of an ASCII label. -/
def ascii (l : String) : List Byte := l.toList.map (fun c => BitVec.ofNat 8 c.toNat)

/-- The SM3-based key derivation function of the SM2 standard: `n` bytes. -/
def kdf (z : List Byte) (n : Nat) : List Byte :=
  ((List.range (ceilDiv n 32)).flatMap (fun i => sm3 (z ++ beBytes 4 (i + 1)))).take n

/-- A private key from 320 derived bits: 1 to n − 1 (R452). -/
def sm2Private (z : List Byte) : Nat := beNat (kdf z 40) % (sm2N - 1) + 1

/-- The identity key, and the alias key for `m`, the digest of measurement blocks 1 to 6 (Table 17.2).
Log entry 62 (DEDUCED). -/
def idKey (seed : List Byte) : Nat := sm2Private (seed ++ ascii "ASV-S9B ID")
/-- Log entry 62 (DEDUCED). -/
def aliasKey (seed m : List Byte) : Nat := sm2Private (seed ++ m ++ ascii "ASV-S9B ALIAS")

/-- The flash keys: two SM4 keys for XTS. -/
def flashKeyN (seed : List Byte) : List Byte := kdf (seed ++ ascii "ASV-S9B FLASH N") 32
/-- Log entry 62 (DEDUCED). -/
def flashKeyS (seed jobSeal : List Byte) : List Byte := kdf (seed ++ jobSeal ++ ascii "ASV-S9B FLASH S") 32

/-- SEC's random source gives `n` bytes: a free value. Log entry 10 (DESIGN CHOICE). -/
def State.draw (s : State) (n : Nat) : List Byte × State :=
  (padTo n (Config.randomBytes s.freeIx), { s with freeIx := s.freeIx + 1 })

/-! ## Job keys (R351) -/

/-- The number of job-key slots in use. -/
def State.slotsView (s : State) : State :=
  s.put F.SEC_ST_KSLOTS (s.sec.jobKeys.filter (fun k => !k.isEmpty)).length

/-- A job key goes into the free slot, whose counters start at 0. -/
def State.loadJobKey (s : State) (key : List Byte) : State :=
  let slot := if (s.sec.jobKeys.getD 0 []).isEmpty then 0 else 1
  let ks := [s.sec.jobKeys.getD 0 [], s.sec.jobKeys.getD 1 []]
  let fresh (t : Tab Nat) : Tab Nat := t.clear (fun k => k / 4 % 2 == slot)
  ({ s with sec := { s.sec with jobKeys := setAt ks slot key, jobSlot := slot,
                                txCtr := fresh s.sec.txCtr, rxCtr := fresh s.sec.rxCtr } }).slotsView

/-- The slot of the job's key is cleared. -/
def State.clearJobKey (s : State) : State :=
  ({ s with sec := { s.sec with jobKeys := setAt s.sec.jobKeys s.sec.jobSlot [] } }).slotsView

/-! ## Measurement blocks -/

/-- A digest put into SEC_MEASb. Log entry 61 (DEDUCED). -/
def State.setMeas (s : State) (b : Nat) (dig : List Byte) : State :=
  forN 8 (fun w s => s.put F.SEC_MEAS_DIGEST (fieldAt dig (4 * w) 4) (b - 1) w) s

/-- What SEC_MEASb holds. -/
def State.meas (s : State) (b : Nat) : List Byte :=
  (List.range 8).flatMap (fun w => leBytes 4 (s.fld F.SEC_MEAS_DIGEST (b - 1) w))

/-- Block 7: the repair map in force, every ME_REP_ entry and UNAVAIL bit in engine order.
Log entry 60 (DESIGN CHOICE). -/
def State.measure7 (s : State) : State :=
  s.setMeas 7 (Config.measure 7 ((List.range 32).flatMap (fun e =>
    (List.range 8).flatMap (fun w => leBytes 4 (s.rd .ME_REP_ROW e w).toNat)
      ++ (List.range 8).flatMap (fun w => leBytes 4 (s.rd .ME_REP_COL e w).toNat)
      ++ leBytes 1 (s.fld F.ME_STATUS_UNAVAIL e))))

/-- The world configuration: the world registers, the region descriptors, the functions that are TDIs in RUN, and
SEC_DBG. -/
def State.config8 (s : State) : List Byte :=
  leBytes 4 (s.rd .SEC_WORLD_CORE).toNat ++ leBytes 4 (s.rd .SEC_WORLD_CL).toNat
    ++ (List.range 64).flatMap (fun i => leBytes 4 (s.rd .SEC_REG_LO i).toNat ++ leBytes 4 (s.rd .SEC_REG_HI i).toNat)
    ++ (List.range 64).flatMap (fun f => leBytes 1 (s.fld F.HIF_FN_ST_TDI_RUN f))
    ++ leBytes 4 (s.rd .SEC_DBG).toNat

/-- Block 8: the world configuration. Log entry 60 (DESIGN CHOICE). -/
def State.measure8 (s : State) : State := s.setMeas 8 (Config.measure 8 s.config8)

/-- Block 9: the bound job map, or 32 zero bytes. -/
def State.measure9 (s : State) : State :=
  s.setMeas 9 (match s.job with
    | some j => sm3 (s.bytes j.map 64)
    | none => List.replicate 32 0)

end Sys2Proof.Machine
end

