-- ==== Sys2Proof/Machine/Worlds.lean ====
section
/-! DEFINITION. The world registers, the region descriptors and the debug mode, as SEC writes them (R446 to R449,
R463). -/

namespace Sys2Proof.Machine

/-! ## The views that follow the worlds -/

/-- Any core, cluster store or region is in the S world. -/
def State.anyS (s : State) : Bool :=
  s.rd .SEC_WORLD_CORE != 0 || s.rd .SEC_WORLD_CL != 0
    || (List.range 64).any (fun i => s.flag F.SEC_REG_LO_VALID i && s.flag F.SEC_REG_LO_WORLD i)

/-- SEC_ST.S_ACTIVE follows the worlds (R464). -/
def State.worldView (s : State) : State := s.put F.SEC_ST_S_ACTIVE (if s.anyS then 1 else 0)

/-- A change of the world configuration is measured again in block 8 (Table 17.4). -/
def State.measured (s old : State) : State := if s.config8 = old.config8 then s else s.measure8

/-- Only SEC writes these registers: an N-world write is a violation where SEC's would change something, and another
processor's request is refused. Log entry 27 (DEDUCED). -/
def State.secOnly (s : State) (src : Src) (r : RegId) (i : Nat) (f : State → State) : State :=
  s.reach src r i (fun t =>
    match src with
    | .fw .sec _ => (f t).measured t
    | .fw _ _ => t
    | .fn _ => t.secure src (r.addr i 0) f)

/-! ## Cores and cluster stores (R448) -/

/-- A core is bound to a section (CO_SECT.STATE 1 to 3). -/
def State.coreBound (s : State) (n : Nat) : Bool := s.fld F.CO_SECT_STATE n != 0 && s.fld F.CO_SECT_STATE n != 4

/-- The counters of a core, its engines, drains and vector engine made 0. -/
def State.clearCore (s : State) (n : Nat) : State :=
  let s := s.clearCoCounters n
  let s := s.clearFields n 0 [F.CO_CYC_SCWAIT_COUNT, F.CO_RESCALE_CNT_RESCALED, F.CO_RESCALE_CNT_LIMITED,
    F.VE_CYC_BUSY_COUNT, F.VE_CYC_QTR_COUNT, F.VE_CYC_FP64_COUNT]
  forN 2 (fun h s => s.clearFields (2 * n + h) 0 [F.ME_CYC_BEAT_COUNT, F.ME_CYC_FLYWAIT_COUNT, F.ME_CYC_FILL_COUNT,
    F.ME_CHK_CNT_RECOV, F.ME_CHK_CNT_ESC, F.ME_CHK_CNT_SKIP, F.DR_CYC_BUSY_COUNT, F.DR_CYC_SIDEWAIT_COUNT,
    F.DR_CYC_RELWAIT_COUNT]) s

/-- The stores, station registers, PSBs, drain buffers, tables and tallies of a core made zero (R448, R495). -/
def State.wipeCore (s : State) (n : Nat) : State :=
  let s := s.zero (0x2000000 * n) (0x2000000 * (n + 1))
  ((s.setCore n {}).setEng (2 * n) {} |>.setEng (2 * n + 1) {} |>.setDr (2 * n) {}).setDr (2 * n + 1) {}

/-- The store of a cluster made zero, its pool part apart: pool buffers keep the world of their home range (R447).
Log entry 58 (DEDUCED). -/
def State.wipeCl (s : State) (k : Nat) : State := s.zero (0x20000000 + 0x2000000 * k) (0x20000000 + 0x2000000 * (k + 1))

/-- The change of one core to the world that a bit names. -/
def State.changeCore (s : State) (n : Nat) (b : Bool) : State :=
  let s := ((s.wipeCore n).clearCore n).bumpEpoch n
  (s.put F.SEC_WORLD_CORE_CORE (putBit (s.fld F.SEC_WORLD_CORE_CORE) n b)).epochChanged n

/-- The change of one cluster store. -/
def State.changeCl (s : State) (k : Nat) (b : Bool) : State :=
  let s := ((s.wipeCl k).bumpEpoch (2 * k)).bumpEpoch (2 * k + 1)
  let s := s.put F.SEC_WORLD_CL_CL (putBit (s.fld F.SEC_WORLD_CL_CL) k b)
  (s.epochChanged (2 * k)).epochChanged (2 * k + 1)

/-- The section in place uses a cluster's store: it is among the stores it placed, or a core of it is bound.
Log entry 57 (DEDUCED). -/
def State.clBound (s : State) (k : Nat) : Bool :=
  s.coreBound (2 * k) || s.coreBound (2 * k + 1)
    || (match s.sect with | some x => x.epochs.any (fun e => e.1 == 16 + k) | none => false)

/-- The bits that differ between two words, of the low `n`. -/
def changedBits (n a b : Nat) : List Nat := (List.range n).filter (fun i => bit a i != bit b i)

/-- SEC writes SEC_WORLD_CORE (R448): every core whose bit differs changes, or none does. While full debug is set no
change into the S world is made (R463). Log entry 57 (DEDUCED). -/
def State.setWorldCore (s : State) (v : Nat) : State :=
  let old := s.fld F.SEC_WORLD_CORE_CORE
  let xs := changedBits 16 old v
  if xs.any (fun n => s.coreBound n) then s.put F.SEC_ERR_BUSY 1
  else if s.fld F.SEC_DBG_JTAG_MODE = 2 ∧ xs.any (fun n => bit v n) then s.put F.SEC_ERR_DBG_REJ 1
  else (forEach xs (fun n s => s.changeCore n (bit v n)) s).worldView

/-- SEC writes SEC_WORLD_CL (R448). Log entry 57 (DEDUCED). -/
def State.setWorldCl (s : State) (v : Nat) : State :=
  let old := s.fld F.SEC_WORLD_CL_CL
  let xs := changedBits 8 old v
  if xs.any (fun k => s.clBound k) then s.put F.SEC_ERR_BUSY 1
  else if s.fld F.SEC_DBG_JTAG_MODE = 2 ∧ xs.any (fun k => bit v k) then s.put F.SEC_ERR_DBG_REJ 1
  else (forEach xs (fun k s => s.changeCl k (bit v k)) s).worldView

/-- SEC_WORLD_CORE (R448). Log entry 27 (DEDUCED). -/
def execSecWorldCore (src : Src) (v : Word) (s : State) : Out? :=
  .next (s.secOnly src .SEC_WORLD_CORE 0 (fun t => t.setWorldCore v.toNat))

/-- SEC_WORLD_CL (R448). -/
def execSecWorldCl (src : Src) (v : Word) (s : State) : Out? :=
  .next (s.secOnly src .SEC_WORLD_CL 0 (fun t => t.setWorldCl v.toNat))

/-! ## Region descriptors (R447, R449) -/

/-- The range of a descriptor from its two words: from the first address to below the second. -/
def descRange (lo hi : Nat) : Nat × Nat := (bits lo 26 0 * (2 * miB), (bits hi 26 0 + 1) * (2 * miB))

/-- A descriptor covers only addresses of one slice's direct window or of HBM. Log entry 55 (DEDUCED). -/
def descInside (r : Nat × Nat) : Bool :=
  decide (r.1 < r.2) &&
    ((decide (hbmBase ≤ r.1) && decide (r.2 ≤ hbmBase + 384 * 1024 * miB))
      || (List.range 4).any (fun m =>
          decide (0x40000000 + 0x8000000 * m ≤ r.1) && decide (r.2 ≤ 0x40000000 + 0x8000000 * m + 96 * miB)))

/-- The words of descriptor `i` as they will stand once changes in progress have ended. -/
def State.descWords (s : State) (i : Nat) : Nat × Nat :=
  match firstWhere (fun (p : RegPend) => p.ix == i) s.regPend with
  | some p => (p.lo.toNat, p.hi.toNat)
  | none => ((s.rd .SEC_REG_LO i).toNat, (s.rd .SEC_REG_HI i).toNat)

/-- A range overlaps another valid descriptor than `i`. Log entry 55 (DEDUCED). -/
def State.descOverlaps (s : State) (i : Nat) (r : Nat × Nat) : Bool :=
  ((List.range 64).filter (· ≠ i)).any (fun k =>
    let w := s.descWords k
    let q := descRange w.1 w.2
    bit w.1 31 && decide (r.1 < q.2) && decide (q.1 < r.2))

/-- The range that a descriptor puts into the S world: none for one that is not valid or is of the N world. -/
def sRange (lo hi : Nat) : Option (Nat × Nat) := if bit lo 31 && bit lo 30 then some (descRange lo hi) else none

/-- The part of range `a` that lies outside `b`. -/
def outside (a b : Option (Nat × Nat)) : List (Nat × Nat) :=
  match a, b with
  | none, _ => []
  | some x, none => [x]
  | some x, some y =>
    [(x.1, Nat.min x.2 y.1), (Nat.max x.1 y.2, x.2)].filter (fun r => decide (r.1 < r.2))

/-- The ranges that change world when a descriptor's words become others. Log entry 56 (DEDUCED). -/
def worldChange (lo hi lo' hi' : Nat) : List (Nat × Nat) :=
  let a := sRange lo hi
  let b := sRange lo' hi'
  outside a b ++ outside b a

/-- SEC writes one word of descriptor `i` (R447, R449): refused outside HBM and the shared cache or over another valid
descriptor; without a world change it acts at once; with one the zeroing begins. A descriptor whose zeroing is in
progress takes no write. Log entries 56 (DEDUCED), 59 (DEDUCED). -/
def State.setDesc (s : State) (i : Nat) (hi : Bool) (v : Word) : State :=
  let old := (s.rd .SEC_REG_LO i).toNat
  let oldHi := (s.rd .SEC_REG_HI i).toNat
  let keep := bits v.toNat 26 0
  let lo' := if hi then old else putBits (putBits (putBits old 26 0 keep) 30 30 (bits v.toNat 30 30)) 31 31 (bits v.toNat 31 31)
  let hi' := if hi then putBits oldHi 26 0 keep else oldHi
  if s.flag F.SEC_REG_LO_ZEROING i then s
  else if bit lo' 31 && (!descInside (descRange lo' hi') || s.descOverlaps i (descRange lo' hi')) then
    s.put F.SEC_ERR_OVERLAP 1
  else
    let rs := worldChange old oldHi lo' hi'
    if rs.isEmpty then
      ((s.wr .SEC_REG_LO (BitVec.ofNat 32 lo') i).wr .SEC_REG_HI (BitVec.ofNat 32 hi') i).worldView
    else if s.fld F.SEC_DBG_JTAG_MODE = 2 ∧ (sRange lo' hi').isSome then s.put F.SEC_ERR_DBG_REJ 1
    else { s.put F.SEC_REG_LO_ZEROING 1 i with
           regPend := s.regPend ++ [⟨i, BitVec.ofNat 32 lo', BitVec.ofNat 32 hi', rs⟩] }

/-- SEC_REG (R449): `hi` selects the descriptor's second word. Log entry 29 (DEDUCED). -/
def execSecReg (src : Src) (i : Fin 64) (hi : Bool) (v : Word) (s : State) : Out? :=
  .next (s.secOnly src (if hi then .SEC_REG_HI else .SEC_REG_LO) i.val (fun t => t.setDesc i.val hi v))

/-- REGION_ZEROING_DONE (R449 steps 2 and 3): the ranges hold zeros and the new world takes effect. -/
def State.zeroingDone (s : State) (i : Nat) : State :=
  match firstWhere (fun (p : RegPend) => p.ix == i) s.regPend with
  | none => s
  | some p =>
    let s := forEach p.ranges (fun r s => s.zero r.1 r.2) { s with regPend := s.regPend.filter (fun q => q.ix ≠ i) }
    (((s.wr .SEC_REG_LO p.lo i).wr .SEC_REG_HI p.hi i).put F.SEC_REG_LO_ZEROING 0 i).worldView

/-- REGION_ZEROING_DONE (R449). Log entry 29 (DEDUCED). -/
def execRegionZeroingDone (i : Fin 64) (s : State) : Out? := .next ((s.zeroingDone i.val).measured s)

/-! ## Debug (R463) -/

/-- A write of JTAG_MODE: mode 2 only while nothing is in the S world, a change into it included.
Log entry 59 (DEDUCED). -/
def State.setDbg (s : State) (v : Nat) : State :=
  let m := bits v 1 0
  if m = 2 ∧ (s.anyS ∨ s.regPend.any (fun p => (sRange p.lo.toNat p.hi.toNat).isSome)) then s.put F.SEC_ERR_DBG_REJ 1
  else s.put F.SEC_DBG_JTAG_MODE m

/-- SEC_DBG (R463): access S. -/
def execSecDbg (src : Src) (v : Word) (s : State) : Out? :=
  .next ((s.reach src .SEC_DBG 0 (fun t => t.secure src (RegId.addr .SEC_DBG 0 0) (fun u => u.setDbg v.toNat))).measured s)

end Sys2Proof.Machine
end

