-- ==== Sys2Proof/Machine/Host.lean ====
section
/-! DEFINITION. Submission entries and the commands of Table 16.6 (R434 to R441), fabric messages (R443), and what ends
a job (R426, R427, R460). -/

namespace Sys2Proof.Machine

/-! ## Fetching (R430, R441, R444, R521) -/

/-- Slots of a completion queue that are free and that no fetched command holds. -/
def State.cqRoom (s : State) (cq : Nat) : Bool :=
  s.qClass cq == 1 && s.qState cq == 1 &&
    decide ((s.qTail cq + s.qSize cq - s.qHead cq) % s.qSize cq
      + (s.fetched.filter (fun (x : Fetched) => s.qCqid x.sq == cq)).length + 1 < s.qSize cq)

/-- CMD can fetch from a submission queue now. -/
def State.canFetch (s : State) (q : Nat) : Bool :=
  s.qClass q == 0 && s.qState q == 1 && !s.qEmpty q && s.cqRoom (s.qCqid q)

/-- The 64-byte entry at HEAD: from device memory, or from host memory as it was read. -/
def State.entryAt (s : State) (q : Nat) (host : List Byte) : List Byte :=
  if s.qHostRing q then padTo 64 host else s.bytes (s.qBase q + 64 * s.qHead q) 64

/-- HEAD moves past the entry, and the queue asks again while it holds more. -/
def State.advance (s : State) (r : ArbReq) : State :=
  let q := r.queue
  let s := (s.arbServe r).setQf q 36 4 ((s.qHead q + 1) % s.qSize q)
  if s.qEmpty q then s else s.arbEnter r.arb q (s.qPrio q)

/-- The operation codes of Table 16.6. -/
def knownOpc (o : Nat) : Bool := [0x01, 0x02, 0x10, 0x11, 0x12, 0x13, 0x14, 0x15, 0x16].contains o

/-- HSQ_FETCH (R441): CMD fetches the next submission entry that the command arbiter grants; `host` is what host memory
holds where the ring lies there. A code that Table 16.6 does not list ends with INVALID. -/
def execHsqFetch (host : List Byte) (s : State) : Out? :=
  s.served 4 <|
  if ¬ s.flag F.BC_BOOT_ST_READY = true then .next s
  else match s.arbPick 0 (fun q => s.canFetch q) with
    | none => .next s
    | some r =>
      let e := s.entryAt r.queue host
      let t := s.advance r
      let x : Fetched := ⟨r.queue, fieldAt e 2 2, t.qHead r.queue, e⟩
      let t := { t with fetched := t.fetched ++ [x] }
      .next (if knownOpc (byteAt e 0) then t else t.finish x stInvalid 0 0)

/-! ## Checks common to the commands (R434, R435, R437) -/

/-- A field of `w` bytes at byte `o` of a fetched entry. -/
def Fetched.f (x : Fetched) (o w : Nat) : Nat := fieldAt x.entry o w
def Fetched.opc (x : Fetched) : Nat := byteAt x.entry 0
def Fetched.prio (x : Fetched) : Nat := bits (byteAt x.entry 1) 1 0
def Fetched.job (x : Fetched) : Nat := x.f 4 4
def Fetched.ptr (x : Fetched) : Nat := x.f 8 8

/-- The level at which a command's transfers enter an arbiter (R434). -/
def State.levelOf (s : State) (x : Fetched) : Nat := if x.prio = 0 then s.qPrio x.sq else x.prio

/-- Body bytes outside the listed fields that are not 0. -/
def reservedBad (e : List Byte) (used : List (Nat × Nat)) : List Nat :=
  (upFrom 16 48).filter (fun k => byteAt e k != 0 && !used.any (fun r => decide (r.1 ≤ k) && decide (k < r.1 + r.2)))

/-- The lowest of some offsets. -/
def lowest (xs : List Nat) : Option Nat := xs.foldl (fun b x => match b with | none => some x | some y => some (Nat.min x y)) none

/-- The offset of the first failing field of an entry. Log entry 37 (DEDUCED). -/
def firstOffset (e : List Byte) (used : List (Nat × Nat)) (fields : List (Bool × Nat)) : Option Nat :=
  lowest (reservedBad e used ++ (fields.filter (·.1)).map (·.2))

/-- The admin submission queue of a queue's owner. -/
def State.onAdmin (s : State) (q : Nat) : Bool :=
  s.flag F.HIF_FN_ST_ADM_ACT (s.qOwner q) && q == s.fld F.HIF_FN_QBASE_QBASE (s.qOwner q)

/-- A fetched command runs: `go` after the checks that every command has. A halted device takes only JOB_RESTART and
JOB_END (R541). Log entry 42 (DEDUCED). -/
def State.runCmd (s : State) (sq cid opc : Nat) (admin : Bool) (used : List (Nat × Nat))
    (fields : Fetched → List (Bool × Nat)) (go : Fetched → State) : State :=
  match s.fetch? sq cid with
  | none => s
  | some x =>
    if x.opc ≠ opc then s
    else if (admin ∧ !s.onAdmin sq) ∨ (s.flag F.CMD_FLT_ST_HALTED ∧ opc ≠ 0x12 ∧ opc ≠ 0x13) then s.finish x stInvalid 0 0
    else match firstOffset x.entry used (fields x) with
      | some o => s.finish x stInvalid o 0
      | none => go x

/-- A job command names the bound job (R434). Log entry 40 (DEDUCED). -/
def State.jobBad (s : State) (x : Fetched) : Bool := match s.job with | some j => j.id != x.job | none => true

/-- `n` bytes that PTR names: those read from host memory, or local bytes of a world that the function may read. A PTR that
is misaligned, 0, or names no memory fails. Log entry 44 (DEDUCED). -/
def State.ptrBad (s : State) (x : Fetched) (n : Nat) (host : Option (List Byte)) : Bool :=
  x.ptr % 64 != 0 || x.ptr == 0 || (host.isNone && (!s.inOne x.ptr n
    || !(s.rangeWorld x.ptr n .n || (s.flag F.HIF_FN_ST_TDI_RUN (s.qOwner x.sq) && s.rangeWorld x.ptr n .s))))
/-- Log entry 45 (DESIGN CHOICE). -/
def State.ptrData (s : State) (x : Fetched) (n : Nat) (host : Option (List Byte)) : List Byte :=
  match host with
  | some d => padTo n d
  | none => s.bytes x.ptr n

/-! ## CREATE_Q and DELETE_Q (R429, R433, R436, R443) -/

/-- A queue number lies in a function's range. -/
def State.inRange (s : State) (f q : Nat) : Bool :=
  decide (s.fld F.HIF_FN_QBASE_QBASE f ≤ q) && decide (q < s.fld F.HIF_FN_QBASE_QBASE f + s.fld F.HIF_FN_QBASE_QCNT f)

/-- The fields of CREATE_Q that are out of range (Tables 16.3 and 16.11). Log entries 36 (DEDUCED), 37 (DEDUCED). -/
def State.createBad (s : State) (x : Fetched) (host : Option (List Byte)) : List (Bool × Nat) :=
  let f := s.qOwner x.sq
  let q := x.f 16 2
  let cls := x.f 20 1
  let flags := x.f 21 1
  let size := x.f 36 4
  let cq := x.f 24 2
  [(x.ptr != 0 && s.ptrBad x 64 host, 8), (!s.inRange f q || s.qState q != 0, 16), (decide (6 < cls) || cls == 5, 20),
   (decide (64 ≤ flags) || (bit flags 5 && cls != 6), 21), (x.f 22 1 != f, 22), (x.f 23 1 != 0, 23),
   (if cls == 0 then s.qClass cq != 1 || s.qState cq != 1 || s.qOwner cq != f else cq != 0, 24),
   (decide (s.fld F.HIF_FN_MSIX_SIZE f ≤ x.f 26 2), 26),
   (x.f 28 8 % 64 != 0 || (!bit flags 3 && !s.inOne (x.f 28 8) (qEntrySize cls * size)), 28),
   (!([16, 32, 64, 128, 256, 512, 1024, 2048, 4096, 8192, 16384, 32768, 65536].contains size), 36)]

/-- Why a channel record is refused (R356, R436): 1 P, 2 a field's range, 3 the world, 4 more than 8,192 active. -/
def State.channelBad (s : State) (r : List Byte) (w : World) : Option Nat :=
  let axis := byteAt r 0
  if axis < 3 ∧ byteAt r 1 ≠ s.extentOf axis then some 1
  else if 3 ≤ axis ∨ 1 < byteAt r 2 ∨ 1 < byteAt r 3 ∨ 1000000 < fieldAt r 8 4 ∨ fieldAt r 12 4 = 0 ∨ 65536 < fieldAt r 12 4
      ∨ fieldAt r 16 8 % 64 ≠ 0 ∨ !s.inOne (fieldAt r 16 8) (32 * fieldAt r 12 4) then some 2
  else if World.ofBit (bit (byteAt r 4) 0) ≠ w then some 3
  else if 8192 ≤ s.chans.ents.length then some 4
  else none

/-- The reduction channel of a record at `a`, not armed. -/
def chanOf (r : List Byte) (a now : Nat) : ChanSt :=
  { rcd := a, axis := byteAt r 0, p := byteAt r 1, bs16 := byteAt r 2 == 1, late := byteAt r 3 == 1,
    world := World.ofBit (bit (byteAt r 4) 0), deadline := fieldAt r 8 4, nbkt := fieldAt r 12 4, btab := fieldAt r 16 8,
    moved := now }

/-- CREATE_Q (R429, R435): the entry and its class record are written and the queue becomes active. -/
def execCreateQ (sq cid : Nat) (host : Option (List Byte)) (s : State) : Out? :=
  s.served 4 <|
  .next (s.runCmd sq cid 0x01 true [(16, 2), (20, 20)] (fun x => s.createBad x host) (fun x =>
    let q := x.f 16 2
    let flags := x.f 21 1
    let w := World.ofBit (bit flags 0)
    let f := s.qOwner sq
    let r := if x.ptr = 0 then List.replicate 64 0 else s.ptrData x 64 host
    let ring := qEntrySize (x.f 20 1) * x.f 36 4
    if w = .s ∧ !s.flag F.HIF_FN_ST_TDI_RUN f then s.finish x stWorld 0 0
    else if !bit flags 3 ∧ !s.rangeWorld (x.f 28 8) ring w then s.finish x stWorld 0 0
    else
      let make (s : State) : State :=
        (s.setBytes (qAddr q) (padTo 32 (x.entry.drop 20) ++ List.replicate 32 0 ++ r)).qActivate q
      if x.f 20 1 = 4 then
        match s.channelBad r w with
        | some c => s.finish x stChannel c 0
        | none => ((make s).setChan q (chanOf r (qAddr q + 64) s.now)).redActView.finish x stOk 0 0
      else (make s).finish x stOk 0 0))

/-- A queue that DELETE_Q may not make inactive: a submission queue with fetched commands, a completion queue that an active
submission queue names, or an armed channel. Log entry 38 (DEDUCED). -/
def State.deleteBusy (s : State) (q : Nat) : Bool :=
  match s.qClass q with
  | 0 => s.fetched.any (fun (x : Fetched) => x.sq == q)
  | 1 => s.liveQueues.any (fun p => s.qState p == 1 && s.qClass p == 0 && s.qCqid p == q)
  | 4 => (match s.chan? q with | some c => c.arm.isSome | none => false)
  | _ => false

/-- A queue becomes inactive; a channel goes with it. -/
def State.freeQueue (s : State) (q : Nat) : State :=
  let s := s.qDeactivate q
  if (s.chan? q).isSome then ({ s with chans := s.chans.set q none none } : State).redActView else s

/-- DELETE_Q (R435). -/
def execDeleteQ (sq cid : Nat) (s : State) : Out? :=
  s.served 4 <|
  .next (s.runCmd sq cid 0x02 true [(16, 2)] (fun x => [(!s.inRange (s.qOwner sq) (x.f 16 2), 16)]) (fun x =>
    let q := x.f 16 2
    if s.qState q = 0 then s.finish x stOk 0 0
    else if s.deleteBusy q then s.finish x stBusy 0 0
    else (s.freeQueue q).finish x stOk 0 0))

/-! ## The records that a job is bound with -/

/-- A range of the shared cache or HBM. -/
def State.shared (s : State) (a n : Nat) : Bool := s.inShared a (Nat.max n 1)

def bytesZero (bs : List Byte) : Bool := bs.all (· == 0)

/-- An active EVQ with a TALLY bit. -/
def State.evqOk (s : State) (q : Nat) (tally : Bool) : Bool :=
  decide (q < 32768) && s.qClass q == 6 && s.qState q == 1 && s.qTally q == tally

/-- The fields of a data block (Table 16.12). -/
def dbSct (d : List Byte) (i : Nat) : Nat := fieldAt d (64 + 8 * i) 8
def dbTq (d : List Byte) (i : Nat) : Nat := fieldAt d (128 + 2 * i) 2

/-- A fault of the data block (R438). -/
def State.blockBad (s : State) (d : List Byte) (sealedMap : Bool) : Bool :=
  let nsh := fieldAt d 32 4
  let ntq := byteAt d 38
  let nsct := byteAt d 39
  decide (65536 < nsh) || decide (16 < ntq) || decide (8 < nsct) || !bytesZero ((d.drop 44).take 20) || !bytesZero (d.drop 224)
    || (upFrom nsct (8 - nsct)).any (fun i => dbSct d i != 0) || (upFrom ntq (16 - ntq)).any (fun i => dbTq d i != 0)
    || [0, 8, 16].any (fun o => fieldAt d o 8 % 64 != 0 || !s.shared (fieldAt d o 8) 64)
    || fieldAt d 24 8 % 64 != 0 || !s.inOne (fieldAt d 24 8) (Nat.max (64 * nsh) 1)
    || (match s.place (fieldAt d 24 8) with | .slice _ => false | _ => true)
    || (List.range nsct).any (fun i => dbSct d i % 4096 != 0 || !s.shared (dbSct d i) 128)
    || !s.evqOk (fieldAt d 36 2) false || (List.range ntq).any (fun i => !s.evqOk (dbTq d i) true)
    || (!sealedMap && !bytesZero ((d.drop 160).take 64))

/-- The first failing check of a job map (Table 14.2); 0 none. Field ranges of Table 14.1 that no other check names belong to
check 1. `world` says that check 8 holds. -/
def State.mapCode (s : State) (m : List Byte) (world : Bool) : Nat :=
  let dx := byteAt m 2
  let dy := byteAt m 3
  let dz := byteAt m 4
  let l := fieldAt m 6 2
  let sl := ceilDiv l dx
  let lc := byteAt m 5
  let ckpt := fieldAt m 24 8
  let heads := fieldAt m 8 2
  let nmb := fieldAt m 14 2
  if fieldAt m 0 2 ≠ 1 ∨ !bytesZero (m.drop 32) ∨ 1 < byteAt m 13 ∨ 1 < byteAt m 12 ∨ lc = 0 ∨ 16 < lc ∨ heads = 0 ∨ 1024 < heads
      ∨ 4096 < fieldAt m 10 2 ∨ 4096 < nmb ∨ 2048 < l then 1
  else if dx ≠ s.extentOf 0 ∨ dy ≠ s.extentOf 1 ∨ dz ≠ s.extentOf 2 then 2
  else if l < dx ∨ 64 < sl then 3
  else if !bit ckpt 0 ∨ 2 ^ sl ≤ ckpt then 4
  else if 64 < ceilDiv heads lc ∨ 64 < ceilDiv (fieldAt m 10 2) dz ∨ nmb = 0 then 5
  else if fieldAt m 16 4 % (dy * (1 + byteAt m 12)) ≠ 0 then 6
  else if s.coreMap.length < lc then 7
  else if !world then 8
  else 0

/-- Check 8: the map, the records it is bound with and the queues are of the map's world (R438, Table 14.2).
Log entry 43 (DEDUCED). -/
def State.jobWorlds (s : State) (d m : List Byte) : Bool :=
  let w := World.ofBit (bit (byteAt m 13) 0)
  let scts := (List.range (byteAt d 39)).map (dbSct d)
  ([0, 8, 16].map (fun o => fieldAt d o 8)).all (fun a => s.rangeWorld a 64 w)
    && s.rangeWorld (fieldAt d 24 8) (Nat.max (64 * fieldAt d 32 4) 1) w
    && scts.all (fun t => s.rangeWorld t (s.tableBytes t) w && s.tblWorld t == w)
    && (fieldAt d 36 2 :: (List.range (byteAt d 38)).map (dbTq d)).all (fun q => s.qWorld q == w)

/-- A buffer record of a schedule is malformed (R439). -/
def State.bufBad (s : State) (a : Nat) : Bool :=
  let n := s.load (a + 8) 8
  let home := s.load (a + 16) 8
  s.load (a + 4) 4 != 0 || s.load (a + 24) 8 != 0 || n % 128 != 0 || home % 4096 != 0 || s.place home != .hbm
    || !s.inOne home (Nat.max n 1)

/-- A list of an entry: its address is 0 exactly when it is empty, and it lies in one memory. -/
def State.listOdd (s : State) (a n each : Nat) : Bool := (n == 0) != (a == 0) || (n != 0 && !s.inOne a (n * each))

/-- A schedule entry is malformed (Table 16.13). `slots` is S, `nsct` the scale tables bound. -/
def State.schedEntryBad (s : State) (a slots nsct : Nat) : Bool :=
  let f := fun o w => s.load (a + o) w
  let nbuf := f 16 1
  let npf := f 17 1
  let nwc := f 18 1
  f 0 8 % 4096 != 0 || !s.inOne (f 0 8) 64 || (f 9 1 != 0xFF && decide (slots ≤ f 9 1)) || f 10 1 == 0 || decide (4 < f 10 1)
    || decide (1 < f 11 1) || f 12 4 == 0 || decide (16 < nbuf) || decide (8 < npf) || decide (16 < nwc)
    || (f 19 1 != 0xFF && decide (nsct ≤ f 19 1)) || f 20 4 != 0 || f 48 8 != 0 || f 56 8 != 0
    || s.listOdd (f 24 8) nbuf 32 || s.listOdd (f 32 8) npf 16 || s.listOdd (f 40 8) nwc 8
    || (List.range nbuf).any (fun k => s.bufBad (f 24 8 + 32 * k))
    || (List.range npf).any (fun k =>
        let b := f 32 8 + 16 * k
        s.load b 8 % 64 != 0 || s.load (b + 8) 8 % 64 != 0 || !s.inOne (s.load b 8) (Nat.max (s.load (b + 8) 8) 1))
    || (List.range nwc).any (fun k => s.load (f 40 8 + 8 * k) 8 % 64 != 0 || !s.shared (s.load (f 40 8 + 8 * k) 8) 64)

/-- One handle has two sizes or homes in a list of buffers. -/
def buffersClash : List (Nat × Nat × Nat) → Bool
  | [] => false
  | b :: bs => bs.any (fun c => c.1 == b.1 && c.2 != b.2) || buffersClash bs

/-- A fault of the section schedule (R439). -/
def State.schedBad (s : State) (j : Job) (slots : Nat) : Bool :=
  let n := s.schedLen j
  s.load j.sched 2 != 1 || n == 0 || decide (1024 < n) || !bytesZero (s.bytes (j.sched + 4) 60)
    || !s.inOne j.sched (64 * (n + 1)) || (List.range n).any (fun i => s.schedEntryBad (j.entryAt i) slots j.scts.length)
    || buffersClash ((List.range n).flatMap (fun i => s.entBufs j i))

/-- A fault of the checkpoint manifest (R440). -/
def State.manifestBad (s : State) (j : Job) : Bool :=
  let a := j.manifest
  let n := s.load (a + 12) 2
  s.load a 2 != 1 || s.load (a + 2) 2 == 0 || decide (s.load (a + 4) 2 < s.load (a + 2) 2) || s.load (a + 6) 1 == 0
    || decide (8 < s.load (a + 7) 1) || s.load (a + 8) 4 == 0 || decide (256 < n) || !bytesZero (s.bytes (a + 14) 50)
    || !s.inOne a (64 + 16 * n)
    || (s.manRanges j).any (fun r => r.1 % 64 != 0 || r.2 % 64 != 0 || r.2 == 0 || decide (4096 * miB < r.2)
        || !s.shared r.1 r.2 || !s.rangeWorld r.1 r.2 j.world)

/-- The pool in MiB (R292, R294). -/
def State.poolMiB (s : State) : Nat := sumOf s.poolMd + sumOf s.poolCl

/-! ## Sealed jobs (R459, R460) -/

/-- SEC puts cores, cluster stores and regions into the S world: each region takes the first descriptor of 0 to 47 that is
free, and its zeroing completes. Log entry 46 (DESIGN CHOICE). -/
def State.toSecure (s : State) (cores cls : Nat) (regs : List (Nat × Nat)) : State :=
  let s := s.setWorldCore (Nat.lor (s.fld F.SEC_WORLD_CORE_CORE) cores)
  let s := s.setWorldCl (Nat.lor (s.fld F.SEC_WORLD_CL_CL) cls)
  forEach (regs.take 48) (fun r s =>
    match firstWhere (fun i => !s.flag F.SEC_REG_LO_VALID i && !s.flag F.SEC_REG_LO_ZEROING i) (List.range 48) with
    | none => s
    | some i =>
      ((s.setDesc i true (BitVec.ofNat 32 r.2)).setDesc i false (BitVec.ofNat 32 (putBits (r.1 % 2 ^ 27) 31 30 3))).zeroingDone i) s

/-- Every core, cluster store and region that a job held returns to the N world. -/
def State.toNormal (s : State) : State :=
  let s := (s.setWorldCore 0).setWorldCl 0
  forN 48 (fun i s =>
    if s.flag F.SEC_REG_LO_VALID i && s.flag F.SEC_REG_LO_WORLD i then
      (s.setDesc i false (BitVec.ofNat 32 (s.fld F.SEC_REG_LO_BASE i))).zeroingDone i
    else s) s

/-- The keys of a sealed job: a new S-world HBM key, the flash key of its seal, and a job key.
Log entry 48 (DESIGN CHOICE). -/
def State.secureKeys (s : State) (jobSeal : List Byte) : State :=
  let (h, s) := s.draw 32
  let (k, s) := s.draw 16
  ({ s with sec := { s.sec with hbmS := h, flashS := flashKeyS s.sec.seed jobSeal } }).loadJobKey k

/-- The S-world HBM key, flash key and job key are discarded (R460). -/
def State.dropKeys (s : State) : State :=
  { s.clearJobKey with sec := { s.clearJobKey.sec with hbmS := [], flashS := [] } }.put F.SEC_ST_SEALED 0

/-! ## The end of a job (R380, R417, R460, R566) -/

/-- The section in place is struck with a cut and leaves its units at once. -/
def State.strikeOut (s : State) : State :=
  let s := s.strikeNow
  match s.sect with
  | none => s
  | some x =>
    { s.unpitch x with xfers := [], reqs := .empty, atoms := s.atoms.filter (fun a => a.home.isNone),
                       held := s.held.filter (fun h => h.home.isNone) }.reqView

/-- What runs for a job stops: its section, checkpoint, snapshot and waiting events; its channels are disarmed. -/
def State.stopJob (s : State) : State :=
  let s := ((s.strikeOut).abandonCkpt).disarmAll
  let s := if s.snap.isSome then (s.put F.CMD_SNAP_ACTIVE 0) else s
  { s with saved := [], replays := [], wcSnap := [], mapChanged := false, bar := {}, faults := [], snap := none, prms := [], upds := [],
           pf := none, arbs := s.arbs.filter (fun (r : ArbReq) => r.queue != exportQueue), examine := [] }

/-- Fetched commands that a condition selects end with ABORTED. Log entry 210 (DEDUCED). -/
def State.abortCmds (s : State) (p : Fetched → Bool) : State :=
  forEach (s.fetched.filter p) (fun x s => (s.finish x stAborted 0 0)) { s with
    copies := s.copies.filter (fun c => !s.fetched.any (fun (x : Fetched) => p x && x.sq == c.1 && x.cid == c.2.1)) }

/-- Direct lines that no active queue's ring and no queue table entry holds are released: they read as zeros when next
held (R566, R567). Log entry 49 (DEDUCED). -/
def State.releaseLines (s : State) : State :=
  let rings := (s.liveQueues.filter (fun q => !s.qHostRing q)).map (fun q => (s.qBase q, s.qBase q + qEntrySize (s.qClass q) * s.qSize q))
  { s with mem := s.mem.clear (fun a =>
      decide (0x40000000 ≤ a) && decide (a < 0x60000000) && decide (miB ≤ (a - 0x40000000) % 0x8000000)
        && !rings.any (fun r => decide (r.1 ≤ a) && decide (a < r.2))) }

/-- A bound job ends: its sections are struck with a cut, its open commands end, and its pool buffers, queues and lines are
freed. A sealed job's units and regions return to N before its keys are discarded (R460). Log entry 49 (DEDUCED). -/
def State.endJob (s : State) : State :=
  match s.job with
  | none => s
  | some j =>
    let s := s.stopJob
    let s := s.abortCmds (fun x => (x.opc == 0x11 || x.opc == 0x14) && x.job == j.id)
    let s := forEach (j.evq :: j.tqs ++ s.chanQueues) (fun q s => s.freeQueue q) s
    let s := { s with job := none, pool := [] }.poolView
    let s := (((s.put F.CMD_JOB_BOUND 0).put F.CMD_JOB_ATTEMPT 0).put F.CMD_JOB_PHASE 0).put F.CMD_FLT_ST_HALTED 0
    let s := ((s.put F.IKF_MAP_CTL_LOCK 0).put F.CMD_SHTAB_N_BOUND 0).put F.CMD_SHTAB_N_NSH 0
    let s := (s.releaseLines.trainPorts).measure9
    if j.secure then (s.toNormal.measured s).dropKeys else s

/-! ## JOB_START (R438, R459, R518) -/

/-- The job that a data block describes. -/
def jobOf (f id : Nat) (secure : Bool) (d : List Byte) : Job :=
  { fn := f, id := id, secure := secure, map := fieldAt d 0 8, sched := fieldAt d 8 8, manifest := fieldAt d 16 8,
    shtab := fieldAt d 24 8, nsh := fieldAt d 32 4, evq := fieldAt d 36 2, tqs := (List.range (byteAt d 38)).map (dbTq d),
    scts := (List.range (byteAt d 39)).map (dbSct d), quota := fieldAt d 40 4, quotaNext := none,
    jobSeal := (d.drop 160).take 32, refdig := (d.drop 192).take 32, stepCmd := none, entry := 0, run := 0 }

/-- A retained scale table (TYPE 0x04) of the same world and NENT gives COMMITTED, every E_LAST and every E_INIT, and is used
up (R518). -/
def State.retainedScales (s : State) (t : Nat) : State :=
  match firstWhere (fun (r : ScaleRet) => r.world == s.tblWorld t && r.lasts.length == s.tblNent t) s.scaleRets with
  | none => s
  | some r =>
    let s := { s with scaleRets := s.scaleRets.erase r }.store t 4 r.committed
    forEach r.lasts.zipIdx (fun e s => (s.store (entAddr t e.2 + 82) 1 e.1).store (entAddr t e.2 + 80) 1 e.1) s

/-- A job map address in its registers, and the shard table in its (R374, R402). -/
def State.bindView (s : State) (j : Job) : State :=
  let s := (s.put F.CMD_JOBMAP_LO_ADDR_LO (j.map / 64)).put F.CMD_JOBMAP_HI_ADDR_HI (j.map / 2 ^ 32)
  let s := (s.put F.CMD_SHTAB_LO_ADDR_LO (j.shtab / 64)).put F.CMD_SHTAB_HI_ADDR_HI (j.shtab / 2 ^ 32)
  (s.put F.CMD_SHTAB_N_NSH j.nsh).put F.CMD_SHTAB_N_BOUND 1

/-- Cores that a test has passed, or that only a fence kept out, are back in the core map between jobs: those whose
CORE_FENCED flag is clear. -/
def State.mapCores (s : State) : State := { s with fenced := s.fenced.filter (fun n => s.flag F.ME_STATUS_CORE_FENCED (2 * n)) }

/-- A job is bound at a step (R380): LOCK is set and every channel is armed. -/
def State.bindJob (s : State) (j : Job) (step : Nat) : State :=
  let s := { s with job := some j, bar := {}, faults := [], saved := [], replays := [], wcSnap := [], mapChanged := false }
  let s := ((s.put F.CMD_JOB_BOUND 1).put F.CMD_JOB_ATTEMPT 0).put F.CMD_JOB_PHASE 0
  let s := ((s.put F.CMD_STEP_STEP step).put F.IKF_MAP_CTL_LOCK 1).put F.CMD_FLT_ST_HALTED 0
  ((s.bindView j).measure9).armAll step

/-- What R459 ends a sealed job's start with: nothing, a mismatch (AUX 2) or no answer (AUX 3).
Log entry 47 (DESIGN CHOICE). -/
def attestFail (attest : Nat) : Option Nat := if attest = 0 then none else some (if attest = 1 then 2 else 3)

/-- A job starts: the planner observes from now, and scale tables take what retained state kept. -/
def State.startJob (s : State) (j : Job) : State :=
  let s := s.mapCores
  let s := (s.put F.CMD_JERR_CODE 0).put F.CMD_COMMITTED_STEP noStep
  let s := s.bindJob j (s.load (j.map + 20) 4)
  let s := forEach j.scts (fun t s => s.retainedScales t) s
  { s with sto := { s.sto with obsFrom := s.now, lastAt := s.now, events := [], stalls := [], times := [], pslc := 0 } }

/-- JOB_START (R438): `host` is the data block where PTR names host memory. Of a sealed job, `cores`, `cls` and `regs` are the
units and the regions (first and last 2 MiB unit) that CMD asks SEC for, and `attest` what SEC's attestation of its devices
finds (R459). Log entries 43 (DEDUCED), 46 (DESIGN CHOICE). -/
def execJobStart (sq cid : Nat) (host : Option (List Byte)) (cores : Fin 65536) (cls : Fin 256) (regs : List (Nat × Nat))
    (attest : Fin 3) (s : State) : Out? :=
  s.served 4 <|
  .next (s.runCmd sq cid 0x10 true [] (fun x => [(s.job.isNone && s.ptrBad x 256 host, 8)]) (fun x =>
    if s.job.isSome then s.finish x stBusy 0 0
    else
      let d := s.ptrData x 256 host
      let m := s.bytes (fieldAt d 0 8) 64
      let secure := bit (byteAt m 13) 0
      let j := jobOf (s.qOwner sq) x.job secure d
      let code := s.mapCores.mapCode m (s.jobWorlds d m)
      if s.blockBad d secure then s.finish x stInvalid 1 0
      else if code ≠ 0 then (s.put F.CMD_JERR_CODE code).finish x stJobmap code 0
      else if s.schedBad j (ceilDiv (fieldAt m 6 2) (byteAt m 2)) then s.finish x stInvalid 2 0
      else if s.manifestBad j then s.finish x stInvalid 3 0
      else if secure ∧ !s.flag F.HIF_FN_ST_TDI_RUN (s.qOwner sq) then s.finish x stWorld 0 0
      else if s.poolMiB < j.quota then s.finish x stQuota 0 0
      else if !secure then (s.startJob j).finish x stOk 0 0
      else
        let t := s.toSecure cores.val cls.val regs
        let t := (t.measured s).secureKeys j.jobSeal
        match attestFail attest.val with
        | some aux => ((t.toNormal.measured t).dropKeys).finish x stWorld aux 0
        | none => ((t.put F.SEC_ST_SEALED 1).startJob j).finish x stOk 0 0))

/-! ## STEP and SET_QUOTA (R436, Table 16.6) -/

/-- STEP (R436): taken once the previous step has committed; `host` is the index list where PTR names host memory.
Log entry 40 (DEDUCED). -/
def execStep (sq cid : Nat) (host : Option (List Byte)) (s : State) : Out? :=
  s.served 4 <|
  match s.job with
  | some j =>
    if j.stepCmd.isSome then .next s
    else
      .next (s.runCmd sq cid 0x11 false [(16, 2)]
        (fun x => [(s.jobBad x, 4), (s.ptrBad x (s.schedLen j) host, 8), (x.f 16 2 != s.schedLen j, 16)]) (fun x =>
        let ix := (s.ptrData x (s.schedLen j) host).map BitVec.toNat
        { s.put F.CMD_JOB_PHASE (if s.bar.aborted.isSome then 7 else 1) with job := some { j with stepCmd := some ⟨sq, cid, ix⟩, entry := 0, run := 0 } }))
  | none => .next (s.runCmd sq cid 0x11 false [(16, 2)] (fun _ => [(true, 4)]) (fun _ => s))

/-- SET_QUOTA (Table 16.6): the quota takes effect between sections. Log entry 41 (DEDUCED). -/
def execSetQuota (sq cid : Nat) (s : State) : Out? :=
  s.served 4 <|
  .next (s.runCmd sq cid 0x16 true [(16, 4)] (fun _ => [(s.job.isNone, 0)]) (fun x =>
    if s.poolMiB < x.f 16 4 then s.finish x stQuota 0 0
    else { s with job := s.job.map (fun (j : Job) => { j with quotaNext := some (x.f 16 4) }) }.finish x stOk 0 0))

/-! ## JOB_END and JOB_RESTART (R352, R401, R418 to R420, R460) -/

/-- JOB_END (Table 16.6). Without a bound job it completes and changes nothing. Log entry 41 (DEDUCED). -/
def execJobEnd (sq cid : Nat) (s : State) : Out? :=
  s.served 4 <|
  .next (s.runCmd sq cid 0x13 true [] (fun _ => []) (fun x =>
    match s.job with
    | none => s.finish x stOk 0 0
    | some _ => s.endJob.finish x stOk 0 0))

/-- An entry of the remap table written: NENT follows, and the new table goes to a retained bank at once (R352, R516). -/
def State.setMap (s : State) (e : Nat) (v : Word) : State :=
  let s := ((s.put F.IKF_MAP_LOG (bits v.toNat 14 0) e).put F.IKF_MAP_PHYS (bits v.toNat 30 16) e).put F.IKF_MAP_VALID
    (bits v.toNat 31 31) e
  let s := s.put F.IKF_MAP_CTL_NENT ((List.range 256).filter (fun i => s.flag F.IKF_MAP_VALID i)).length
  { s with boot := { s.boot with retNow := true } }

/-- FAB's writes to the remap table while LOCK is 0, and the identifier that a spare takes (R352). -/
def State.remapTo (s : State) (maps : List (Fin 256 × Word)) (self : Option (Fin 32768)) : State :=
  let s := forEach maps (fun m s => s.setMap m.1.val m.2) s
  match self with
  | some l => s.put F.IKF_SELF_LOG_ID l.val
  | none => s

/-- A restored job begins at step `c` + 1. -/
def State.restartJob (s : State) (j : Job) (c : Nat) (code : Nat) (d : List Byte) : State :=
  let s := (s.mapCores.trainPorts.restoreData j c d).put F.STO_REST_CODE code
  let s := (s.put F.CMD_JERR_CODE 0).bindJob j ((c + 1) % 2 ^ 32)
  { s with sto := { s.sto with lastAt := s.now, events := s.now :: s.sto.events } }

/-- JOB_RESTART (R418 to R420): the step named is restored on the map named. `list` is the data that PTR names in host memory;
`maps` and `self` are what FAB writes to the remap table and IKF_SELF while LOCK is 0; `pull` is what the holder of the buddy
copy answers; `attest` is SEC's finding for a sealed job. It waits for STO_ST.READY (R520).
Log entries 41 (DEDUCED), 191 (DESIGN CHOICE). -/
def execJobRestart (sq cid : Nat) (list : Option (List Byte)) (maps : List (Fin 256 × Word)) (self : Option (Fin 32768))
    (pull : Pull) (attest : Fin 3) (s : State) : Out? :=
  s.served 4 <|
  if ¬ s.flag F.STO_ST_READY = true then .next s
  else
    .next (s.runCmd sq cid 0x12 true [(16, 4), (20, 2), (24, 8)]
      (fun x => [(s.job.isNone, 0), (decide (256 < x.f 20 2), 20), (x.f 20 2 != 0 && s.ptrBad x (2 * x.f 20 2) list, 8),
                 (x.f 24 8 % 64 != 0 || (x.f 24 8 != 0 && !s.shared (x.f 24 8) 64), 24)]) (fun x =>
      match s.job with
      | none => s
      | some j0 =>
        let c := x.f 16 4
        let n := x.f 20 2
        let ids := if n = 0 then [] else (List.range n).map (fun k => fieldAt (s.ptrData x (2 * n) list) (2 * k) 2)
        let j := { j0 with map := if x.f 24 8 = 0 then j0.map else x.f 24 8, stepCmd := none, entry := 0, run := 0, quotaNext := none }
        let m := s.bytes j.map 64
        let t := s.remapTo maps self
        let code := t.mapCores.mapCode m (World.ofBit (bit (byteAt m 13) 0) == j.world && s.rangeWorld j.map 64 j.world)
        if ids.any (fun i => decide (32768 ≤ i)) then s.finish x stInvalid 8 0
        else if code ≠ 0 then (s.put F.CMD_JERR_CODE code).finish x stJobmap code 0
        else
          match t.restoreFrom c (ids.contains t.selfLog) m pull with
          | (r, none) =>
            ((s.put F.STO_REST_CODE r).postJob 0x06 srcDevice (s.rd .CMD_STEP).toNat []).finish x stRestore r 0
          | (r, some d) =>
            let t := (t.stopJob).abortCmds (fun y => (y.opc == 0x11 || y.opc == 0x14) && y.job == j.id)
            if !j.secure then (t.restartJob j c r d).finish x stOk 0 0
            else
              let u := t.clearJobKey.secureKeys j.jobSeal
              match attestFail attest.val with
              | some aux => u.endJob.finish x stWorld aux 0
              | none => (u.restartJob j c r d).finish x stOk 0 0))

/-! ## SNAPSHOT and COPY (R398 to R400, R428, R444) -/

/-- SNAPSHOT (R398 to R400). It completes after the last write of its export (R428).
Log entries 40 (DEDUCED), 50 (DEDUCED). -/
def execSnapshot (sq cid : Nat) (s : State) : Out? :=
  s.served 4 <|
  let full := fun (x : Fetched) => x.f 20 1 == 1
  let com := s.fld F.CMD_COMMITTED_STEP
  .next (s.runCmd sq cid 0x14 false [(16, 6), (24, 32)] (fun x =>
      let h := x.f 40 8
      [(s.jobBad x, 4), (x.f 16 4 != noStep && com != noStep && decide (x.f 16 4 < com), 16), (decide (1 < x.f 20 1), 20),
       (decide (1 < x.f 21 1), 21),
       (x.f 24 8 % 4096 != 0 || s.place (x.f 24 8) != .hbm || !s.inOne (x.f 24 8) (Nat.max (x.f 32 8) 1), 24),
       (decide (x.f 32 8 < (s.snapLayout (full x)).2), 32),
       (if x.f 21 1 == 1 then bit h 15 || decide (2 ^ 31 ≤ h) else h % 64 != 0, 40),
       (if x.f 21 1 == 1 then x.f 48 8 % 64 != 0 || decide (2 ^ 48 ≤ x.f 48 8) else x.f 48 8 != 0, 48)]) (fun x =>
    match s.job with
    | none => s
    | some j =>
      let fabric := x.f 21 1 == 1
      if s.snap.any (fun y => !(y.sq == sq && y.cid == cid)) then s.finish x stBusy 0 0
      else if s.snap.isSome then s
      else if (fabric && j.secure) || (j.secure && !s.flag F.HIF_FN_ST_TDI_RUN (s.qOwner sq))
          || !s.rangeWorld (x.f 24 8) (Nat.max (x.f 32 8) 1) j.world then s.finish x stWorld 0 0
      else
        let want := if x.f 16 4 = noStep then none else some (x.f 16 4)
        let s := { s with snap := some { sq := sq, cid := cid, want := want, step := none, full := full x, fabric := fabric, region := x.f 24 8,
                                         dest := x.f 40 8, taddr := x.f 48 8, level := x.prio, fn := s.qOwner sq, world := j.world,
                                         todo := [], sent := 0 } }
        if want = some com then s.snapCommit com else s))

/-- A command that waits for the host DMA arbiter: the first COPY of its queue. Log entry 51 (DEDUCED). -/
def State.firstCopy (s : State) (q : Nat) : Option (Nat × Nat × Nat) := firstWhere (fun (c : Nat × Nat × Nat) => c.1 == q) s.copies

/-- The next request of a COPY, of at most 1 MiB, where the host DMA arbiter grants its queue: from host memory the bytes
`data`, to host memory what the device holds. Log entry 51 (DEDUCED). -/
def State.copyGo (s : State) (x : Fetched) (data : List Byte) : State :=
  match s.arbPick 1 (fun _ => true), s.firstCopy x.sq with
  | some r, some c =>
    let la := x.f 32 8
    let n := Nat.min miB (x.f 40 8 - c.2.2)
    if r.queue ≠ x.sq ∨ c.2.1 ≠ x.cid ∨ s.zeroingIn (la + c.2.2) n then s
    else
      let s := s.arbServe r
      let s := match s.place la with | .hbm => s.hbmTouch | _ => s
      let s := if x.f 16 1 = 0 then s.hostStore (la + c.2.2) (padTo n data)
        else s.emit (.hostWrite (s.qOwner x.sq) (s.qWorld x.sq) (x.f 24 8 + c.2.2) (s.bytes (la + c.2.2) n))
      let done := c.2.2 + n
      let s := if done < x.f 40 8 then { s with copies := s.copies.map (fun y => if y = c then (c.1, c.2.1, done) else y) }
        else { s with copies := s.copies.erase c }.finish x stOk 0 0
      match s.firstCopy x.sq with
      | some d => (match s.fetch? d.1 d.2.1 with | some y => s.arbEnter 1 x.sq (s.levelOf y) | none => s)
      | none => s
  | _, _ => s

/-- COPY (Table 16.6): the command is checked and waits for the host DMA arbiter, or its next request is served; `data` is
what host memory holds for a copy to the device. Log entry 40 (DEDUCED). -/
def execCopy (sq cid : Nat) (data : List Byte) (s : State) : Out? :=
  s.served 4 <|
  .next (s.runCmd sq cid 0x15 false [(16, 1), (24, 24)] (fun x =>
      let n := x.f 40 8
      [(decide (1 < x.f 16 1), 16), (x.f 24 8 % 64 != 0, 24), (x.f 32 8 % 64 != 0 || !s.shared (x.f 32 8) (Nat.min n (2 ^ 40)), 32),
       (n == 0 || n % 64 != 0 || decide (2 ^ 40 < n), 40)]) (fun x =>
    if s.copies.any (fun c => c.1 == sq && c.2.1 == cid) then s.copyGo x data
    else if !s.rangeWorld (x.f 32 8) (x.f 40 8) (s.qWorld sq) then s.finish x stWorld 0 0
    else ({ s with copies := s.copies ++ [(sq, cid, 0)] }.arbEnter 1 sq (s.levelOf x)).copyGo x data))

/-! ## Fabric messages (R443) -/

/-- FSQ_SEND (R443): FAB takes the next entry that the fabric-send arbiter grants; its 60 bytes travel as one WRITE to the
target receive queue's doorbell. Log entry 52 (DEDUCED). -/
def execFsqSend (host : List Byte) (s : State) : Out? :=
  match s.arbPick 2 (fun q => s.qClass q == 2 && s.qState q == 1 && !s.qEmpty q) with
  | none => .next s
  | some r =>
    let q := r.queue
    let e := s.entryAt q host
    let dst := if fieldAt e 0 4 = 0 then s.qf q 64 2 else fieldAt e 0 2
    let frq := if fieldAt e 0 4 = 0 then s.qf q 66 2 else fieldAt e 2 2
    .next ((s.advance r).sendPkt
      { type := 0x03, world := s.qWorld q, dst := dst % 32768, addr := 0x64000000 + 64 * (frq % 32768), payload := e.drop 4 })

/-! ## Function-level reset and a TDI that leaves RUN (R426, R427) -/

/-- A job bound through a function ends, without a checkpoint. -/
def State.endJobOf (s : State) (f : Nat) : State :=
  match s.job with
  | some j => if j.fn = f then s.endJob else s
  | none => s

/-- The registers of a function's HIF_ part at their reset values. Log entry 53 (DEDUCED). -/
def State.resetHif (s : State) (f : Nat) : State :=
  let s := forEach [RegId.HIF_FN_QBASE, .HIF_FN_CTL, .HIF_FN_ASQ_LO, .HIF_FN_ASQ_HI, .HIF_FN_ACQ_LO, .HIF_FN_ACQ_HI, .HIF_FN_AEQ_LO,
    .HIF_FN_AEQ_HI, .HIF_FN_ST, .HIF_FN_MSIX, .HIF_FN_DBDROP] (fun r s => s.toReset r f) s
  forN 16 (fun w s => (s.toReset .HIF_WIN_LO f w).toReset .HIF_WIN_HI f w) s

/-- One function is reset (R427): its commands end, then its queues, windows and MSI-X table go. -/
def State.resetFn (s : State) (f : Nat) : State :=
  let s := (s.abortCmds (fun x => s.qOwner x.sq == f)).endJobOf f
  let s := forEach (s.liveQueues.filter (fun q => s.qOwner q == f)) (fun q s => s.freeQueue q) s
  let s := s.resetHif f
  { s with msix := s.msix.clear (fun k => k / 4096 == f),
           sec := { s.sec with tdiLocked := s.sec.tdiLocked.filter (fun x => x.1 ≠ f) } }

/-- FUNCTION_LEVEL_RESET (R427): a reset of the PF resets every VF too. -/
def execFunctionLevelReset (f : Fin 64) (s : State) : Out? :=
  let t := if f.val = 0 then forN 64 (fun g s => s.resetFn (63 - g)) s else s.resetFn f.val
  .next (t.measured s)

/-- A TDI leaves RUN (R426): its S-world queues enter the error state, its S-world windows close, and jobs bound through it
end. -/
def State.tdiLeaves (s : State) (f : Nat) : State :=
  let s := s.put F.HIF_FN_ST_TDI_RUN 0 f
  let s := forEach (s.liveQueues.filter (fun q => s.qOwner q == f && s.qWorld q == .s)) (fun q s => s.setQf q 32 1 2) s
  let s := forN 16 (fun w s => if s.flag F.HIF_WIN_LO_WORLD f w then s.put F.HIF_WIN_LO_EN 0 f w else s) s
  s.endJobOf f

/-- TDI_LEAVE_RUN (R426). -/
def execTdiLeaveRun (f : Fin 64) (s : State) : Out? :=
  if s.flag F.HIF_FN_ST_TDI_RUN f.val then .next ((s.tdiLeaves f.val).measured s) else .next s

end Sys2Proof.Machine
end

