-- ==== Sys2Proof/Machine/Firmware.lean ====
section
/-! DEFINITION. The firmware processors (chapter 18): images and their check, restart, the host mailbox, activation,
the watchdog and the lantern rings. -/

namespace Sys2Proof.Machine

/-! ## The boot store (R512) -/

/-- `n` bytes of the boot store from `a`. -/
def State.norRead (s : State) (a n : Nat) : List Byte :=
  (List.range n).map (fun i => s.nor.get (a + i) (Config.factoryNor (a + i)))

/-- Bytes of the boot store written from `a`. -/
def State.norWrite (s : State) (a : Nat) (bs : List Byte) : State :=
  { s with nor := (bs.zip (upFrom a bs.length)).foldl (fun t x => t.set x.2 (Config.factoryNor x.2) x.1) s.nor }

/-- A little-endian field of the boot store. -/
def State.norField (s : State) (a w : Nat) : Nat := leNat (s.norRead a w)

/-- The slot of processor `p` in bank `b` (Table 20.1). -/
def slotBase (b p : Nat) : Nat := 0x00100000 + 0x01000000 * b + 0x00300000 * p

/-- The bank of a processor's active image, and the other one. -/
def State.activeBank (s : State) (p : Nat) : Nat := if bit (s.fld F.BC_FW_BANK_ACTIVE) p then 1 else 0
def State.otherBank (s : State) (p : Nat) : Nat := 1 - s.activeBank p

/-- A processor's bank bit flips; the change is written to a retained bank at once (R516). -/
def State.flipBank (s : State) (p : Nat) : State :=
  let v := s.fld F.BC_FW_BANK_ACTIVE
  { s.put F.BC_FW_BANK_ACTIVE (putBit v p (!bit v p)) with boot := { s.boot with retNow := true } }

/-! ## Images (R455, Table 17.3) -/

def imageMagic : Nat := 0x53394657

/-- The largest body of an image (R465). -/
def bodyMax : Nat := 2 * miB

/-- A slot holds no image. Log entry 74 (DEDUCED). -/
def State.slotEmpty (s : State) (b p : Nat) : Bool := s.norField (slotBase b p) 4 != imageMagic

/-- An image is accepted for a processor whose SVN floor is `floor` (R455).
Log entries 64 (DESIGN CHOICE), 67 (DESIGN CHOICE). -/
def State.imageOk (s : State) (p base floor : Nat) : Bool :=
  let h := s.norRead base 256
  let body := s.norRead (base + 256) (fieldAt h 16 4)
  let key := (h.drop 64).take 64
  let digest := (h.drop 32).take 32
  decide (fieldAt h 0 4 = imageMagic) && decide (byteAt h 4 = p) && decide (fieldAt h 16 4 ≤ bodyMax)
    && decide (sm3 key = Config.romKeyDigest) && decide (sm3 body = digest)
    && sm2Verify key digest ((h.drop 128).take 64) && decide (floor ≤ fieldAt h 12 4)

/-- The SVN floor of a processor (R458). -/
def State.svnFloor (s : State) (p : Nat) : Nat := s.fld F.BC_FW_SVN_FLOOR p

/-- Block 6: VERSION, SVN and SVN floor of each processor, and the ROM version. Log entry 60 (DESIGN CHOICE). -/
def State.measure6 (s : State) : State :=
  s.setMeas 6 (Config.measure 6 ((List.range 5).flatMap (fun p =>
    leBytes 4 (s.rd .BC_FW_VER p).toNat ++ leBytes 2 (s.fld F.BC_FW_SVN_SVN p) ++ leBytes 2 (s.svnFloor p))
      ++ leBytes 4 Config.romVersion.toNat))

/-- Block 10: the local counter at the last power-up, and the restarts since then.
Log entries 60 (DESIGN CHOICE), 104 (DEDUCED). -/
def State.measure10 (s : State) : State :=
  s.setMeas 10 (Config.measure 10 (leBytes 8 s.sec.upAt ++ leBytes 8 s.sec.restarts))

/-- The image at `base` runs on processor `p`: its VERSION and SVN, the floor, and its block.
Log entry 67 (DESIGN CHOICE). -/
def State.runImage (s : State) (p base : Nat) : State :=
  let h := s.norRead base 256
  let svn := fieldAt h 12 4
  let s := ((s.put F.BC_FW_VER_VERSION (fieldAt h 8 4) p).put F.BC_FW_SVN_SVN svn p).put F.BC_FW_SVN_FLOOR
    (Nat.max (s.svnFloor p) svn) p
  (s.setMeas (p + 1) ((h.drop 32).take 32)).measure6

/-! ## Lantern rings (R479, R480) -/

/-- The address of a processor's lantern ring. -/
def State.lntBase (s : State) (p : Nat) : Nat :=
  (s.rd .LNT_BASE_LO p).toNat / miB * miB + s.fld F.LNT_BASE_HI_ADDR_HI p * 4294967296

/-- A record is written at LNT_HEAD: to the ring where firmware has placed one in HBM.
Log entries 70 (DEDUCED), 71 (DEDUCED). -/
def State.lantern (s : State) (p cls point : Nat) (args : List Nat) : State :=
  let sq := ((s.rd .LNT_SEQ p).toNat + 1) % 4294967296
  let rec_ := padTo 64 (leBytes 8 s.now ++ leBytes 4 sq ++ leBytes 1 p ++ leBytes 1 cls ++ leBytes 2 point
    ++ leBytes 4 (s.rd .CMD_STEP).toNat ++ (args.take 11).flatMap (leBytes 4))
  let h := s.fld F.LNT_HEAD_HEAD p
  let s := if s.place (s.lntBase p) = .hbm then s.setBytes (s.lntBase p + 64 * h) rec_ else s
  (s.put F.LNT_HEAD_HEAD ((h + 1) % 16384) p).put F.LNT_SEQ_SEQ sq p

/-- TRACE_POINT (R480): a point of an enabled class writes a record; classes 0 and 2 are always enabled. -/
def execTracePoint (p : Proc) (cls : Fin 32) (point : Fin 65536) (args : List Word) (s : State) : Out? :=
  let n := procNum p
  s.served n <|
  if cls.val = 0 ∨ cls.val = 2 ∨ bit (s.rd .LNT_MASK n).toNat cls.val = true then
    .next (s.lantern n cls.val point.val (args.map (·.toNat)))
  else .next s

/-! ## Restart (R467 to R472) -/

/-- A bit of a BC_FW_ST field set or cleared for a processor. -/
def State.fwBit (s : State) (f : Fld) (p : Nat) (b : Bool) : State := s.put f (putBit (s.fld f) p b)

/-- The processor's gatherer loses its active bits and nesting (R471). -/
def State.evgRestart (s : State) (p : Nat) : State :=
  let s := forN 32 (fun n s => s.put ⟨.EVG_ACT, 0, 31⟩ 0 p n) s
  let s := s.setProc p { s.proc p with active := [], irq := false }
  (s.evgRunView p).evgTopView p

/-- The processor's crashes of the last 600 s, this one among them. -/
def State.recentCrashes (s : State) (p : Nat) : List Nat :=
  s.now :: (s.proc p).crashes.filter (fun t => decide (s.now < t + msTicks 600000))

/-- The processor stays in reset: DEAD, FW_DEAD, and READY falls for MGT and SEC (R472, R520). -/
def State.fwDie (s : State) (p : Nat) : State :=
  let s := s.setProc p { s.proc p with run := .dead }
  let s := (s.fwBit F.BC_FW_ST_DEAD p true).fwBit F.BC_FW_ST_RESTARTING p false
  let s := if p < 2 then s.put F.BC_BOOT_ST_READY 0 else s
  (s.raise 0x42 .dev (srcProc p) 0xFF 0 [] [p]).ibiView

/-- A restart begins (R467): held in reset, a CRASH record, PEER_DOWN at the other four, and the counts. The program counter of
the record is a free value. An activation of SEC ends every SPDM session (R475); STO gives up a generation in progress
(R417). Log entries 69 (DESIGN CHOICE), 70 (DEDUCED). -/
def State.beginRestart (s : State) (p cause : Nat) : State :=
  let crash := decide (cause ≤ 2)
  let pc := leNat ((List.range 4).map (fun i => Config.freeByte (s.freeIx + i)))
  let s := { s with freeIx := s.freeIx + 4 }
  let s := s.lantern p 2 1 [cause, pc, s.fld F.BC_FW_RST_RESTARTS p]
  let s := s.fireOthers p (104 + p)
  let s := ((s.bumpSat F.BC_FW_RST_RESTARTS p).put F.BC_FW_CAUSE_CAUSE cause p).fwBit F.BC_FW_ST_RESTARTING p true
  let s := { s with sec := { s.sec with restarts := s.sec.restarts + 1 } }.measure10
  let s := if crash then s.bumpSat F.BC_FW_RST_CRASHES p else s
  let cs := if crash then s.recentCrashes p else (s.proc p).crashes
  let s := (s.setProc p { s.proc p with run := .restarting, began := s.now, cause := cause, crashes := cs }).evgRestart p
  let s := if p = 3 then s.abandonCkpt else s
  let s := if p = 1 ∧ cause = 4 then { s with sec := { s.sec with sessions := [] } } else s
  if crash && decide (Nat.max (s.fld F.BC_FW_WD_X_CRASH_LIM) 1 < cs.length) then s.fwDie p else s

/-- A processor of `p` with work in it: running. -/
def State.fwRuns (s : State) (p : Nat) : Bool := (s.proc p).run == .running

/-- The watchdog period in ticks. -/
def State.wdTicks (s : State) : Nat := msTicks (Nat.max (s.fld F.BC_FW_WD_X_WD_MS) 1)

/-- WATCHDOG_EXPIRY (R467): the processor has not kicked for WD_MS. -/
def execWatchdogExpiry (p : Proc) (s : State) : Out? :=
  let n := procNum p
  s.served n <| if (s.proc n).kick + s.wdTicks ≤ s.now then .next (s.beginRestart n 1) else .next s

/-- WD_HALF (R482): half of WD_MS has passed without a kick. -/
def execWdHalf (p : Proc) (s : State) : Out? :=
  let n := procNum p
  s.served n <|
  if (s.proc n).half = false ∧ 2 * (s.proc n).kick + s.wdTicks ≤ 2 * s.now then
    .next ((s.setProc n { s.proc n with half := true }).fire n 0)
  else .next s

/-- PROCESSOR_FAULT (R467): an illegal instruction, or an access outside the processor's ranges. -/
def execProcessorFault (p : Proc) (s : State) : Out? :=
  s.served (procNum p) <| .next (s.beginRestart (procNum p) 2)

/-- A kick: by each processor of its own bit alone. -/
def State.kickBy (s : State) (src : Src) (v : Nat) : State :=
  match src with
  | .fw p _ =>
    if bit v (procNum p) then s.setProc (procNum p) { s.proc (procNum p) with kick := s.now, half := false } else s
  | .fn _ => s

/-- BC_FW_KICK (R467). A host's write causes no action from the S world either, for the bits act for their own processor
only. -/
def execBcFwKick (src : Src) (v : Word) (s : State) : Out? :=
  .next (s.reach src .BC_FW_KICK 0 (fun t =>
    match srcWorld src with
    | .s => t.kickBy src v.toNat
    | .n => if bits v.toNat 4 0 = 0 then t else t.worldViol 1 (srcCode src) (RegId.addr .BC_FW_KICK 0 0)))

/-! ## The host mailbox (R473 to R478) -/

/-- An event of the mailbox: to the PF's admin event queue, with TAG and PROC first (R478). -/
def State.fwEvent (s : State) (code tag p : Nat) (d : List Nat) : State := s.postAdmin 0 code (srcProc 0) 0 (tag :: p :: d)

/-- Why an activation is deferred: 1 emergency, 2 sealed job, 3 restart in progress (R476). Log entry 75 (DEDUCED). -/
def State.deferReason (s : State) (p : Nat) : Option Nat :=
  if s.flag F.BC_FW_ST_EMERG then some 1
  else if s.flag F.SEC_ST_SEALED then some 2
  else if (s.proc p).run = .restarting then some 3
  else none

/-- An activation is carried out (R475): an empty slot refuses it; else the bank flips and the processor restarts. -/
def State.activate (s : State) (p tag : Nat) : State :=
  if s.slotEmpty (s.otherBank p) p then s.fwEvent 0x14 tag p [4]
  else
    let s := s.flipBank p
    (s.setProc p { s.proc p with tag := some tag, activating := true, back := false }).beginRestart p 4

/-- One processor of a mailbox entry's mask: its restart or activation begins, ends or is deferred.
Log entry 72 (DEDUCED). -/
def State.fwStart (s : State) (p tag : Nat) (act : Bool) : State :=
  let x := s.proc p
  if x.run = .dead ∨ x.run = .held then s.fwEvent 0x14 tag p [1]
  else if act then
    if x.deferTag.isSome then s.fwEvent 0x12 tag p [(s.deferReason p).getD 1]
    else match s.deferReason p with
      | some r => ((s.setProc p { x with deferTag := some tag }).fwBit F.BC_FW_ST_DEFER p true).fwEvent 0x12 tag p [r]
      | none => s.activate p tag
  else if x.run = .restarting then
    match x.tag with
    | none => s.setProc p { x with tag := some tag }
    | some _ => s.fwEvent 0x15 tag p [x.cause]
  else (s.setProc p { x with tag := some tag }).beginRestart p 3

/-- A restart that the mailbox asked for is in progress. -/
def State.fwBusy (s : State) : Bool :=
  (List.range 5).any (fun p => (s.proc p).run == .restarting && (s.proc p).tag.isSome)

/-- Entries of the work list begin one after another; `fuel` bounds them. -/
def State.fwNext (s : State) : Nat → State
  | 0 => s
  | n + 1 =>
    if s.fwBusy then s
    else match s.fwTodo with
      | [] => s
      | (p, tag, act) :: rest => (({ s with fwTodo := rest }).fwStart p tag act).fwNext n

/-- Log entry 73 (DEDUCED). -/
def State.fwPump (s : State) : State := s.fwNext s.fwTodo.length

/-- The restart of a processor ends: what its image now is, PEER_UP, and the event of what asked for it.
Log entry 77 (DEDUCED). -/
def State.fwUp (s : State) (p : Nat) : State :=
  let x := s.proc p
  let s := s.runImage p (slotBase (s.activeBank p) p)
  let s := s.setProc p { x with run := .running, kick := s.now, half := false, tag := none, activating := false, back := false }
  let s := (s.fwBit F.BC_FW_ST_RESTARTING p false).fireOthers p (96 + p)
  let ver := (s.rd .BC_FW_VER p).toNat
  let tag := x.tag.getD 0
  let s := if x.activating then
      (if x.back then s.fwEvent 0x13 tag p [ver] else s.fwEvent 0x11 tag p [ver, s.fld F.BC_FW_SVN_SVN p])
    else s.fwEvent 0x15 tag p [x.cause]
  s.fwPump

/-- PEER_UP (R468, R475): the active image has passed R455 and initialised; an activation whose image fails goes back to
the previous one. SEC verifies the others' images, so a restart waits for it. Log entry 76 (DEDUCED). -/
def execPeerUp (p : Proc) (s : State) : Out? :=
  let n := procNum p
  let x := s.proc n
  if x.run ≠ .restarting ∨ (n ≠ 1 ∧ !s.fwRuns 1) then .next s
  else if s.imageOk n (slotBase (s.activeBank n) n) (s.svnFloor n) then .next (s.fwUp n)
  else if x.activating ∧ !x.back then
    let s := s.flipBank n
    .next ((s.setProc n { s.proc n with back := true }).beginRestart n 4)
  else .next s

/-- The fields of a mailbox entry (Table 18.4). -/
def mbTag (e : List Byte) : Nat := fieldAt e 2 2
def mbProc (e : List Byte) : Nat := byteAt e 1

/-- MGT takes the entry at the head of the host mailbox when it belongs to row `opc`: STAGE's row also takes entries of
no known code. It takes none before READY, while it restarts, or while an earlier entry is at work.
Log entry 73 (DEDUCED). -/
def State.mailbox (s : State) (opc : Nat) (host : List Byte) (f : List Byte → State → State) : Out? :=
  s.served 0 <|
  let q := s.fld F.HIF_FWQBASE_QBASE
  if !s.flag F.BC_BOOT_ST_READY ∨ s.qClass q ≠ 5 ∨ s.qState q ≠ 1 ∨ s.qEmpty q ∨ s.fwBusy ∨ s.fwTodo ≠ [] then .next s
  else
    let e := s.entryAt q host
    let o := byteAt e 0
    if o = opc ∨ (opc = 1 ∧ (o = 0 ∨ 4 < o)) then
      .next (f e (s.setQf q 36 4 ((s.qHead q + 1) % s.qSize q)))
    else .next s

/-- A reserved byte of an entry is not 0, its address is not aligned, or its mask or processor is none.
Log entry 73 (DEDUCED). -/
def mbBad (e : List Byte) : Bool :=
  let o := byteAt e 0
  let mask := decide (o = 2 ∨ o = 3)
  o == 0 || decide (4 < o) || (e.drop 24).any (· ≠ 0) || fieldAt e 4 4 != 0
    || (mask && (mbProc e == 0 || decide (31 < mbProc e))) || (!mask && decide (4 < mbProc e))
    || (!mask && fieldAt e 8 8 % 64 != 0)

/-- FW_REFUSED with a reason. -/
def State.fwRefuse (s : State) (e : List Byte) (r : Nat) : State := s.fwEvent 0x14 (mbTag e) (mbProc e) [r]

/-- STAGE's effect: the image goes to the inactive bank and is checked; a failing one leaves the slot empty.
Log entry 74 (DEDUCED). -/
def State.stageImage (s : State) (e img : List Byte) : State :=
  let p := mbProc e
  let len := fieldAt e 16 4
  if (s.proc p).deferTag.isSome then s.fwRefuse e 3
  else if bodyMax + 256 < len then s.fwRefuse e 1
  else
    let base := slotBase (s.otherBank p) p
    let s := s.norWrite base (padTo len img)
    if decide (256 ≤ len) && s.imageOk p base (s.svnFloor p) then
      s.fwEvent 0x10 (mbTag e) p [s.norField (base + 8) 4, s.norField (base + 12) 4]
    else (s.norWrite base (List.replicate 256 255)).fwRefuse e 2

/-- STAGE (R474): `host` is the entry where the mailbox lies in host memory, `img` what host memory holds at HADDR. It waits for
SEC, which checks the image. -/
def execStage (host img : List Byte) (s : State) : Out? :=
  s.served 1 <|
  s.mailbox 1 host (fun e s => if mbBad e then s.fwRefuse e 1 else s.stageImage e img)

/-- The processors of an entry's mask, ascending. -/
def mbMask (e : List Byte) : List Nat := (List.range 5).filter (fun p => bit (mbProc e) p)

/-- The work of a masked entry joins the list, and its first begins. -/
def State.fwMask (s : State) (e : List Byte) (act : Bool) : State :=
  ({ s with fwTodo := (mbMask e).map (fun p => (p, mbTag e, act)) }).fwPump

/-- ACTIVATE (R475, R476). -/
def execActivate (host : List Byte) (s : State) : Out? :=
  s.mailbox 2 host (fun e s => if mbBad e then s.fwRefuse e 1 else s.fwMask e true)

/-- RESTART (R477). -/
def execRestart (host : List Byte) (s : State) : Out? :=
  s.mailbox 3 host (fun e s => if mbBad e then s.fwRefuse e 1 else s.fwMask e false)

/-- LOG_READ's effect (R481): records from FROMSEQ, or the oldest still present, as many as LEN holds. -/
def State.logRead (s : State) (e : List Byte) : State :=
  let p := mbProc e
  let last := (s.rd .LNT_SEQ p).toNat
  let first := Nat.max (fieldAt e 20 4) (Nat.max 1 (last + 1 - 16384))
  let n := Nat.min (last + 1 - first) (fieldAt e 16 4 / 64)
  let at_ := fun q => s.lntBase p + 64 * ((s.fld F.LNT_HEAD_HEAD p + 16384 - 1 - (last - q)) % 16384)
  let data := (upFrom first n).flatMap (fun q => s.bytes (at_ q) 64)
  let s := if n = 0 then s else s.emit (.hostWrite 0 .n (fieldAt e 8 8) data)
  s.fwEvent 0x16 (mbTag e) p [n, if n = 0 then 0 else first + n - 1]

/-- LOG_READ (R481): refused while a sealed job runs. -/
def execLogRead (host : List Byte) (s : State) : Out? :=
  s.mailbox 4 host (fun e s =>
    if mbBad e then s.fwRefuse e 1 else if s.flag F.SEC_ST_SEALED then s.fwRefuse e 5 else s.logRead e)

/-! ## Deferred activations (R476) -/

/-- A deferred activation may go: no emergency for 100 ms, no sealed job, no restart of the processor.
Log entry 75 (DEDUCED). -/
def State.releasable (s : State) (p : Nat) : Bool :=
  (s.proc p).deferTag.isSome && (s.deferReason p).isNone && decide (s.lk.emergOff + msTicks 100 ≤ s.now)

/-- ACTIVATION_RELEASE (R476): the pending activation of the lowest processor that may go is carried out. -/
def execActivationRelease (s : State) : Out? :=
  s.served 0 <|
  match firstWhere (fun p => s.releasable p) (List.range 5) with
  | none => .next s
  | some p =>
    let tag := (s.proc p).deferTag.getD 0
    let s := (s.setProc p { s.proc p with deferTag := none }).fwBit F.BC_FW_ST_DEFER p false
    .next (s.activate p tag)

end Sys2Proof.Machine
end

