-- ==== Sys2Proof/Machine/Power.lean ====
section
/-! DEFINITION. Power, clocks and limits (chapter 19): the limit keeper, the effective points, the sleep states of
the clusters, MGT's loop, self-refresh and telemetry. -/

namespace Sys2Proof.Machine

/-! ## Points, ceilings and dividers (R497, R498, R500, R501) -/

/-- The slowest usable point. Log entry 85 (DEDUCED). -/
def State.slowest (s : State) : Nat := s.vfUsable - 1

/-- Frequency and voltage of a point: the safe point when the table has none (R497). Log entry 85 (DEDUCED). -/
def State.pointFV (s : State) (p : Nat) : Nat × Nat :=
  if s.vfUsable = 0 then (800, 620) else (s.vfFreq p, s.vfVolt p)

/-- The ceiling of a cluster: the slowest point that any cause has set (R501). -/
def State.ceilOf (s : State) (k : Nat) : Nat := Nat.max (s.lk.ceilT.getD k 0) (Nat.max s.lk.ceilS (s.lk.ceilP.getD k 0))

/-- The effective point of a cluster: the slower of its requested point and its ceiling, among the usable ones (R498). -/
def State.effOf (s : State) (k : Nat) : Nat := Nat.min (Nat.max (s.fld F.BC_CL_REQ k) (s.ceilOf k)) s.slowest

/-- The divider of a cluster: the largest that applies (R501). -/
def State.divOf (s : State) (k : Nat) : Nat :=
  if !s.pins.pwrbrkN then 4 else if s.lk.fast.getD k false || s.lk.oc.getD (k / 2) false then 2 else 1

/-- The registers of a cluster follow its points and dividers. Log entry 84 (DEDUCED). -/
def State.vfView (s : State) (k : Nat) : State :=
  let s := ((s.put F.BC_CL_CEIL (s.ceilOf k) k).put F.BC_CL_EFF (s.effOf k) k).put F.BC_CL_DIV (s.divOf k) k
  (s.put F.BC_CL_F_FREQ_MHZ (s.lk.freq.getD k 0 / s.divOf k) k).put F.BC_CL_F_VOLT_MV (s.lk.volt.getD k 0) k

/-- Cluster `k` is throttled on temperature: by a ceiling or the fast divider. Log entry 81 (DEDUCED). -/
def State.throttled (s : State) (k : Nat) : Bool :=
  decide (0 < s.lk.ceilT.getD k 0) || decide (0 < s.lk.ceilS) || s.lk.fast.getD k false

/-- A word with bit `i` set where `f i` holds, of `n` bits. -/
def bitsOf (n : Nat) (f : Nat → Bool) : Nat := (List.range n).foldl (fun a i => if f i then setBit a i else a) 0

/-- BC_FW_ST.EMERG follows the causes of R476; a change fires EMERG_ON or EMERG_OFF at every gatherer. -/
def State.emergView (s : State) : State :=
  let e := s.fld F.BC_LK_ST_THROT != 0 || s.fld F.BC_LK_ST_OC != 0 || s.flag F.BC_LK_ST_PWRBRK
  if e = s.flag F.BC_FW_ST_EMERG then s
  else if e then forN 5 (fun p s => s.fire p 112) (s.put F.BC_FW_ST_EMERG 1)
  else
    let s := forN 5 (fun p s => s.fire p 113) (s.put F.BC_FW_ST_EMERG 0)
    { s with lk := { s.lk with emergOff := s.now } }

/-- Fire MGT's source when a field of BC_LK_ST has changed. -/
def State.fireIf (s old : State) (f : Fld) (src : Nat) : State := if s.fld f = old.fld f then s else s.fire 0 src

/-- The limit keeper's registers follow its state; changes of the throttle, overcurrent and brake states reach MGT
(R503). -/
def State.lkView (s : State) : State :=
  let t := forN 8 (fun k s => s.vfView k) s
  let t := t.put F.BC_LK_ST_THROT (bitsOf 8 s.throttled)
  let t := t.put F.BC_LK_ST_OC (bitsOf 4 (fun d => s.lk.oc.getD d false))
  let t := t.put F.BC_LK_ST_PCAP (if s.lk.ceilP.any (fun c => decide (0 < c)) then 1 else 0)
  let t := t.put F.BC_LK_ST_PWRBRK (if s.pins.pwrbrkN then 0 else 1)
  ((((t.fireIf s F.BC_LK_ST_THROT 137).fireIf s F.BC_LK_ST_OC 138).fireIf s F.BC_LK_ST_PWRBRK 139).emergView).ibiView

/-- The limit keeper's state replaced, with what follows from it. -/
def State.setLk (s : State) (l : LimitSt) : State := { s with lk := l }.lkView

/-- VF_CHANGE (R499): the clock and supply of a cluster out of bivouac come to its effective point. -/
def execVfChange (k : Fin 8) (s : State) : Out? :=
  if s.inBivouac k.val then .next s
  else
    let fv := s.pointFV (s.effOf k.val)
    .next (s.setLk { s.lk with freq := setAt s.lk.freq k.val fv.1, volt := setAt s.lk.volt k.val fv.2 })

/-! ## Temperature (R500, R502) -/

/-- A temperature of the last sample. -/
def State.tempOf (s : State) (i : Nat) : Nat := s.lk.temps.getD i 0

/-- The sensors of a throttle: a cluster's own, or (8) the shared ones. -/
def throttleSensors (c : Nat) : List Nat := if c < 8 then [c] else upFrom 8 14

/-- The ceiling that a throttle holds. -/
def LimitSt.therm (l : LimitSt) (c : Nat) : Nat := if c < 8 then l.ceilT.getD c 0 else l.ceilS

/-- A throttle's ceiling moves to `v`: counted in THERM. Log entry 80 (DEDUCED). -/
def State.moveTherm (s : State) (c v : Nat) : State :=
  let l := if c < 8 then { s.lk with ceilT := setAt s.lk.ceilT c v } else { s.lk with ceilS := v }
  (s.bumpSat F.BC_LK_CNT_THERM).setLk { l with stepAt := setAt l.stepAt c s.now }

/-- THERMAL_THROTTLE_STEP (R500): while a sensor is at 95 °C or above, a ceiling moves one point slower every 100 µs.
Log entry 80 (DEDUCED). -/
def execThermalThrottleStep (c : Fin 9) (s : State) : Out? :=
  if (throttleSensors c.val).any (fun i => decide (95 ≤ s.tempOf i)) = true ∧ s.lk.stepAt.getD c.val 0 + usTicks 100 ≤ s.now ∧
      s.lk.therm c.val < s.slowest then
    .next (s.moveTherm c.val (s.lk.therm c.val + 1))
  else .next s

/-- THERMAL_RELEASE_STEP (R500): while every sensor is at 93 °C or below, a ceiling moves one point faster every 1 ms.
Log entry 80 (DEDUCED). -/
def execThermalReleaseStep (c : Fin 9) (s : State) : Out? :=
  if (throttleSensors c.val).all (fun i => decide (s.tempOf i ≤ 93)) = true ∧ s.lk.stepAt.getD c.val 0 + msTicks 1 ≤ s.now ∧
      0 < s.lk.therm c.val then
    .next (s.moveTherm c.val (s.lk.therm c.val - 1))
  else .next s

/-- THERMAL_FAST (R500): divider 2 on a cluster whose sensor is at 100 °C or above, until it is below 98 °C. -/
def execThermalFast (k : Fin 8) (s : State) : Out? :=
  let on := s.lk.fast.getD k.val false
  if !on ∧ 100 ≤ s.tempOf k.val then .next (s.setLk { s.lk with fast := setAt s.lk.fast k.val true })
  else if on ∧ s.tempOf k.val < 98 then .next (s.setLk { s.lk with fast := setAt s.lk.fast k.val false })
  else .next s

/-! ## Current, package power and the board brake (R500) -/

/-- BC_RAILd.PEAK keeps the highest 1 µs average since it was read. -/
def State.railPeak (s : State) (d a : Nat) : State :=
  s.put F.BC_RAIL_PEAK (Nat.max (s.fld F.BC_RAIL_PEAK d) (Nat.min a 1023)) d

/-- RAIL_CURRENT_LIMIT (R500): VIN_CDd averages `amps` over 1 µs, above 400 A: divider 2 on both clusters of the die. -/
def execRailCurrentLimit (d : Fin 4) (amps : Nat) (s : State) : Out? :=
  if amps ≤ 400 ∨ !s.boot.island then .next s
  else
    let s := s.railPeak d.val amps
    let t := if s.lk.oc.getD d.val false then s else s.bumpSat F.BC_LK_CNT_OC
    .next (t.setLk { t.lk with oc := setAt t.lk.oc d.val true, ocSince := setAt t.lk.ocSince d.val s.now })

/-- RAIL_CURRENT_RELEASE (R500): after 100 µs below 360 A the divider ends. Log entry 83 (DEDUCED). -/
def execRailCurrentRelease (d : Fin 4) (s : State) : Out? :=
  if s.lk.oc.getD d.val false = true ∧ s.lk.ocSince.getD d.val 0 + usTicks 100 ≤ s.now then
    .next (s.setLk { s.lk with oc := setAt s.lk.oc d.val false })
  else .next s

/-- Clusters whose clock runs. -/
def State.awake (s : State) : List Nat := (List.range 8).filter (fun k => !s.inBivouac k)

/-- The fastest effective point in use. -/
def State.fastest (s : State) : Nat := s.awake.foldl (fun a k => Nat.min a (s.effOf k)) 15

/-- The ceilings from package power after a window above the limit. Log entry 82 (DEDUCED). -/
def State.capDown (s : State) : List Nat :=
  (List.range 8).map (fun k =>
    if s.awake.contains k ∧ s.effOf k = s.fastest ∧ s.ceilOf k < s.slowest then s.ceilOf k + 1 else s.lk.ceilP.getD k 0)

/-- The ceilings of the package limit become `c`: counted in PCAP when any moves. Log entry 82 (DEDUCED). -/
def State.moveCap (s : State) (c : List Nat) (below : Nat) : State :=
  let t := if c = s.lk.ceilP then s else s.bumpSat F.BC_LK_CNT_PCAP
  t.setLk { t.lk with ceilP := c, below := below }

/-- PACKAGE_POWER_WINDOW (R500, R508): a 1 ms window, aligned to 25,000 ticks, has ended. -/
def execPackagePowerWindow (s : State) : Out? :=
  if s.now / msTicks 1 ≤ s.lk.winNo then .next s
  else
    let uj := s.lk.winUJ
    let t := s.put F.BC_PKG_PWR_WATTS (Nat.min (uj / 1000) 65535)
    let t := forN 8 (fun k t => t.put F.BC_CL_T_WATTS (Nat.min (s.lk.winCl.getD k 0 / 1000) 65535) k) t
    let l := { s.lk with winNo := s.now / msTicks 1, winUJ := 0, winCl := List.replicate 8 0, lastUJ := uj,
                         lastCl := s.lk.winCl }
    let t : State := { t with lk := l }
    if 2800000 < uj then .next (t.moveCap t.capDown 0)
    else if uj < 2520000 then
      if 9 ≤ t.lk.below then .next (t.moveCap (t.lk.ceilP.map (· - 1)) 0) else .next (t.moveCap t.lk.ceilP (t.lk.below + 1))
    else .next (t.moveCap t.lk.ceilP 0)

/-- PWRBRK_N goes low (R500, R552): divider 4 on every cluster. -/
def execPwrbrkNAssert (s : State) : Out? :=
  if s.pins.pwrbrkN then
    let t := { s.bumpSat F.BC_LK_CNT_BRAKE with pins := { s.pins with pwrbrkN := false } }
    .next t.lkView
  else .next s

/-- PWRBRK_N goes high: the division ends. -/
def execPwrbrkNDeassert (s : State) : Out? :=
  if s.pins.pwrbrkN then .next s else .next { s with pins := { s.pins with pwrbrkN := true } }.lkView

/-! ## Telemetry (R508) -/

/-- What the limit keeper reads in one sample: temperatures (clusters 0-7, memory-side dies 8-11, I/O dies 12-13, HBM
stacks 14-21), the currents of the four rails, and the energy of the package and of each cluster in microjoules.
Log entries 83 (DEDUCED), 91 (DESIGN CHOICE). -/
def State.sample (s : State) (temps amps : List Nat) (uj : Nat) (cl : List Nat) : State :=
  let temp := fun i => temps.getD i 0
  let dieT := fun d => if d < 4 then Nat.max (temp (2 * d)) (temp (2 * d + 1)) else temp (d + 4)
  let hot := (List.range 10).foldl (fun b d => if dieT b < dieT d then d else b) 0
  let e := s.energyRem + uj
  let t := forN 8 (fun k s => s.put F.BC_CL_T_TEMP (temp k) k) s
  let t := forN 4 (fun d s => (s.put F.BC_RAIL_AMPS (Nat.min (amps.getD d 0) 1023) d).railPeak d (amps.getD d 0)) t
  let t := (t.put F.BC_TJ_MAX_TEMP (dieT hot)).put F.BC_TJ_MAX_DIE hot
  { t with
    energy := t.energy + BitVec.ofNat 64 (e / 1000), energyRem := e % 1000,
    lk := { t.lk with
      temps := (List.range 22).map temp, sampleAt := some t.now, winUJ := t.lk.winUJ + uj,
      winCl := (List.range 8).map (fun k => t.lk.winCl.getD k 0 + cl.getD k 0),
      ocSince := (List.range 4).map (fun d => if 360 ≤ amps.getD d 0 then t.now else t.lk.ocSince.getD d 0) } }

/-- TELEMETRY_SAMPLE (R508): every 10 µs. -/
def execTelemetrySample (temps amps : List Nat) (uj : Nat) (cl : List Nat) (s : State) : Out? :=
  let due := match s.lk.sampleAt with
    | some t => decide (t + usTicks 10 ≤ s.now)
    | none => true
  if due && s.boot.island then .next (s.sample temps amps uj cl) else .next s

/-! ## MGT's loop (R505) -/

/-- No core of a cluster has a section bound. -/
def State.unbound (s : State) (k : Nat) : Bool := !s.coreBound (2 * k) && !s.coreBound (2 * k + 1)

/-- Clusters that MGT requests alike: bound and not in doze. -/
def State.active (s : State) : List Nat := (List.range 8).filter (fun k => !s.unbound k && s.fld F.BC_CL_STATE k != 1)

/-- f·V² of a clock and a supply. -/
def fv2 (f v : Nat) : Nat := f * v * v

/-- The predicted package energy of a window at point `p`, as a fraction: each active cluster's last window scaled by
f·V², the rest as it was. Log entry 86 (DEDUCED). -/
def State.predict (s : State) (p : Nat) : Nat × Nat :=
  let xs := s.active
  let rest := s.lk.lastUJ - xs.foldl (fun a k => a + s.lk.lastCl.getD k 0) 0
  let fv := s.pointFV p
  xs.foldl (fun (r : Nat × Nat) k =>
    let base := fv2 (s.lk.freq.getD k 0) (s.lk.volt.getD k 0)
    if base = 0 then r else (r.1 * base + s.lk.lastCl.getD k 0 * fv2 fv.1 fv.2 * r.2, r.2 * base)) (rest, 1)

/-- The point that the adaptation requests: the fastest no faster than CEIL_PT whose prediction fits BUDGET_W, else the
slowest. Log entry 86 (DEDUCED). -/
def State.adaptPoint (s : State) : Nat :=
  let budget := Nat.min (s.fld F.BC_PWR_X_BUDGET_W) 2800
  let lo := Nat.min (s.fld F.BC_PWR_X_CEIL_PT) s.slowest
  (firstWhere (fun p => let r := s.predict p; decide (r.1 ≤ budget * 1000 * r.2)) (upFrom lo (s.slowest + 1 - lo))).getD s.slowest

/-- The points that MGT requests at the end of a window. -/
def State.requestPoint (s : State) (k : Nat) : Nat :=
  if !s.active.contains k then s.slowest
  else if s.flag F.BC_PWR_X_ADAPT then s.adaptPoint
  else s.fld F.BC_PWR_X_CEIL_PT

/-- MGT_WINDOW (R505): while PWR_HELD is 0, MGT requests each cluster's point; adaptation writes leave PWR_HELD clear. -/
def execMgtWindow (s : State) : Out? :=
  s.served 0 <|
  if s.now / msTicks 1 ≤ s.lk.mgtNo then .next s
  else
    let t := { s with lk := { s.lk with mgtNo := s.now / msTicks 1 } }
    if s.flag F.BC_PWR_PWR_HELD then .next t
    else .next (forN 8 (fun k t => t.put F.BC_CL_REQ (s.requestPoint k) k) t).lkView

/-! ## Doze (R492, R493) -/

/-- A unit of the core works or waits for an answer: an instruction can issue or executes, a beat or drain row is in
flight, or a request is outstanding. -/
def State.coreBusy (s : State) (n : Nat) : Bool :=
  (s.pick n).isSome
    || (s.core n).stns.any (fun x => match x with | some y => y.outst.any (fun i => !i.done) | none => false)
    || (s.core n).loads.any (fun l => !l.complete)
    || (List.range 2).any (fun h =>
        let y := s.eng (2 * n + h)
        let d := s.dr (2 * n + h)
        !y.pipe.isEmpty || !y.again.isEmpty || d.slots.any (fun t => decide (t.read < t.vrows)) || !d.rawOut.isEmpty)
    || s.xfers.any (fun x => x.core == n) || s.streams.any (fun y => y.dstCore == n && !y.fly.isEmpty)
    || s.reads.any (fun r => r.cores.contains n)

/-- A station of the core is in a WAIT that polls a word outside its core store and its cluster's store (R264). -/
def State.polls (s : State) (n : Nat) : Bool :=
  (List.range 6).any (fun sl =>
    match s.stn? n sl with
    | some x =>
      let w := x.word
      decide (rowOf w = (0x42, 0)) && (wSub w == 1 || wSub w == 2) && (s.waitOf n sl x w).isSome &&
        (match s.place (wAd x w) with
         | .core m => m != n
         | .cl k => k != coreCluster n
         | _ => true)
    | none => false)

/-- The idle condition of R492. -/
def State.clIdle (s : State) (k : Nat) : Bool :=
  [2 * k, 2 * k + 1].all (fun n => !s.coreBusy n && !s.polls n)

/-- A filler ramp-down is in progress in a cluster (R72). -/
def State.rampingDown (s : State) (k : Nat) : Bool := (upFrom (4 * k) 4).any (fun e => (s.eng e).ramp == some false)

/-- DOZE_ENTRY (R492): a cluster in run, idle for DOZE_IDLE_US without a break, gates its clock. -/
def execDozeEntry (k : Fin 8) (s : State) : Out? :=
  let us := Nat.max (s.fld F.BC_SLEEP_X_DOZE_IDLE_US) 1
  let long := match s.slp.idleAt.getD k.val none with
    | some t => decide (t + usTicks us ≤ s.now)
    | none => false
  if s.fld F.BC_CL_STATE k.val = 0 ∧ s.flag F.BC_SLEEP_X_DOZE_EN = true ∧ long = true ∧ s.clIdle k.val = true ∧
      s.rampingDown k.val = false then
    let s := ((s.put F.BC_CL_STATE 1 k.val).put F.CL_PST_STATE 1 k.val).bump F.CL_DOZES_COUNT k.val
    .next { s with slp := { s.slp with dozeAt := setAt s.slp.dozeAt k.val s.now } }
  else .next s

/-- DOZE_EXIT (R493): a wake request has come for a dozing cluster. -/
def execDozeExit (k : Fin 8) (s : State) : Out? := .next (s.dozeWake k.val)

/-! ## Bivouac (R73, R494, R495) -/

/-- A register's fields that retained state restores keep their value; the others take their reset value (R8). -/
def State.retainWord (s : State) (r : RegId) (i j : Nat) : State :=
  s.wr r (BitVec.ofNat 32 (r.fields.foldl (fun w (f : FieldDef) =>
    if f.ret then putBits w f.hi f.lo (bits (s.rd r i j).toNat f.hi f.lo) else w) (r.resetWord i j).toNat)) i j

/-- Every register of a choice goes back to its reset value, "ret" fields apart: only a listed offset can differ from it. -/
def State.loseRegs (s : State) (p : RegId → Nat → Bool) : State :=
  forEach s.regs.ents (fun e s =>
    match regAt e.1 with
    | some (r, i, j) => if p r i then s.retainWord r i j else s
    | none => s) s

/-- A register of cluster `k` that loses power with it: the wake epochs and the router's registers stay (R29, R496).
Log entries 88 (DEDUCED), 212 (DEDUCED). -/
def lostWith (k : Nat) (r : RegId) (i : Nat) : Bool :=
  regCluster r i == some k && !([RegId.CL_WEP0, .CL_WEP1, .CL_NET, .CL_NET_X, .CL_NET_LINK, .CL_NET_RETRY, .CL_NET_FDROP,
    .CL_NET_BAD, .CL_NET_CLR].contains r)

/-- The pool buffers of a cluster store that R295 keeps from eviction. -/
def State.poolStuck (s : State) (k : Nat) : Bool :=
  s.pool.any (fun b => b.place = .cluster k ∧ s.protectedBufs.contains b.handle)

/-- Every pool buffer of a cluster store goes home. -/
def State.evictCl (s : State) (k : Nat) : State :=
  (forEach (s.pool.filter (fun b => b.place = .cluster k)) (fun b s => s.evict b) s).poolView

/-- The power of a cluster goes off: memories, registers and units lose what they held. CORE_FENCED is 1 while the core is
fenced, and no power state ends a fence (R535). Log entries 88 (DEDUCED), 212 (DEDUCED). -/
def State.powerOff (s : State) (k : Nat) : State :=
  let fenced := [4 * k, 4 * k + 1, 4 * k + 2, 4 * k + 3].filter (fun e => s.flag F.ME_STATUS_CORE_FENCED e)
  let s := (((s.wipeCore (2 * k)).wipeCore (2 * k + 1)).wipeCl k).loseRegs (lostWith k)
  let s := forEach fenced (fun e s => s.put F.ME_STATUS_CORE_FENCED 1 e) s
  let s := s.put F.BC_CL_STATE 2 k
  s.setLk { s.lk with freq := setAt s.lk.freq k 0, volt := setAt s.lk.volt k 0 }

/-- BIVOUAC_ENTRY (R494). Log entry 88 (DEDUCED). -/
def execBivouacEntry (k : Fin 8) (s : State) : Out? :=
  s.served 0 <|
  let ms := Nat.max (s.fld F.BC_SLEEP_X_BIV_IDLE_MS) 1
  let long := match s.slp.unboundAt.getD k.val none with
    | some t => decide (t + msTicks ms ≤ s.now)
    | none => false
  if s.inBivouac k.val = false ∧ s.flag F.BC_SLEEP_X_BIV_EN = true ∧ long = true ∧ s.clBound k.val = false ∧
      s.poolStuck k.val = false then
    .next ((s.evictCl k.val).powerOff k.val)
  else .next s

/-- The power of a cluster comes on (R495): its memories hold zeros, its cores' wake epochs rise, and its clock and supply
are those of its effective point. Log entry 89 (DEDUCED). -/
def State.powerOn (s : State) (k : Nat) : State :=
  let s := ((s.wipeCore (2 * k)).wipeCore (2 * k + 1)).wipeCl k
  let s := ((s.bumpEpoch (2 * k)).bumpEpoch (2 * k + 1)).put F.BC_CL_STATE 0 k
  let fv := s.pointFV (s.effOf k)
  let s := s.setLk { s.lk with freq := setAt s.lk.freq k fv.1, volt := setAt s.lk.volt k fv.2 }
  let s := { s with wakeReq := s.wakeReq.filter (· ≠ k) }
  (s.epochChanged (2 * k)).epochChanged (2 * k + 1)

/-- BIVOUAC_EXIT (R495): MGT brings out a cluster that CMD or the host has asked for. -/
def execBivouacExit (k : Fin 8) (s : State) : Out? :=
  s.served 0 <| if s.inBivouac k.val = true ∧ k.val ∈ s.wakeReq then .next (s.powerOn k.val) else .next s

/-- WAKE (R495): the write asks for exit from bivouac; of a cluster that is not in bivouac it asks for nothing. -/
def execWake (src : Src) (k : Fin 8) (s : State) : Out? :=
  .next (s.reach src .BC_CL k.val (fun t =>
    if t.inBivouac k.val && !t.wakeReq.contains k.val then { t with wakeReq := t.wakeReq ++ [k.val] } else t))

/-! ## Self-refresh (R507) -/

/-- SELF_REFRESH_ENTRY (R507). -/
def execSelfRefreshEntry (s : State) : Out? :=
  s.served 0 <|
  let long := match s.slp.allBiv with
    | some t => decide (t + msTicks 1 ≤ s.now)
    | none => false
  if s.flag F.BC_SLEEP_X_SR_EN = true ∧ long = true ∧ s.awake = [] ∧ s.hbmLast + msTicks 1 ≤ s.now then
    .next (forN 8 (fun h s => s.put F.HBM_STATUS_SELFREF 1 h) (s.put F.BC_PWR_ST_HBM_SR 1))
  else .next s

/-- SELF_REFRESH_EXIT (R507): an HBM access comes while the stacks are in self-refresh. -/
def execSelfRefreshExit (s : State) : Out? := .next s.hbmTouch

end Sys2Proof.Machine
end

