-- ==== Sys2Proof/Machine/Startup.lean ====
section
/-! DEFINITION. Start-up, retained state and repair (chapter 20), the supplies (R555, R556), the thermal trip (R502), and
the end of a core's test (R535). -/

namespace Sys2Proof.Machine

/-! ## The repair map (R63 to R68) -/

/-- The valid spare rows of an engine, or (`col`) its columns, that are in use: an index out of range, or one that a
lower-numbered spare has, is ignored (R67). -/
def State.sparesUsed (s : State) (e : Nat) (col : Bool) : List Nat :=
  let reg := if col then RegId.ME_REP_COL else .ME_REP_ROW
  (List.range 8).foldl (fun used i =>
    let w := (s.rd reg e i).toNat
    let x := if col then bits w 9 0 else bits w 8 0
    if bit w 15 && decide (x ≤ 512) && !used.contains x then used ++ [x] else used) []

/-- A valid entry of an engine's map is ignored. -/
def State.spareIgnored (s : State) (e : Nat) (col : Bool) : Bool :=
  let reg := if col then RegId.ME_REP_COL else .ME_REP_ROW
  ((List.range 8).filter (fun i => bit (s.rd reg e i).toNat 15)).length != (s.sparesUsed e col).length

/-- ME_LAT follows the map (R40, R64), and an ignored entry sets REP_REJ. -/
def State.repView (s : State) (e : Nat) : State :=
  let r := (s.sparesUsed e false).length
  let s := ((s.put F.ME_LAT_SPROWS r e).put F.ME_LAT_SPCOLS (s.sparesUsed e true).length e).put F.ME_LAT_LAT (if r = 0 then 6 else 7) e
  if s.spareIgnored e false || s.spareIgnored e true then s.put F.ME_STATUS_REP_REJ 1 e else s

/-- An entry of the map written: it takes effect at once, and the new map goes to a retained bank at once (R66, R516). -/
def State.setRepair (s : State) (e : Nat) (col : Bool) (i v : Nat) : State :=
  let s := if col then (s.put F.ME_REP_COL_LCOL (bits v 9 0) e i).put F.ME_REP_COL_VALID (bits v 15 15) e i
           else (s.put F.ME_REP_ROW_LROW (bits v 8 0) e i).put F.ME_REP_ROW_VALID (bits v 15 15) e i
  { s.repView e with boot := { s.boot with retNow := true } }.measure7

/-- A repair that a test adds. -/
def State.addRepair (s : State) (r : Nat × Bool × Nat × Nat) : State := s.setRepair r.1 r.2.1 (r.2.2.1 % 8) (32768 + r.2.2.2)

/-- The repair map is discarded (R523). -/
def State.clearRepairs (s : State) : State :=
  forN 32 (fun e s =>
    (forN 8 (fun i s => (s.toReset .ME_REP_ROW e i).toReset .ME_REP_COL e i) (s.put F.ME_STATUS_UNAVAIL 0 e)).repView e) s

/-! ## Retained banks (R513 to R518) -/

/-- A retained bank's place and size (Table 20.1). -/
def retBase (b : Nat) : Nat := 0x00040000 * (b + 1)
def retSize : Nat := 262144

/-- A bank is valid (R513). -/
def State.retValid (s : State) (b : Nat) : Bool :=
  let a := retBase b
  let len := s.norField (a + 16) 4
  decide (s.norField a 4 = 0x53395254) && decide (s.norField (a + 4) 2 = 1) && decide (len % 4 = 0)
    && decide (64 ≤ len) && decide (len ≤ retSize)
    && decide (s.norField (a + 20) 4 = crc32c (putField (s.norRead a len) 20 4 0))

/-- The sequence number of a bank. -/
def State.retSeq (s : State) (b : Nat) : Nat := s.norField (retBase b + 8) 8

/-- The winning bank (R514). -/
def State.retWinner (s : State) : Option Nat :=
  match s.retValid 0, s.retValid 1 with
  | false, false => none
  | true, false => some 0
  | false, true => some 1
  | true, true => if s.retSeq 0 < s.retSeq 1 then some 1 else some 0

/-- Every register. -/
def allRegs : List RegId :=
  regsOfBC ++ regsOfSec ++ regsOfCmd ++ regsOfSto ++ regsOfNand ++ regsOfIkf ++ regsOfLnt ++ regsOfEvg ++ regsOfHif ++ regsOfMD
    ++ regsOfHbm ++ regsOfCL ++ regsOfCO ++ regsOfME ++ regsOfDR ++ regsOfVE

/-- A register has a "ret" field. -/
def RegId.hasRet (r : RegId) : Bool := r.fields.any (·.ret)

/-- Every instance of a register with a "ret" field. -/
def retRegs : List (RegId × Nat × Nat) :=
  (allRegs.filter RegId.hasRet).flatMap (fun r =>
    (List.range r.loc.n0).flatMap (fun i => (List.range r.loc.n1).map (fun j => (r, i, j))))

/-- The "ret" fields of a register taken from a word. -/
def State.putRet (s : State) (r : RegId) (i j v : Nat) : State :=
  s.wr r (BitVec.ofNat 32 (r.fields.foldl (fun w (f : FieldDef) =>
    if f.ret then putBits w f.hi f.lo (bits v f.hi f.lo) else w) (s.rd r i j).toNat)) i j

/-- A record (R515). -/
def retRec (ty : Nat) (body : List Byte) : List Byte :=
  leBytes 2 ty ++ leBytes 2 body.length ++ padTo (roundUp body.length 4) body

/-- The body of TYPE 0x01. -/
def State.retRegsBody (s : State) : List Byte :=
  retRegs.flatMap (fun x => leBytes 4 (x.1.addr x.2.1 x.2.2) ++ leBytes 4 (s.rd x.1 x.2.1 x.2.2).toNat)

/-- The body of TYPE 0x02, of each engine its rows, its columns and UNAVAIL. Log entry 99 (DESIGN CHOICE). -/
def State.retMapBody (s : State) : List Byte :=
  (List.range 32).flatMap (fun e =>
    (List.range 8).flatMap (fun i => leBytes 2 (s.rd .ME_REP_ROW e i).toNat)
      ++ (List.range 8).flatMap (fun i => leBytes 2 (s.rd .ME_REP_COL e i).toNat) ++ leBytes 1 (s.fld F.ME_STATUS_UNAVAIL e))

/-- The body of TYPE 0x03: lane sets and NAND rates. -/
def State.retLinkBody (s : State) : List Byte :=
  (List.range 6).flatMap (fun p => leBytes 2 (s.fld F.IKF_PST_LANEMASK p))
    ++ (List.range 16).flatMap (fun c => leBytes 2 (s.fld F.NAND_ST_MTS c))

/-- The body of TYPE 0x04. Log entry 99 (DESIGN CHOICE). -/
def retScaleBody (ts : List ScaleRet) : List Byte :=
  (ts.take 8).flatMap (fun t => leBytes 2 t.world.bit ++ leBytes 2 t.lasts.length ++ leBytes 4 t.committed ++ t.lasts.flatMap (leBytes 1))

/-- The body of TYPE 0x05. -/
def State.retBadBody (s : State) : List Byte :=
  leBytes 4 (crc32c ((s.sto.blocks.ents.filter (fun e => e.2.bad)).flatMap (fun e => leBytes 4 e.1)))

/-- The retained entry of a bound scale table. -/
def State.scaleRetOf (s : State) (t : Nat) : ScaleRet :=
  ⟨s.tblWorld t, s.load t 4, (List.range (s.tblNent t)).map (fun k => s.load (entAddr t k + 82) 1)⟩

/-- The TYPE 0x04 entries refreshed from every bound table (R518). -/
def State.freshScales (s : State) : List ScaleRet :=
  match s.job with
  | some j => (j.scts.map s.scaleRetOf ++ s.scaleRets.filter (fun r =>
      !j.scts.any (fun t => r.world == s.tblWorld t && r.lasts.length == s.tblNent t))).take 8
  | none => s.scaleRets

/-- The records of the working image. Log entry 101 (DEDUCED). -/
def State.retImage (s : State) : List Byte :=
  retRec 1 s.retRegsBody ++ retRec 2 s.retMapBody ++ retRec 3 s.retLinkBody ++ retRec 4 (retScaleBody s.freshScales)
    ++ retRec 5 s.retBadBody

/-- A bank with a header for `recs` (Table 20.2). -/
def retBank (seq : Nat) (recs : List Byte) : List Byte :=
  let h := padTo 64 (leBytes 4 0x53395254 ++ leBytes 2 1 ++ leBytes 2 0 ++ leBytes 8 seq ++ leBytes 4 (64 + recs.length))
  let b := h ++ recs
  putField b 20 4 (crc32c b)

/-- The working image differs from the last bank written. -/
def State.retDiffers (s : State) : Bool :=
  match s.boot.winner with
  | none => true
  | some b => s.norRead (retBase b + 64) (s.norField (retBase b + 16) 4 - 64) != s.retImage

/-- The next bank's number: one above the winner's (R516). -/
def State.nextSeq (s : State) : Nat := match s.boot.winner with
  | some b => s.retSeq b + 1
  | none => 1

/-- The losing bank. -/
def State.loser (s : State) : Nat := match s.boot.winner with
  | some b => 1 - b
  | none => 0

/-- BC_RET_SEQ. -/
def State.putSeq (s : State) (n : Nat) : State := (s.put F.BC_RET_SEQ_LO_SEQ n).put F.BC_RET_SEQ_HI_SEQ (n / 2 ^ 32)

/-- The losing bank is erased, and programmed unless the NOR fails. Log entry 100 (DEDUCED). -/
def State.writeRetained (s : State) (err : Bool) : State :=
  let b := s.loser
  if err then s.norWrite (retBase b) (List.replicate retSize 255)
  else
    let seq := s.nextSeq
    let img := retBank seq s.retImage
    let t := s.norWrite (retBase b) (img ++ List.replicate (retSize - img.length) 255)
    let t := (t.putSeq seq).bumpSat F.BC_RET_WR_WRITES
    { t with scaleRets := s.freshScales, boot := { t.boot with winner := some b, retNow := false, retryAt := none } }

/-- RETAINED_BANK_WRITE (R516, R517): at once for the repair map, BC_FW_BANK and the remap table, else no sooner than WR_MIN after the
previous write began. `err`: the NOR fails during it. -/
def execRetainedBankWrite (err : Bool) (s : State) : Out? :=
  s.served 0 <|
  let due := match s.boot.lastWrite with
    | some t => decide (t + msTicks 60000 * Nat.max (s.fld F.BC_BOOT_X_WR_MIN) 1 ≤ s.now)
    | none => true
  if s.boot.retryAt.isNone && (s.boot.retNow || due) && s.retDiffers then
    let t := { s with boot := { s.boot with lastWrite := some s.now } }.writeRetained err
    .next (if err then { t with boot := { t.boot with retryAt := some s.now } } else t)
  else .next s

/-- NOR_WRITE_RETRY (R517): once, after 1 s, in the same bank; a second error is reported. Log entry 100 (DEDUCED). -/
def execNorWriteRetry (err : Bool) (s : State) : Out? :=
  s.served 0 <|
  match s.boot.retryAt with
  | none => .next s
  | some a =>
    if s.now < a + msTicks 1000 then .next s
    else
      let t := s.writeRetained err
      .next (if err then
          { (t.put F.BC_BOOT_ST_WR_FAIL 1).postAdmin 0 0x0C (srcProc 0) 0 [] with boot := { t.boot with retryAt := none, retNow := false } }
        else t)

/-! ### Restoring (R515) -/

/-- The body of a TYPE 0x04 record as tables; `none` when its length disagrees with its content. `fuel` bounds the tables. -/
def readScales : Nat → List Byte → Option (List ScaleRet)
  | _, [] => some []
  | 0, _ => none
  | n + 1, b =>
    let k := fieldAt b 2 2
    if b.length < 8 + k ∨ 1 < fieldAt b 0 2 then none
    else (readScales n (b.drop (8 + k))).map (fun ts =>
      ⟨World.ofBit (fieldAt b 0 2 == 1), fieldAt b 4 4, (List.range k).map (fun i => byteAt b (8 + i))⟩ :: ts)

/-- One record applied; `none` when it is inconsistent. Log entry 99 (DESIGN CHOICE). -/
def State.applyRec (s : State) (ty : Nat) (b : List Byte) : Option State :=
  match ty with
  | 1 =>
    let ps := chunks 8 b
    if b.length % 8 ≠ 0 ∨ ps.any (fun p => match regAt (fieldAt p 0 4) with
        | some (r, _, _) => !r.hasRet
        | none => true) then none
    else some (forEach ps (fun p s => match regAt (fieldAt p 0 4) with
      | some (r, i, j) => s.putRet r i j (fieldAt p 4 4)
      | none => s) s)
  | 2 =>
    if b.length ≠ 1056 ∨ (List.range 32).any (fun e => (List.range 8).any (fun i => decide (512 < bits (fieldAt b (33 * e + 16 + 2 * i) 2) 9 0))) then
      none
    else some (forN 32 (fun e s =>
      forN 8 (fun i s => (s.putRet .ME_REP_ROW e i (fieldAt b (33 * e + 2 * i) 2)).putRet .ME_REP_COL e i (fieldAt b (33 * e + 16 + 2 * i) 2))
        (s.put F.ME_STATUS_UNAVAIL (byteAt b (33 * e + 32)) e)) s)
  | 3 => if b.length = 44 then some s else none
  | 4 => (readScales 8 b).map (fun ts => { s with scaleRets := ts })
  | 5 => if b.length = 4 then some s else none
  | _ => some s

/-- The records from offset `o` of a bank at `a`, of `len` bytes; `fuel` bounds them. -/
def State.applyRecs (s : State) (a len : Nat) : Nat → Nat → State
  | 0, _ => s
  | n + 1, o =>
    if len < o + 4 then s
    else
      let bl := s.norField (a + o + 2) 2
      if len < o + 4 + bl then s.put F.BC_BOOT_ST_RET_PART 1
      else match s.applyRec (s.norField (a + o) 2) (s.norRead (a + o + 4) bl) with
        | some t => t.applyRecs a len n (o + 4 + roundUp bl 4)
        | none => (s.put F.BC_BOOT_ST_RET_PART 1).applyRecs a len n (o + 4 + roundUp bl 4)

/-- Stage 3 (R514, R519): "ret" fields from the winning bank when cold; when warm they stand as the working image has them.
Log entry 101 (DEDUCED). -/
def State.restoreRet (s : State) (cold : Bool) : State :=
  if !cold then s.put F.BC_BOOT_ST_RET_SRC 3
  else
    let s := { s with boot := { s.boot with winner := s.retWinner } }
    match s.boot.winner with
    | none => s.put F.BC_BOOT_ST_RET_SRC 0
    | some b =>
      let s := (s.put F.BC_BOOT_ST_RET_SRC (b + 1)).putSeq (s.retSeq b)
      (s.applyRecs (retBase b) (s.norField (retBase b + 16) 4) 65536 64).vfCheck

/-! ## What a reset of every domain but Base Camp leaves (R526, Table 20.7) -/

/-- A register of domain 1: it keeps its value through PERST_N. Log entry 102 (DEDUCED). -/
def inDomain1 (r : RegId) (i : Nat) : Bool :=
  regsOfBC.contains r || regsOfSec.contains r || r == .CL_WEP0 || r == .CL_WEP1
    || ((regsOfEvg.contains r || regsOfLnt.contains r) && decide (i < 2))

/-- What SEC keeps: the S-world keys, the job keys, the sessions of the PCIe link and IDE end with it.
Log entry 102 (DEDUCED). -/
def SecSt.perst (x : SecSt) : SecSt :=
  { x with hbmS := [], flashS := [], jobKeys := [], jobSlot := 0, txCtr := .empty, rxCtr := .empty,
           conns := x.conns.set 0 {} {}, sessions := x.sessions.filter (fun y => y.via ≠ 0), ideKeys := .empty, ideGo := [],
           tdiLocked := [] }

/-- A firmware processor through PERST_N: MGT and SEC run on, the others are held. -/
def State.procPerst (s : State) (p : Nat) : ProcSt := if p < 2 then s.proc p else {}

/-- Worlds return to N, and no region change is in progress. -/
def State.worldsOff (s : State) : State :=
  let s := (s.toReset .SEC_WORLD_CORE).toReset .SEC_WORLD_CL
  let s := forN 64 (fun i s => (s.toReset .SEC_REG_LO i).toReset .SEC_REG_HI i) s
  ((s.put F.SEC_ST_SEALED 0).put F.SEC_ST_KSLOTS 0).put F.SEC_ST_S_ACTIVE 0

/-- Base Camp's own registers through PERST_N: clusters in bivouac, READY and FAIL clear, no processor but MGT and SEC in
any state. -/
def State.baseCamp (s : State) : State :=
  let s := forN 8 (fun k s => s.put F.BC_CL_STATE 2 k) s
  let s := ((s.put F.BC_BOOT_ST_READY 0).put F.BC_BOOT_ST_FAIL 0).put F.BC_BOOT_ST_STAGE 0
  let s := s.put F.BC_PWR_ST_HBM_SR 0
  let keep := fun (f : Fld) (s : State) => s.put f (s.fld f % 4)
  keep F.BC_FW_ST_DEFER (keep F.BC_FW_ST_RESTARTING (keep F.BC_FW_ST_DEAD s))

/-- Every domain but Base Camp is reset, and running jobs end. Log entry 102 (DEDUCED). -/
def State.domainReset (s : State) : State :=
  let s := (s.loseRegs (fun r i => !inDomain1 r i)).worldsOff.baseCamp
  let t : State := {
    pending := s.pending, lcnt := s.lcnt, regs := s.regs, lcntHiN := s.lcntHiN, lcntHiS := s.lcntHiS,
    energyHiN := s.energyHiN, energyHiS := s.energyHiS, energy := s.energy, energyRem := s.energyRem, pins := s.pins, out := s.out,
    fires := s.fires.clear (fun k => decide (2048 ≤ k)),
    procs := [0, 1].foldl (fun t p => t.set p {} (s.procPerst p)) Tab.empty,
    lk := { s.lk with freq := List.replicate 8 0, volt := List.replicate 8 0 }, boot := { s.boot with bistOk := false },
    sec := s.sec.perst, nor := s.nor, sto := { s.sto with geom := [] }, scaleRets := s.scaleRets, fwTodo := s.fwTodo.filter (fun x => decide (x.1 < 2)),
    slp := { unboundAt := List.replicate 8 (some s.now), allBiv := some s.now }, freeIx := s.freeIx, ibiByte := s.ibiByte }
  (t.lkView.measure8).measure9

/-! ## Supplies, PERST_N and the trip (R502, R551 to R556) -/

/-- Every supply rail other than VIN_AO is within its limits. -/
def State.railsGood (s : State) : Bool := s.fld F.BC_RAIL_GOOD_GOOD == 0x1FFF

/-- PERST_N_ASSERT (R526, R552): PERST_N has been low for 1 µs. -/
def execPerstNAssert (s : State) : Out? :=
  if s.pins.perstN then
    let s := { s with pins := { s.pins with perstN := false } }
    .next (if s.boot.island then s.domainReset else s)
  else .next s

/-- RAIL_GOOD (R562): a rail comes within its limits. -/
def execRailGood (r : Fin 13) (s : State) : Out? :=
  if s.boot.island then .next (s.put F.BC_RAIL_GOOD_GOOD (setBit (s.fld F.BC_RAIL_GOOD_GOOD) r.val)) else .next s

/-- RAIL_LOST (R556): a rail has been 5 % low for 2 µs; while PERST_N is deasserted the device resets as PERST_N would, and stays so
until PERST_N has been asserted and deasserted. -/
def execRailLost (r : Fin 13) (s : State) : Out? :=
  if !s.boot.island then .next s
  else
    let s := s.put F.BC_RAIL_GOOD_GOOD (clrBit (s.fld F.BC_RAIL_GOOD_GOOD) r.val)
    if s.pins.perstN then
      let s := s.wr .BC_RAIL_ST (BitVec.ofNat 32 (setBit (s.rd .BC_RAIL_ST).toNat r.val))
      .next { s.domainReset with boot := { s.domainReset.boot with railHold := true } }
    else .next s

/-- THERMAL_TRIP (R502): a logic-die sensor is at 110 °C: THERMTRIP_N is asserted, every rail but the island's goes off, and the trip
latches. Log entry 103 (DEDUCED). -/
def execThermalTrip (s : State) : Out? :=
  if (List.range 14).any (fun i => decide (110 ≤ s.tempOf i)) = true ∧ s.flag F.BC_LK_ST_TRIP = false then
    .next (s.put F.BC_LK_ST_TRIP 1).domainReset
  else .next s

/-- ISLAND_POWER_LOSS (R34): VIN_AO leaves its limits: what is left is the boot store, the flash and the board's pins. -/
def execIslandPowerLoss (s : State) : Out? :=
  if s.boot.island then
    .next {
      pending := s.pending, out := s.out, nor := s.nor, sto := { s.sto with geom := [] }, pins := s.pins, freeIx := s.freeIx,
      boot := { island := false } }
  else .next s

/-- ISLAND_POWER_UP (R32, R451, R558): VIN_AO comes up: the local counter starts at 0 and the I3C straps are sampled. -/
def execIslandPowerUp (asel : Fin 4) (s : State) : Out? :=
  if s.boot.island then .next s
  else
    let t : State := {
      pending := s.pending, out := s.out, nor := s.nor, sto := s.sto, freeIx := s.freeIx,
      pins := { s.pins with asel := asel.val } }
    .next ((t.put F.BC_I3C_ASEL asel.val).put F.BC_I3C_SADDR (0x54 + asel.val)).lkView

/-! ## The start-up sequence (R519 to R524) -/

/-- Start-up stops at a stage with a FAIL code (R522). -/
def State.bootFail (s : State) (stage code : Nat) : State := ((s.put F.BC_BOOT_ST_STAGE stage).put F.BC_BOOT_ST_FAIL code).ibiView

/-- SEC's ROM derives the keys from the PUF (R451 to R453). Log entry 104 (DEDUCED). -/
def State.deriveKeys (s : State) : State :=
  match Config.pufReading with
  | none => s.put F.SEC_ST_ID_FAIL 1
  | some r =>
    let seed := sm3 r
    let pub := sm2Public (idKey seed)
    let (h, s) := s.draw 32
    let s := { s with sec := { s.sec with seed := seed, hbmN := h, flashN := flashKeyN seed, upAt := 0, restarts := 0 } }
    (forN 16 (fun w s => s.put F.SEC_IDPUB_KEY (beNat ((pub.drop (4 * w)).take 4)) w) s).put F.SEC_ST_ID_OK 1

/-- A processor is loaded at boot from its active bank, else from the other one (R456). -/
def State.bootProc (s : State) (p : Nat) : State :=
  match firstWhere (fun b => s.imageOk p (slotBase b p) (s.svnFloor p)) [s.activeBank p, s.otherBank p] with
  | some b => ((s.runImage p (slotBase b p)).setProc p { run := .running, kick := s.now }).fwBit F.BC_FW_ST_DEAD p false |>.fwBit F.BC_FW_ST_RESTARTING p false
  | none => s.put F.SEC_ST_BOOT_FAIL 1

/-- Processors loaded one after another, until one fails. -/
def State.bootProcs (s : State) : List Nat → State
  | [] => s
  | p :: ps =>
    let t := s.bootProc p
    if t.fwRuns p then t.bootProcs ps else t

/-- Stage 2: keys, and the processors that this start-up loads. Log entries 97 (DEDUCED), 98 (DEDUCED). -/
def State.stage2 (s : State) (cold norOk : Bool) : State :=
  let all := if cold then [1, 0, 2, 3, 4] else (if s.fwRuns 1 then [] else [1]) ++ (if s.fwRuns 0 then [] else [0]) ++ [2, 3, 4]
  if !norOk then s.bootFail 2 2
  else
    let s := if cold then s.deriveKeys else s
    if s.flag F.SEC_ST_ID_FAIL then (s.bootProcs [1, 0]).bootFail 2 1
    else
      let s := s.bootProcs all
      if all.all (fun p => s.fwRuns p) then s else s.bootFail 2 2

/-- The UCIe links of a router have trained (R316). -/
def State.trainMesh (s : State) (mods : List Nat) : State :=
  forN 8 (fun k s => forN 4 (fun l s => s.put (linkField l) (Nat.min (linkModules k l) (mods.getD (4 * k + l) 0)) k) s) s

/-- The links that were left with no module. -/
def State.deadLinks (s : State) : List (Nat × Nat) :=
  (List.range 8).flatMap (fun k =>
    ((List.range 4).filter (fun l => linkModules k l != 0 && s.fld (linkField l) k == 0)).map (fun l => (k, l)))

/-- Stage 4: the mesh and the HBM stacks train. -/
def State.stage4 (s : State) (b : StartIn) : State :=
  let s := s.trainMesh b.mods
  match s.deadLinks with
  | d :: _ => (s.meshDown d.1 d.2).bootFail 4 3
  | [] => if b.hbmOk then forN 8 (fun h s => s.put F.HBM_STATUS_READY 1 h) s else s.bootFail 4 4

/-- MGT makes its host mailbox (R473). Log entry 105 (DESIGN CHOICE). -/
def State.makeMailbox (s : State) (m : Bool × Nat) : State :=
  let q := s.fld F.HIF_FWQBASE_QBASE
  (s.setBytes (qAddr q) (padTo 128 ([5, if m.1 then 0x08 else 0, 0, 0, 0, 0, 0, 0] ++ leBytes 8 m.2 ++ leBytes 4 64))).qActivate q

/-- Firmware's regions and lantern rings (R466, R479). Log entries 71 (DEDUCED), 105 (DESIGN CHOICE). -/
def State.firmwarePlaces (s : State) (b : StartIn) : State :=
  let s := forEach (b.regions.take 16).zipIdx (fun r s =>
    (s.wr .SEC_REG_LO (BitVec.ofNat 32 r.1.1) (48 + r.2)).wr .SEC_REG_HI (BitVec.ofNat 32 r.1.2) (48 + r.2)) s
  forEach (b.rings.take 5).zipIdx (fun r s => (s.put F.LNT_BASE_LO_ADDR_LO (r.1 / miB) r.2).put F.LNT_BASE_HI_ADDR_HI (r.1 / 2 ^ 32) r.2) s

/-- Stage 5: test and repair (R523). -/
def State.stage5 (s : State) (b : StartIn) : State :=
  let s := if s.flag F.BC_BOOT_X_REBUILD then s.clearRepairs else s
  let s := forN 32 (fun e s => s.repView e) s
  let s := forEach b.repairs (fun r s => s.addRepair r) s
  let s := forEach b.engBad (fun e s => { s.put F.ME_STATUS_UNAVAIL 1 e with boot := { s.boot with retNow := true } }) s
  let s := s.put F.BC_BOOT_UNAV_CORE (bitsOf 16 (fun n => b.coreBad.contains n))
  if !b.slicesOk then s.bootFail 5 5
  else if !b.rowsOk then s.bootFail 5 4
  else
    let s := ((s.makeMailbox b.mailbox).firmwarePlaces b).worldView
    ((s.measure7).measure8.measure9).measure10

/-- The rate at which a channel trains: that of NAND_IF_X.MTS if it can, else 2,400, else 1,600 (R405). -/
def State.nandRate (s : State) (c : FlashChan) : Nat :=
  let want := Nat.max 800 (Nat.min (s.fld F.NAND_IF_X_MTS) 3600)
  (firstWhere (fun r => decide (r ≤ c.best)) [want, 2400, 1600]).getD 0

/-- One NAND channel has been found and trained (R404, R405). -/
def State.trainNand (s : State) (n : Nat) (c : FlashChan) : State :=
  let rate := s.nandRate c
  let up := c.fitted && decide (0 < c.targets) && decide (0 < rate)
  let st := if !c.fitted then 0 else if !up then 4 else if c.someLeft then 3 else 2
  let s := ((s.put F.NAND_ST_TGTS (if up then c.targets else 0) n).put F.NAND_ST_LUNS (if up then c.luns else 0) n).put F.NAND_ST_STATE st n
  let s := s.put F.NAND_ST_MTS (if up then rate else 0) n
  let s := { s with sto := { s.sto with geom := s.sto.geom ++ [if up then (c.targets, c.luns, c.blocks, c.pages) else (0, 0, 0, 0)] } }
  if up then
    forEach c.factory (fun b s => if b % 16 = n then s.setBlock b { s.block b with bad := true } else s)
      (s.bumpSat F.STO_BAD_FACTORY 0 0 (c.factory.filter (fun b => b % 16 = n)).length)
  else s

/-- STO trains the flash and is ready (R405, R421). -/
def State.trainFlash (s : State) (cs : List FlashChan) : State :=
  let s := { s with sto := { s.sto with geom := [] } }
  let s := forEach (cs.take 16).zipIdx (fun c s => s.trainNand c.2 c.1) s
  ((s.lastView).peView).put F.STO_ST_READY 1

/-- FAB trains a torus port: to its widest passing set, to none, or it trains still. -/
def State.trainPort (s : State) (p : Nat) (pass : Option Nat) : State :=
  match pass with
  | none => s.put F.IKF_PST_STATE 1 p
  | some m =>
    match laneSet 16 m with
    | none => s.put F.IKF_PST_STATE 0 p
    | some x => if x.1 = 16 then s.portUse p x else (s.portUse p x).degraded p x.1

/-- Stage 6: the torus ports and the NAND channels train. -/
def State.stage6 (s : State) (b : StartIn) : State :=
  let s := { s.put F.BC_BOOT_ST_STAGE 6 with boot := { s.boot with bistOk := true, stage6 := s.now } }
  (forN 6 (fun p s => s.trainPort p (b.ports.getD p none)) s).trainFlash b.flash

/-- No failure has stopped the start-up. -/
def State.bootOk (s : State) : Bool := s.fld F.BC_BOOT_ST_FAIL == 0

/-- The stages of a start-up, each only once the one before it has not failed. Log entry 95 (DESIGN CHOICE). -/
def State.startUp (s : State) (b : StartIn) : State :=
  let cold := s.boot.cold
  let s := { (s.put F.BC_BOOT_ST_STAGE 1).put F.BC_BOOT_ST_FAIL 0 with
    boot := { s.boot with cold := false, railHold := false, stage1 := s.now } }
  let s := s.stage2 cold b.norOk
  if !s.bootOk then s
  else
    let s := (s.restoreRet cold).stage4 b
    if !s.bootOk then s
    else
      let s := s.stage5 b
      if !s.bootOk then s else s.stage6 b

/-- PERST_N_DEASSERT (R519, R555, R556): a start-up runs while every rail is good and no trip is latched; else the device stays in
reset. Log entries 95 (DESIGN CHOICE), 96 (DEDUCED). -/
def execPerstNDeassert (b : StartIn) (s : State) : Out? :=
  if s.pins.perstN ∨ !s.boot.island then .next s
  else
    let s := { s with pins := { s.pins with perstN := true } }
    if s.railsGood && !s.flag F.BC_LK_ST_TRIP then .next (s.startUp b)
    else .next { s with boot := { s.boot with railHold := true } }

/-- READY (R520). -/
def execReady (s : State) : Out? :=
  if s.inReset = false ∧ s.boot.bistOk = true ∧ s.bootOk = true ∧ s.flag F.BC_BOOT_ST_READY = false ∧ s.fld F.HIF_ST_WIDTH ≠ 0 ∧
      (List.range 6).all (fun p => s.portState p != 1) = true ∧ (s.proc 0).run ≠ .dead ∧ (s.proc 1).run ≠ .dead then
    let s := (s.put F.BC_BOOT_ST_READY 1).put F.BC_BOOT_ST_STAGE 7
    .next (s.put F.BC_READY_T_TICKS (Nat.min (s.now - s.boot.stage1) 0xFFFFFFFF))
  else .next s

/-- FAB_WAIT_EXPIRY (R520): FAB_WAIT_MS after stage 6 began, a port still training is treated as down. -/
def execFabWaitExpiry (s : State) : Out? :=
  if s.boot.bistOk = true ∧ s.flag F.BC_BOOT_ST_READY = false ∧
      s.boot.stage6 + msTicks (Nat.max (s.fld F.BC_BOOT_X_FAB_WAIT_MS) 1) ≤ s.now then
    .next (forN 6 (fun p s => if s.portState p = 1 then s.put F.IKF_PST_STATE 0 p else s) s)
  else .next s

/-- PCIE_LINK_UP (R520, R522): the link trains at a width (0: 16, 1: 8, 2: 4 lanes), a rate and a mode; FAIL code 6 clears. -/
def execPcieLinkUp (width : Fin 3) (rate : Fin 7) (flit : Bool) (s : State) : Out? :=
  if s.inReset ∨ s.fld F.HIF_ST_WIDTH ≠ 0 then .next s
  else
    let s := ((s.put F.HIF_ST_WIDTH (16 / 2 ^ width.val)).put F.HIF_ST_RATE rate.val).put F.HIF_ST_FLIT (if flit then 1 else 0)
    .next (if s.fld F.BC_BOOT_ST_FAIL = 6 then (s.put F.BC_BOOT_ST_FAIL 0).ibiView else s)

/-- PCIE_LINK_DOWN (R445). Log entry 107 (DEDUCED). -/
def execPcieLinkDown (s : State) : Out? := .next (s.put F.HIF_ST_WIDTH 0)

/-- PCIE_LINK_TIMEOUT (R522): the link is not up 1 s after PERST_N was deasserted. -/
def execPcieLinkTimeout (s : State) : Out? :=
  if s.inReset = false ∧ s.fld F.HIF_ST_WIDTH = 0 ∧ s.bootOk = true ∧ s.flag F.BC_BOOT_ST_READY = false ∧
      s.boot.stage1 + msTicks 1000 ≤ s.now then
    .next (s.put F.BC_BOOT_ST_FAIL 6).ibiView
  else .next s

/-! ## The test of a fenced core (R525, R535) -/

/-- CORE_TESTED (R535): MGT's test of a fenced core ends with the repairs it added, the engines it leaves UNAVAIL, and whether
another fault cannot be repaired. Log entry 106 (DEDUCED). -/
def execCoreTested (n : Fin 16) (reps : List (Fin 2 × Bool × Fin 8 × Nat)) (un0 un1 hard : Bool) (s : State) : Out? :=
  s.served 0 <|
  let e := 2 * n.val
  if !s.flag F.ME_STATUS_CORE_FENCED e then .next s
  else
    let s := forEach reps (fun r s => s.addRepair (e + r.1.val, r.2.1, r.2.2.1.val, r.2.2.2)) s
    let s := if un0 then s.put F.ME_STATUS_UNAVAIL 1 e else s
    let s := if un1 then s.put F.ME_STATUS_UNAVAIL 1 (e + 1) else s
    let s := s.measure7
    if un0 || un1 || hard then
      let s := s.put F.BC_BOOT_UNAV_CORE (setBit (s.fld F.BC_BOOT_UNAV_CORE) n.val)
      .next (s.raise 0x23 .none srcDevice n.val 0 [] [n.val, reps.length, 0])
    else
      let s := ((s.put F.ME_STATUS_CORE_FENCED 0 e).put F.ME_STATUS_CORE_FENCED 0 (e + 1)).bumpEpoch n.val
      let s := if s.job.isNone then { s with fenced := s.fenced.filter (· ≠ n.val) } else s
      .next ((s.epochChanged n.val).raise 0x23 .none srcDevice n.val 0 [] [n.val, reps.length, 1])

end Sys2Proof.Machine
end

