-- ==== Sys2Proof/Machine/Cycle.lean ====
section
/-! DEFINITION. What happens at a clock edge: the tick of the local counter (R32), and the cycle of a cluster's clock with
the counters that a cycle moves (R46, R111, R127, R146, R197, R198, R311) and the errors its stores meet (R287). -/

namespace Sys2Proof.Machine

/-! ## The local counter (R32) and the idle times that are measured in it (R492, R494, R507) -/

/-- A time that began while a condition holds: kept, begun now, or none. -/
def sinceWhile (b : Bool) (old : Option Nat) (now : Nat) : Option Nat := if b then some (old.getD now) else none

/-- The idle, unbound and all-in-bivouac times as this tick sees them, and CL_PST.IDLE. Log entry 87 (DEDUCED). -/
def State.idleView (s : State) : State :=
  let idle := fun k => !s.inBivouac k && s.clIdle k
  let t := forN 8 (fun k t => if s.inBivouac k then t else t.put F.CL_PST_IDLE (if idle k then 1 else 0) k) s
  { t with slp := { t.slp with
      idleAt := (List.range 8).map (fun k => sinceWhile (s.fld F.BC_CL_STATE k == 0 && idle k) (s.slp.idleAt.getD k none) s.now)
      unboundAt := (List.range 8).map (fun k => sinceWhile (s.unbound k) (s.slp.unboundAt.getD k none) s.now)
      allBiv := sinceWhile s.awake.isEmpty s.slp.allBiv s.now } }

/-- The five slot counters of a stack (R310). -/
def slotCounters : List Fld :=
  [F.HBM_BURST_RD_COUNT, F.HBM_BURST_WR_COUNT, F.HBM_BURST_RM_COUNT, F.HBM_IDLE_COUNT, F.HBM_UNLENT_COUNT]

/-- The slots that pass in a tick at each stack in service, each counted as a burst of its class, idle or not lent (R290,
R310): how many of each is a free value. Log entry 94 (DESIGN CHOICE). -/
def State.slotView (s : State) : State :=
  forN 8 (fun h s =>
    if s.flag F.HBM_STATUS_READY h && !s.flag F.HBM_STATUS_SELFREF h then
      forEach slotCounters (fun f s => { s.bump f h 0 (Config.hbmSlots s.freeIx) with freeIx := s.freeIx + 1 }) s
    else s) s

/-- LOCAL_COUNTER_TICK (R32): the 64-bit local counter increments by 1, wrapping, while the island has power.
Log entries 2 (DESIGN CHOICE), 14 (DESIGN CHOICE). -/
def execLocalCounterTick (s : State) : Out? :=
  if s.boot.island then
    let t : State := { s with lcnt := s.lcnt + 1 }
    .next t.idleView.ibiView.slotView
  else .next s

/-! ## A cycle of the cluster clock -/

/-- The stall counter of a station that a cycle increments (R197). Log entry 92 (DEDUCED). -/
def State.stallOf (s : State) (n sl : Nat) (x : StnSt) : Fld :=
  let w := x.word
  let live := s.coreRuns n && !x.halted && !x.finished
  let wait := if live then s.waitOf n sl x w else none
  if x.acted || x.outst.any (fun i => !i.done) then F.CO_STN_BUSY_COUNT
  else match wait with
    | some .unit => F.CO_STN_BUSY_COUNT
    | some .credit => F.CO_STN_BLOCKED_COUNT
    | some .input => F.CO_STN_STARVED_COUNT
    | some .hold => F.CO_STN_STARVED_COUNT
    | some .fence => F.CO_STN_ASLEEP_COUNT
    | none => F.CO_STN_ASLEEP_COUNT

/-- The stall counters of a core's pitched stations (R197, R201). -/
def State.stationCycle (s : State) (n : Nat) : State :=
  forN 6 (fun sl t =>
    match s.stn? n sl with
    | some x =>
      let t := if s.flag F.CO_CNT_X_STN_EN n then t.bump (s.stallOf n sl x) n sl else t
      t.onStn n sl (fun y => { y with acted := false })
    | none => t) s

/-- The full, empty and memory-wait counters of a core's receive queues (R198, R311). -/
def State.queueCycle (s : State) (n : Nat) : State :=
  if s.flag F.CO_CNT_X_Q_EN n then
    forEach (s.streams.filter (fun y => y.hasQueue && y.dstCore == n)) (fun y t =>
      let t := if y.queue.length = y.depth then t.bump F.CO_Q_FULL_COUNT n y.qnum else t
      let t := if y.queue.isEmpty then t.bump F.CO_Q_EMPTY_COUNT n y.qnum else t
      if y.queue.isEmpty && !y.fly.isEmpty then t.bump F.CO_FQ_MEMWAIT_COUNT n y.qnum else t) s
  else s

/-- The engine waits for a fly load: its next pass, or a beat to issue again, has none that is complete, or its station's
next problem waits for PSB rows that are still allocated (R46, R48, R111). -/
def State.flyWait (s : State) (e : Nat) : Bool :=
  let n := engCore e
  let x := s.eng e
  if x.stopped || !s.engBound n (e % 2) then false
  else
    let beat := match x.again with
      | b :: _ => decide (x.rebuild = some b.load) || (s.loadNo n b.load).isNone
      | [] =>
        match x.current with
        | p :: ps =>
          let pass := ps.foldl (fun a q => Nat.min a q.pass) p.pass
          p.closed && !(p :: ps).any (fun q => q.pass == pass && q.discards) && (s.loadFor n p.pair pass).isNone
        | [] => false
    let psb := match s.stn? n (e % 2) with
      | some y =>
        let w := y.word
        s.contextOn n (e % 2) y && (wOp w == 0x10 || wOp w == 0x11) && (s.earlyFault n (e % 2) y w).isNone
          && decide (x.inHand < 2) && s.mmWaits (wOp w == 0x11) n (e % 2) y w
      | none => false
    beat || psb

/-- The cycle counters of an engine and of its drain (R46, R119, R127, R131). -/
def State.unitCycle (s : State) (e : Nat) : State :=
  let d := s.dr e
  let t := if s.flyWait e then s.bump F.ME_CYC_FLYWAIT_COUNT e else s
  let t := if d.slots.any (fun y => decide (y.read < y.vrows)) then t.bump F.DR_CYC_BUSY_COUNT e else t
  let side := match s.meets e with
    | some (_, _, c) => s.sideMissing e c
    | none => false
  let t := if side then t.bump F.DR_CYC_SIDEWAIT_COUNT e else t
  if d.slots.length = 2 ∨ s.flag F.DR_STATUS_TQ_WAIT e = true then t.bump F.DR_CYC_RELWAIT_COUNT e else t

/-- CO_CYC_SCWAIT counts each waiting drain; SC_WAIT follows (R146). -/
def State.scaleCycle (s : State) (n : Nat) : State :=
  (s.bump F.CO_CYC_SCWAIT_COUNT n 0 ([2 * n, 2 * n + 1].filter s.scWait).length).scView n

/-- The counters of a core in one cycle. -/
def State.coreCycle (s : State) (n : Nat) : State :=
  (((s.unitCycle (2 * n)).unitCycle (2 * n + 1)).queueCycle n).scaleCycle n |>.stationCycle n

/-- An error that a read of a store of the cluster meets: corrected, or uncorrectable and then MEM_UE (R287).
Log entry 93 (DESIGN CHOICE). -/
def State.storeError (s : State) (k : Nat) (x : StoreErr) : State :=
  if x.bad then
    let t := ((s.bumpSat F.CL_ECC_UE_COUNT k).put F.CL_ECC_LOG_STORE x.store.val k).put F.CL_ECC_LOG_GRANULE x.granule.val k
    let off := 64 * x.granule.val
    if x.store.val < 2 then t.memUe 0 (2 * k + x.store.val) (0x2000000 * (2 * k + x.store.val) + off)
    else t.memUe 1 k (0x20000000 + 0x2000000 * k + off)
  else s.bumpSat F.CL_ECC_CE_COUNT k

/-- CLUSTER_CLOCK_CYCLE (R197): one cycle of the clock of a cluster in run; while it dozes its counters stop.
Log entries 2 (DESIGN CHOICE), 14 (DESIGN CHOICE), 92 (DEDUCED). -/
def execClusterClockCycle (k : Fin 8) (errs : List StoreErr) (s : State) : Out? :=
  if s.fld F.BC_CL_STATE k.val = 0 then
    let t := forEach errs (fun x t => t.storeError k.val x) s
    .next ((t.coreCycle (2 * k.val)).coreCycle (2 * k.val + 1))
  else .next s

end Sys2Proof.Machine
end

