-- ==== Sys2Proof/Machine/Pins.lean ====
section
/-! DEFINITION. The I3C target and the TAP (chapter 22). -/

namespace Sys2Proof.Machine

/-! ## I3C (R558, R559) -/

/-- The status record of Table 22.6. -/
def State.i3cRecord (s : State) : List Byte :=
  leBytes 4 (s.rd .BC_BOOT_ST).toNat ++ leBytes 4 (s.rd .BC_FW_ST).toNat ++ leBytes 4 (s.rd .BC_LK_ST).toNat
    ++ [BitVec.ofNat 8 s.alertByte, BitVec.ofNat 8 (s.fld F.BC_TJ_MAX_TEMP), 0, 0]

/-- I3C_PRIVATE_READ (R559): the status record, or NACK while MGT does not serve the target. -/
def execI3cPrivateRead (s : State) : Out? :=
  if !s.boot.island then .next s
  else if s.i3cServed then .next ((s.emit (.readData s.i3cRecord)).fire 0 140)
  else .next (s.emit .nack)

/-- I3C_ADDRESS_ASSIGN (R558): ENTDAA or SETDASA gives the target its dynamic address. -/
def execI3cAddressAssign (addr : Fin 128) (s : State) : Out? :=
  if s.i3cServed then .next ((s.put F.BC_I3C_DYN 1).put F.BC_I3C_DADDR addr.val) else .next s

/-! ## JTAG (R463, R560) -/

/-- The TAP's IDCODE (R560). -/
def tapIdcode : Nat := 0x1539096F

/-- The mode in force: 3 acts as 0 (R463). -/
def State.jtagMode (s : State) : Nat := let m := s.fld F.SEC_DBG_JTAG_MODE; if m = 3 then 0 else m

/-- Bits shifted out, which no reset holds back (R551). -/
def State.tdoOut (s : State) (xs : List Bool) : State := if s.inReset then s else s.emit (.tdo xs)

/-- BYPASS: the bits shifted in come out one place later, behind a 0. -/
def bypassOut (xs : List Bool) : List Bool := (false :: xs).take xs.length

/-- JTAG_TAP_ACCESS (R463, R560): a probe holds TRST_N high and makes one operation; one that JTAG_MODE does not allow
acts as BYPASS. Log entries 109 (PRESUMED), 110 (DESIGN CHOICE). -/
def execJtagTapAccess (op : TapOp) (s : State) : Out? :=
  if !s.boot.island then .next s
  else
    let t := fun (ir : Nat) => ({ s with pins := { s.pins with trstN := true, tap := ir } } : State)
    match op with
    | .idcode => .next ((t 0).tdoOut ((List.range 32).map (bit tapIdcode)))
    | .bypass data => .next ((t 1).tdoOut (bypassOut data))
    | .boundary n =>
      if s.jtagMode = 0 then .next ((t 1).tdoOut (bypassOut (List.replicate n false)))
      else
        .next ({ t 2 with freeIx := s.freeIx + n }.tdoOut
          ((List.range n).map (fun i => bit (Config.freeByte (s.freeIx + i)).toNat 0)))
    | .debug =>
      if s.jtagMode = 2 then .refused .debugUnit else .next ((t 1).tdoOut [])

/-- TRST_N_ASSERT (R560): the TAP is held in reset, IDCODE selected. -/
def execTrstNAssert (s : State) : Out? := .next { s with pins := { s.pins with trstN := false, tap := 0 } }

end Sys2Proof.Machine
end

