-- ==== Sys2Proof/Machine/Spdm.lean ====
section
/-! DEFINITION. SEC as an SPDM 1.3 responder (R454, R457, R458), with IDE_KM and TDISP in secured sessions. The messages
are laid out as the DMTF and PCI-SIG standards give them, which the manual names and does not repeat (PRESUMED). -/

namespace Sys2Proof.Machine

/-! ## Requesters, connections and sessions -/

/-- The number of a requester. -/
def viaKey : SpdmVia → Nat
  | .doe => 0
  | .mctp => 1
  | .device d => 2 + d.val

/-- A requester's messages reach SEC: DOE outside reset, MCTP while MGT serves the I3C target. -/
def State.viaUp (s : State) : SpdmVia → Bool
  | .doe => !s.inReset
  | .mctp => s.i3cServed
  | .device _ => true

/-- What the arrival of a message fires (Table 18.7); SEC_MGMT messages have fired on reception. -/
def State.viaFire (s : State) : SpdmVia → State
  | .doe => s.fire 1 131
  | .mctp => s.fire 0 140
  | .device _ => s

/-- A message to a requester; to a device in control packets of at most 512 bytes, AUX its whole length (DESIGN CHOICE).
Log entry 215 (PRESUMED). -/
def State.reply (s : State) (via : SpdmVia) (m : List Byte) : State :=
  match via with
  | .doe => s.emit (.mgmt 0 m)
  | .mctp => s.emit (.mgmt 1 m)
  | .device d => forEach (chunks 512 m) (fun c s => s.sendControl 7 d.val s.jobWorld c m.length) s

def State.conn (s : State) (via : SpdmVia) : SpdmConn := s.sec.conns.get (viaKey via) {}

def State.setConn (s : State) (via : SpdmVia) (c : SpdmConn) : State :=
  { s with sec := { s.sec with conns := s.sec.conns.set (viaKey via) {} c } }

/-- A session of a requester. -/
def State.session? (s : State) (via : SpdmVia) (id : Nat) : Option SpdmSession :=
  firstWhere (fun (x : SpdmSession) => x.id == id && x.via == viaKey via) s.sec.sessions

def State.setSession (s : State) (x : SpdmSession) : State :=
  { s with sec := { s.sec with sessions := s.sec.sessions.map (fun y => if y.id = x.id ∧ y.via = x.via then x else y) } }

def State.dropSession (s : State) (x : SpdmSession) : State :=
  { s with sec := { s.sec with sessions := s.sec.sessions.filter (fun y => y.id != x.id || y.via != x.via) } }

/-- `n` open bytes of a message: free values. -/
def State.openBytes (s : State) (n : Nat) : List Byte × State :=
  (padTo n (Config.messageBytes s.freeIx), { s with freeIx := s.freeIx + 1 })

/-! ## Requests -/

/-- The first bytes of a response: version 1.3, its code and two parameters. -/
def spdmHead (code p1 p2 : Nat) : List Byte := [0x13, BitVec.ofNat 8 code, BitVec.ofNat 8 p1, BitVec.ofNat 8 p2]

/-- ERROR with its code and data. -/
def spdmError (code data : Nat) : List Byte := spdmHead 0x7F code data

/-- The error of a request that SEC refuses: version, code, order and length. -/
def spdmBad (c : SpdmConn) (ver code stage len : Nat) (m : List Byte) : Option (List Byte) :=
  if byteAt m 0 ≠ ver then some (spdmError 0x41 0)
  else if byteAt m 1 ≠ code then some (spdmError 0x07 (byteAt m 1))
  else if c.stage < stage then some (spdmError 0x04 0)
  else if m.length < len then some (spdmError 0x01 0)
  else none

/-- A request reaches a running SEC, which refuses it with ERROR or answers it. Log entry 215 (PRESUMED). -/
def State.spdm (s : State) (via : SpdmVia) (ver code stage len : Nat) (m : List Byte) (f : State → State) : Out? :=
  s.served 1 <|
    if !s.viaUp via then .next s
    else
      let t := s.viaFire via
      match spdmBad (t.conn via) ver code stage len m with
      | some e => .next (t.reply via e)
      | none => .next (f t)

/-- A response that joins the connection's first transcript. -/
def State.replyVca (s : State) (via : SpdmVia) (stage : Nat) (m r : List Byte) : State :=
  let c := s.conn via
  (s.setConn via { c with stage := stage, vca := c.vca ++ m ++ r }).reply via r

/-- GET_VERSION (R457): version 1.3 alone; the connection starts again. Log entry 215 (PRESUMED). -/
def execGetVersion (via : SpdmVia) (msg : List Byte) (s : State) : Out? :=
  s.spdm via 0x10 0x84 0 4 msg (fun t =>
    (t.setConn via {}).replyVca via 1 msg ([0x10, 0x04, 0, 0, 0, 1] ++ leBytes 2 0x1300))

/-- Capability flags: certificates, challenge, signed measurements, encryption, message authentication, key exchange,
heartbeat, key update and alias certificates; mutual authentication between devices alone.
Log entry 215 (PRESUMED). -/
def spdmCaps (via : SpdmVia) : Nat :=
  2 + 4 + 2 * 8 + 2 ^ 6 + 2 ^ 7 + 2 ^ 9 + 2 ^ 13 + 2 ^ 14 + 2 ^ 16 + (match via with | .device _ => 2 ^ 8 | _ => 0)

/-- GET_CAPABILITIES (R457); the timing exponent and the sizes are open. -/
def execGetCapabilities (via : SpdmVia) (msg : List Byte) (s : State) : Out? :=
  s.spdm via 0x13 0xE1 1 20 msg (fun t =>
    let (e, t) := t.openBytes 1
    let (z, t) := t.openBytes 8
    t.replyVca via 2 msg (spdmHead 0x61 0 0 ++ [0] ++ e ++ [0, 0] ++ leBytes 4 (spdmCaps via) ++ z))

/-- One algorithm structure of ALGORITHMS. Log entry 215 (PRESUMED). -/
def algStruct (ty sel : Nat) : List Byte := leBytes 1 ty ++ [0x20] ++ leBytes 2 sel

/-- NEGOTIATE_ALGORITHMS (R457): SM2, SM3, SM2 key exchange and SM4-GCM; a requester without SM2 and SM3 is refused. -/
def execNegotiateAlgorithms (via : SpdmVia) (msg : List Byte) (s : State) : Out? :=
  s.spdm via 0x13 0xE3 2 32 msg (fun t =>
    if !bit (fieldAt msg 8 4) 9 || !bit (fieldAt msg 12 4) 6 then t.reply via (spdmError 0x01 0)
    else
      let mutAuth := match via with | .device _ => 2 ^ 9 | _ => 0
      t.replyVca via 3 msg (spdmHead 0x63 4 0 ++ leBytes 2 52 ++ [1, 0] ++ leBytes 4 (2 ^ 7) ++ leBytes 4 (2 ^ 9)
        ++ leBytes 4 (2 ^ 6) ++ List.replicate 16 0 ++ algStruct 2 (2 ^ 6) ++ algStruct 3 (2 ^ 3) ++ algStruct 4 mutAuth
        ++ algStruct 5 1))

/-! ## Certificates (R454) -/

/-- The length of the DER SEQUENCE that starts a byte list, 0 where none does. -/
def derLen (b : List Byte) : Nat :=
  if byteAt b 0 ≠ 0x30 then 0
  else if byteAt b 1 < 0x80 then byteAt b 1 + 2
  else if byteAt b 1 = 0x81 then byteAt b 2 + 3
  else if byteAt b 1 = 0x82 then 256 * byteAt b 2 + byteAt b 3 + 4
  else 0

/-- The certificate at an address of the boot store. -/
def State.certAt (s : State) (a : Nat) : List Byte := s.norRead a (derLen (s.norRead a 4))

/-- Root, issuing authority and identity certificates, one after another in the boot store (Table 20.1). -/
def State.certs (s : State) : List (List Byte) :=
  let a := s.certAt 0x20000
  let b := s.certAt (0x20000 + a.length)
  [a, b, s.certAt (0x20000 + a.length + b.length)]

/-- M: the SM3 digest of measurement blocks 1 to 6 (Table 17.2). -/
def State.measM (s : State) : List Byte := sm3 ((upFrom 1 6).flatMap s.meas)

/-- The alias key in force, and its public key. -/
def State.aliasD (s : State) : Nat := aliasKey s.sec.seed s.measM
def State.aliasPub (s : State) : List Byte := sm2Public s.aliasD

/-- The chain of certificate slot 0: length, root digest, and root, issuing authority, identity and alias.
Log entry 65 (DESIGN CHOICE). -/
def State.certChain (s : State) : List Byte :=
  let body := sm3 (s.certs.headD []) ++ s.certs.flatten
    ++ Config.aliasCert (sm2Public (idKey s.sec.seed)) s.aliasPub s.measM
  leBytes 2 (4 + body.length) ++ [0, 0] ++ body

/-- A response that joins the certificate transcript. -/
def State.replyCert (s : State) (via : SpdmVia) (m r : List Byte) : State :=
  let c := s.conn via
  (s.setConn via { c with certs := c.certs ++ m ++ r }).reply via r

/-- GET_DIGESTS (R457): slot 0 alone is provisioned. -/
def execGetDigests (via : SpdmVia) (msg : List Byte) (s : State) : Out? :=
  s.spdm via 0x13 0x81 3 4 msg (fun t => t.replyCert via msg (spdmHead 0x01 0 1 ++ sm3 t.certChain))

/-- GET_CERTIFICATE (R454): a portion of the chain of slot 0. -/
def execGetCertificate (via : SpdmVia) (msg : List Byte) (s : State) : Out? :=
  s.spdm via 0x13 0x82 3 8 msg (fun t =>
    let ch := t.certChain
    let off := fieldAt msg 4 2
    if byteAt msg 2 ≠ 0 ∨ ch.length ≤ off then t.reply via (spdmError 0x01 0)
    else
      let n := Nat.min (fieldAt msg 6 2) (ch.length - off)
      t.replyCert via msg (spdmHead 0x02 0 0 ++ leBytes 2 n ++ leBytes 2 (ch.length - off - n) ++ (ch.drop off).take n))

/-! ## Measurements (R458) -/

/-- The DMTF type of a block: firmware, firmware configuration, hardware configuration. Log entry 217 (PRESUMED). -/
def measType (b : Nat) : Nat := if b ≤ 5 then 1 else if b = 7 then 2 else 3

/-- A measurement block in DMTF form: its digest. Log entry 217 (PRESUMED). -/
def State.measBlock (s : State) (b : Nat) : List Byte :=
  [BitVec.ofNat 8 b, 1] ++ leBytes 2 35 ++ leBytes 1 (measType b) ++ leBytes 2 32 ++ s.meas b

/-- The hash of the measurements that a summary type asks for: the firmware's (1) or all (0xFF).
Log entry 217 (PRESUMED). -/
def State.measSummary (s : State) (ty : Nat) : List Byte :=
  if ty = 0 then [] else sm3 ((upFrom 1 (if ty = 1 then 6 else 10)).flatMap s.measBlock)

/-- What SPDM 1.3 signs: the version prefix, the context, and the digest of the transcript. -/
def spdmSigned (ctx : String) (transcript : List Byte) : List Byte :=
  (List.replicate 4 (ascii "dmtf-spdm-v1.3.*")).flatten ++ List.replicate (36 - ctx.length) 0 ++ ascii ctx ++ sm3 transcript

/-- A signature by the alias key, its nonce drawn from SEC's random source. Log entry 216 (DESIGN CHOICE). -/
def State.signAlias (s : State) (ctx : String) (transcript : List Byte) : List Byte × State :=
  let (k, t) := s.draw 32
  (sm2Sign s.aliasD (beNat k % (sm2N - 1) + 1) s.aliasPub (spdmSigned ctx transcript), t)

/-- CHALLENGE (R457): signed over everything the connection has exchanged. -/
def execChallenge (via : SpdmVia) (msg : List Byte) (s : State) : Out? :=
  s.spdm via 0x13 0x83 3 44 msg (fun t =>
    if byteAt msg 2 ≠ 0 then t.reply via (spdmError 0x01 0)
    else
      let c := t.conn via
      let (nonce, t) := t.draw 32
      let r := spdmHead 0x03 0 1 ++ sm3 t.certChain ++ nonce ++ t.measSummary (byteAt msg 3) ++ [0, 0] ++ (msg.drop 36).take 8
      let (sig, t) := t.signAlias "responder-challenge_auth signing" (c.vca ++ c.certs ++ msg ++ r)
      (t.setConn via { c with certs := [] }).reply via (r ++ sig))

/-- The blocks that an operation of GET_MEASUREMENTS names: none (their number), one, or all. -/
def measAsked (op : Nat) : Option (List Nat) :=
  if op = 0 then some [] else if op = 0xFF then some (upFrom 1 10) else if op ≤ 10 then some [op] else none

/-- GET_MEASUREMENTS (R457, R458): blocks as digests, signed with the alias key when the request asks for it. -/
def execGetMeasurements (via : SpdmVia) (msg : List Byte) (s : State) : Out? :=
  s.spdm via 0x13 0xE0 3 4 msg (fun t =>
    let signed := bit (byteAt msg 2) 0
    match measAsked (byteAt msg 3) with
    | none => t.reply via (spdmError 0x01 0)
    | some bs =>
      if signed ∧ (msg.length < 45 ∨ byteAt msg 36 ≠ 0) then t.reply via (spdmError 0x01 0)
      else
        let c := t.conn via
        let rec_ := bs.flatMap t.measBlock
        let (nonce, t) := t.draw 32
        let ctx := (msg.drop (if signed then 37 else 4)).take 8
        let r := spdmHead 0x60 (if byteAt msg 3 = 0 then 10 else 0) 0 ++ leBytes 1 bs.length ++ leBytes 3 rec_.length ++ rec_
          ++ nonce ++ [0, 0] ++ padTo 8 ctx
        if signed then
          let (sig, t) := t.signAlias "responder-measurements signing" (c.vca ++ c.meas ++ msg ++ r)
          (t.setConn via { c with meas := [] }).reply via (r ++ sig)
        else (t.setConn via { c with meas := c.meas ++ msg ++ r }).reply via r)

/-! ## Sessions (R457) -/

/-- The least half of a session identifier that no session uses. Log entry 218 (PRESUMED). -/
def State.freeHalf (s : State) : Nat :=
  (firstWhere (fun h => !s.sec.sessions.any (fun x => x.id / 65536 == h)) (upFrom 1 (s.sec.sessions.length + 1))).getD 1

/-- KEY_EXCHANGE: SM2 key exchange opens a session. Its secret and the verification data made from it are free values; its
identifier joins the two sides' halves. Log entries 216 (DESIGN CHOICE), 218 (PRESUMED). -/
def execKeyExchange (via : SpdmVia) (msg : List Byte) (s : State) : Out? :=
  s.spdm via 0x13 0xE4 3 106 msg (fun t =>
    if byteAt msg 3 ≠ 0 then t.reply via (spdmError 0x01 0)
    else
      let c := t.conn via
      let half := t.freeHalf
      let (rnd, t) := t.draw 32
      let (eph, t) := t.draw 32
      let (secret, t) := t.draw 32
      let r := spdmHead 0x64 0 0 ++ leBytes 2 half ++ [0, 0] ++ rnd ++ sm2Public (beNat eph % (sm2N - 1) + 1)
        ++ t.measSummary (byteAt msg 2) ++ [0, 0]
      let (sig, t) := t.signAlias "responder-key_exchange_rsp signing" (c.vca ++ sm3 t.certChain ++ msg ++ r)
      let (ver, t) := t.openBytes 32
      let x : SpdmSession :=
        { id := fieldAt msg 4 2 + 65536 * half, via := viaKey via, done := false, secret := secret, reqGen := 0, rspGen := 0,
          seen := t.now }
      ({ t with sec := { t.sec with sessions := t.sec.sessions ++ [x] } }).reply via (r ++ sig ++ ver))

/-- A request inside a session: an unknown session is an error, and so is one whose handshake is at another point. -/
def State.inSession (s : State) (via : SpdmVia) (sid code : Nat) (done : Bool) (m : List Byte)
    (f : State → SpdmSession → State) : Out? :=
  s.spdm via 0x13 code 3 4 m (fun t =>
    match t.session? via sid with
    | none => t.reply via (spdmError 0x02 0)
    | some x => if x.done = done then f (t.setSession { x with seen := t.now }) { x with seen := t.now }
                else t.reply via (spdmError 0x04 0))

/-- FINISH: the handshake completes when the requester's verification data is right. Log entry 216 (DESIGN CHOICE). -/
def execFinish (via : SpdmVia) (sid : Nat) (msg : List Byte) (macOk : Bool) (s : State) : Out? :=
  s.inSession via sid 0xE5 false msg (fun t x =>
    if macOk then (t.setSession { x with done := true }).reply via (spdmHead 0x65 0 0)
    else (t.dropSession x).reply via (spdmError 0x06 0))

/-- HEARTBEAT. -/
def execHeartbeat (via : SpdmVia) (sid : Nat) (msg : List Byte) (s : State) : Out? :=
  s.inSession via sid 0xE8 true msg (fun t _ => t.reply via (spdmHead 0x68 0 0))

/-- KEY_UPDATE: the requester's key (1) or both keys (2) move on; 3 verifies. -/
def execKeyUpdate (via : SpdmVia) (sid : Nat) (msg : List Byte) (s : State) : Out? :=
  s.inSession via sid 0xE9 true msg (fun t x =>
    let op := byteAt msg 2
    if op = 0 ∨ 3 < op then t.reply via (spdmError 0x01 0)
    else
      let x := if op < 3 then { x with reqGen := x.reqGen + 1 } else x
      let x := if op = 2 then { x with rspGen := x.rspGen + 1 } else x
      (t.setSession x).reply via (spdmHead 0x69 op (byteAt msg 3)))

/-- END_SESSION. -/
def execEndSession (via : SpdmVia) (sid : Nat) (msg : List Byte) (s : State) : Out? :=
  s.inSession via sid 0xEC true msg (fun t x => (t.dropSession x).reply via (spdmHead 0x6C 0 0))

/-! ## IDE_KM and TDISP in secured sessions (R426, R457) -/

/-- A message of another protocol in a complete session. -/
def State.carried (s : State) (via : SpdmVia) (sid : Nat) (f : State → State) : Out? :=
  s.served 1 <|
    if !s.viaUp via then .next s
    else
      let t := s.viaFire via
      match t.session? via sid with
      | some x => .next (if x.done then f (t.setSession { x with seen := t.now }) else t.reply via (spdmError 0x04 0))
      | none => .next (t.reply via (spdmError 0x02 0))

/-- HIF_ST.IDE_LINK follows the streams in use; a link stream's selectors lie at 65536 and above.
Log entry 220 (PRESUMED). -/
def State.ideView (s : State) : State :=
  s.put F.HIF_ST_IDE_LINK (if s.sec.ideGo.any (fun k => decide (65536 ≤ k)) then 1 else 0)

/-- IDE_KM: QUERY, KEY_PROG, K_SET_GO and K_SET_STOP. A message is its object identifier, two reserved bytes, the stream, a
reserved byte, key set with direction and sub-stream, the port, then the key of 32 bytes and its initial value.
Log entry 220 (PRESUMED). -/
def execIdeKm (via : SpdmVia) (sid : Nat) (link : Bool) (msg : List Byte) (s : State) : Out? :=
  s.carried via sid (fun t =>
    let key := byteAt msg 5 + 256 * byteAt msg 3 + (if link then 65536 else 0)
    let same := msg.drop 3 |>.take 4
    match byteAt msg 0 with
    | 0 => let (q, t) := t.openBytes 12; t.reply via ([1, 0, 0] ++ q)
    | 2 =>
      if msg.length < 47 then t.reply via (putField ([3, 0, 0] ++ padTo 4 same) 4 1 1)
      else ({ t with sec := { t.sec with ideKeys := t.sec.ideKeys.set key [] ((msg.drop 7).take 40) } }).reply via
        (putField ([3, 0, 0] ++ padTo 4 same) 4 1 0)
    | 4 =>
      let t := if (t.sec.ideKeys.get key []).isEmpty ∨ key ∈ t.sec.ideGo then t
        else { t with sec := { t.sec with ideGo := t.sec.ideGo ++ [key] } }
      t.ideView.reply via ([6, 0, 0] ++ padTo 4 same)
    | 5 => ({ t with sec := { t.sec with ideGo := t.sec.ideGo.filter (· ≠ key) } }).ideView.reply via ([6, 0, 0] ++ padTo 4 same)
    | _ => t.reply via (spdmError 0x01 0))

/-- The state of a TDI: 0 unlocked, 1 locked, 2 RUN. -/
def State.tdiState (s : State) (f : Nat) : Nat :=
  if s.flag F.HIF_FN_ST_TDI_RUN f then 2 else if s.sec.tdiLocked.any (fun x => x.1 == f) then 1 else 0

/-- A TDISP response: version 1.0, its code, two reserved bytes and the interface identifier of the request. -/
def tdispMsg (code : Nat) (m rest : List Byte) : List Byte :=
  [0x10, BitVec.ofNat 8 code, 0, 0] ++ padTo 12 ((m.drop 4).take 12) ++ rest

/-- TDISP_ERROR. Log entry 219 (PRESUMED). -/
def tdispError (m : List Byte) (code : Nat) : List Byte := tdispMsg 0x7F m (leBytes 4 code ++ [0, 0, 0, 0])

/-- A TDI unlocked. Log entry 219 (PRESUMED). -/
def State.tdiUnlock (s : State) (f : Nat) : State :=
  { s with sec := { s.sec with tdiLocked := s.sec.tdiLocked.filter (fun x => x.1 ≠ f) } }

/-- TDISP requests on a VF's interface. Log entry 219 (PRESUMED). -/
def State.tdisp (s : State) (via : SpdmVia) (f : Nat) (m : List Byte) : State :=
  match byteAt m 1 with
  | 0x81 => s.reply via (tdispMsg 0x01 m [1, 0x10])
  | 0x82 => let (b, t) := s.openBytes 28; t.reply via (tdispMsg 0x02 m b)
  | 0x83 =>
    if s.tdiState f ≠ 0 then s.reply via (tdispError m 0x0004)
    else
      let (n, t) := s.draw 32
      ({ t with sec := { t.sec with tdiLocked := t.sec.tdiLocked ++ [(f, n)] } }).reply via (tdispMsg 0x03 m n)
  | 0x84 =>
    if s.tdiState f = 0 then s.reply via (tdispError m 0x0004)
    else let (b, t) := s.openBytes 24; t.reply via (tdispMsg 0x04 m b)
  | 0x85 => s.reply via (tdispMsg 0x05 m (leBytes 1 (s.tdiState f)))
  | 0x86 =>
    match firstWhere (fun (x : Nat × List Byte) => x.1 == f) s.sec.tdiLocked with
    | none => s.reply via (tdispError m 0x0004)
    | some x =>
      if (m.drop 16).take 32 = x.2 then
        (((s.tdiUnlock f).put F.HIF_FN_ST_TDI_RUN 1 f).measured s).reply via (tdispMsg 0x06 m [])
      else s.reply via (tdispError m 0x0102)
  | 0x87 =>
    let t := if s.flag F.HIF_FN_ST_TDI_RUN f then (s.tdiLeaves f).measured s else s
    (t.tdiUnlock f).reply via (tdispMsg 0x07 m [])
  | _ => s.reply via (tdispError m 0x0007)

/-- TDISP (R426, R457): lock, start and stop change a VF's TDI state; the PF is no TDI. Log entry 219 (PRESUMED). -/
def execTdisp (via : SpdmVia) (sid : Nat) (f : Fin 64) (msg : List Byte) (s : State) : Out? :=
  s.carried via sid (fun t =>
    if byteAt msg 0 ≠ 0x10 then t.reply via (tdispError msg 0x0041)
    else if f.val = 0 then t.reply via (tdispError msg 0x0101)
    else t.tdisp via f.val msg)

end Sys2Proof.Machine
end

