-- ==== Sys2Proof/Machine/Registers.lean ====
section
/-! DEFINITION. Register writes by offset (R5 to R13, R568 to R571, R580): every register, each field under its access
code, with what the write sets going. -/

namespace Sys2Proof.Machine

/-! ## Access codes -/

/-- A write under the access codes: S fields change from the S world alone, and a write from the N world that would change
one is a world violation (R580). -/
def State.codeWrite (s : State) (src : Src) (r : RegId) (i j : Nat) (v : Word) : State :=
  let own := s.plainWrite src r i j v
  match srcWorld src with
  | .s => own
  | .n => if s.plainWrite (.fw .mgt false) r i j v = own then own else own.worldViol 1 (srcCode src) (r.addr i j)

/-! ## What follows from a write -/

/-- The gatherer's selection follows EN, PRIO and BP (R484). -/
def State.evgWritten (s : State) (p : Nat) : State := (s.evgRunView p).evgTopView p

/-- What a plain write of a register sets going. -/
def State.afterWrite (s : State) (r : RegId) (i : Nat) : State :=
  match r with
  | .EVG_CTL | .EVG_BP | .EVG_PRIO | .EVG_EN => s.evgWritten i
  | .LNT_MASK => s.wr .LNT_MASK (s.rd .LNT_MASK i ||| 5) i
  | .BC_VF => s.vfCheck.lkView
  | .BC_CL => s.lkView
  | .BC_RAIL_ST => s.ibiView
  | .BC_FW_BANK => { s with boot := { s.boot with retNow := true } }
  | _ => s

/-- The function whose held bit stands at a bit of a register. -/
def ctlOfHeld (r : RegId) (b : Nat) : Option Ctl := firstWhere (fun c => c.held.reg == r && c.held.lo == b) Ctl.all

/-- A 1 written to a held bit: the bit clears and the expert registers are reloaded (R11); a bit that guards expert fields of
access S clears from the S world alone (R580). -/
def State.heldOne (s : State) (src : Src) (c : Ctl) (i : Nat) : State :=
  if c.guarded && srcWorld src == .n then s.worldViol 1 (srcCode src) (c.held.reg.addr i 0)
  else if s.flag c.held i then
    let t := s.clearHeld c i
    c.experts.foldl (fun t r => t.afterWrite r i) t
  else s

/-- The held bits that a word writes 1 to. -/
def State.heldBits (s : State) (src : Src) (r : RegId) (i : Nat) (v : Word) : State :=
  forEach (Ctl.all.filter (fun c => c.held.reg == r && bit v.toNat c.held.lo)) (fun c t => t.heldOne src c i) s

/-- The word of a write without its held bits. -/
def maskHeld (r : RegId) (v : Word) : Word :=
  Ctl.all.foldl (fun w c => if c.held.reg = r then BitVec.ofNat 32 (clrBit w.toNat c.held.lo) else w) v

/-! ## Registers with a rule of their own -/

/-- A write of an expert register (R11, R12): a host's write, or one on its behalf, sets EXPERT_HELD when it sets a field;
firmware's own adaptation makes none while EXPERT_HELD is set. Log entry 23 (DEDUCED). -/
def State.expertWrite (s : State) (src : Src) (c : Ctl) (r : RegId) (i j : Nat) (v : Word) : State :=
  if !srcOnHost src && s.flag c.held (c.inst i) then s
  else if c.guarded && srcWorld src == .n then s.codeWrite src r i j v
  else
    let t := (s.codeWrite src r i j v).afterWrite r i
    if srcOnHost src then t.setHeld c (c.inst i) else t

/-- ME_REP_ROW or ME_REP_COL (R66, R67): accepted before READY or while the core is fenced, else REP_REJ. -/
def State.writeRep (s : State) (src : Src) (e : Nat) (col : Bool) (w : Nat) (v : Word) : State :=
  s.secure src ((if col then RegId.ME_REP_COL else RegId.ME_REP_ROW).addr e w) (fun t =>
    if !t.flag F.BC_BOOT_ST_READY || t.flag F.ME_STATUS_CORE_FENCED e then t.setRepair e col w v.toNat
    else t.put F.ME_STATUS_REP_REJ 1 e)

/-- IKF_MAPe (R352): accepted while LOCK is 0, else MAP_REJ. -/
def State.writeMap (s : State) (src : Src) (e : Nat) (v : Word) : State :=
  s.secure src (RegId.IKF_MAP.addr e 0) (fun t =>
    if t.flag F.IKF_MAP_CTL_LOCK then t.put F.IKF_MAP_CTL_MAP_REJ 1 else t.setMap e v)

/-- ME_REP (R66). -/
def execMeRep (src : Src) (e : Fin 32) (col : Bool) (w : Fin 8) (v : Word) (s : State) : Out? :=
  .next (s.reach src (if col then .ME_REP_COL else .ME_REP_ROW) e.val (fun t => t.writeRep src e.val col w.val v))

/-- IKF_MAP (R352). -/
def execIkfMap (src : Src) (e : Fin 256) (v : Word) (s : State) : Out? :=
  .next (s.reach src .IKF_MAP e.val (fun t => t.writeMap src e.val v))

/-! ## By offset -/

/-- The BAR0 offset of the device that a requester's own offset reaches: a VF's BAR0 maps its HIF_ function part (R424,
R568). -/
def devOffset (src : Src) (off : Nat) : Nat :=
  match src with
  | .fn f => if f.val = 0 then off else if off < 256 then 0x11000 + 256 * f.val + off else 0x4000000
  | .fw _ _ => off

/-- EXPERT_REGISTER_WRITE (R11). -/
def execExpertRegisterWrite (src : Src) (off : Nat) (v : Word) (s : State) : Out? :=
  match regAt (devOffset src off) with
  | none => .next s
  | some (r, i, j) =>
    match ctlOfExpert r with
    | none => .next s
    | some c => .next (s.reach src r i (fun t => t.expertWrite src c r i j v))

/-- EXPERT_HELD_CLEAR (R11): 1 written to the held bit at a bit of a register. Log entry 22 (DEDUCED). -/
def execExpertHeldClear (src : Src) (off : Nat) (b : Fin 32) (s : State) : Out? :=
  match regAt (devOffset src off) with
  | none => .next s
  | some (r, i, _) =>
    match ctlOfHeld r b.val with
    | none => .next s
    | some c => .next (s.reach src r i (fun t => t.heldOne src c i))

/-- A processor by number. -/
def procOf (p : Nat) : Proc :=
  match p with
  | 0 => .mgt | 1 => .sec | 2 => .fab | 3 => .sto | _ => .cmd

/-- A write to a register that does more than its access codes say, as the register's own row gives it. -/
def State.actWrite (s : State) (src : Src) (r : RegId) (i j : Nat) (v : Word) : Option Out? :=
  let one := bit v.toNat 0
  let fn := Fin.ofNat 64 i
  match r with
  | .ME_CNT_CLR =>
    let t := if one then s.clearWrite src r i [F.ME_CYC_BEAT_COUNT, F.ME_CYC_FLYWAIT_COUNT, F.ME_CYC_FILL_COUNT] else s
    some (.next (if bit v.toNat 1 then t.clearWrite src r i [F.ME_CHK_CNT_RECOV, F.ME_CHK_CNT_ESC, F.ME_CHK_CNT_SKIP] else t))
  | .ME_REP_ROW => some (.next (s.reach src r i (fun t => t.writeRep src i false j v)))
  | .ME_REP_COL => some (.next (s.reach src r i (fun t => t.writeRep src i true j v)))
  | .IKF_MAP => some (.next (s.reach src r i (fun t => t.writeMap src i v)))
  | .CO_CNT_CLR => some (if one then execCoCntClr src (Fin.ofNat 16 i) s else .next s)
  | .IKF_CLR => some (if one then execIkfClr src s else .next s)
  | .NAND_CLR => some (if one then execNandClr src s else .next s)
  | .HIF_FN_QBASE => some (execHifFnQbase src fn v s)
  | .HIF_FN_MSIX => some (execHifFnMsix src fn v s)
  | .HIF_FN_CTL => some (.next (s.reach src r i (fun t => t.writeFnCtl i v)))
  | .HIF_WIN_LO => some (.next (s.reach src r i (fun t => t.writeWinLo i j v)))
  | .SEC_WORLD_CORE => some (execSecWorldCore src v s)
  | .SEC_WORLD_CL => some (execSecWorldCl src v s)
  | .SEC_DBG => some (execSecDbg src v s)
  | .SEC_REG_LO => some (execSecReg src fn false v s)
  | .SEC_REG_HI => some (execSecReg src fn true v s)
  | .BC_FW_KICK => some (execBcFwKick src v s)
  | .EVG_TAKE => some (execEvgTake src (procOf i) v s)
  | .EVG_EOI => some (execEvgEoi src (procOf i) v s)
  | .EVG_PSET => some (execEvgPset src (procOf i) (Fin.ofNat 32 j) v s)
  | .EVG_PCLR => some (execEvgPclr src (procOf i) (Fin.ofNat 32 j) v s)
  | _ => none

/-- A write to register `(i, j)` that reaches the device. Log entry 19 (DEDUCED). -/
def State.regWrite (s : State) (src : Src) (r : RegId) (i j : Nat) (v : Word) : Out? :=
  match s.actWrite src r i j v with
  | some o => o
  | none =>
    if !(clearedBy r).isEmpty then .next (if bit v.toNat 0 then s.clearWrite src r i (clearedBy r) else s)
    else match ctlOfBasic r, ctlOfExpert r with
      | some c, _ => .next (if c.guarded then s.basicWriteS src c v else s.basicWrite src c i v)
      | none, some c =>
        if r = .BC_CL ∧ bit v.toNat F.BC_CL_WAKE.lo = true then
          match execWake src (Fin.ofNat 8 i) s with
          | .next t => .next (t.reach src r i (fun u => u.expertWrite src c r i j v))
          | o => o
        else .next (s.reach src r i (fun t => t.expertWrite src c r i j v))
      | none, none =>
        .next (s.reach src r i (fun t => ((t.codeWrite src r i j (maskHeld r v)).heldBits src r i v).afterWrite r i))

/-- REGISTER_WRITE (R13, R569): a word written at an offset of the requester's BAR0. An offset that holds no register takes
none; a firmware processor's access to one is a processor fault (Table 23.2). Log entry 19 (DEDUCED). -/
def execRegisterWrite (src : Src) (off : Nat) (v : Word) (s : State) : Out? :=
  if off % 4 ≠ 0 then execNarrowWrite src off s
  else match regAt (devOffset src off) with
    | some (r, i, j) => s.regWrite src r i j v
    | none =>
      match src with
      | .fn _ => .next s
      | .fw p _ => execProcessorFault p s

end Sys2Proof.Machine
end

