-- ==== Sys2Proof/Machine/Dispatch.lean ====
section
/-! DEFINITION. The dispatch: one arm for each command, each a direct call of that command's meaning. -/

namespace Sys2Proof.Machine

def exec (i : Instr) (s : State) : Host.Outcome State Fault Refusal :=
  match i with
  | .registerWrite src off v => Sys2Proof.Machine.execRegisterWrite src off v s
  | .narrowWrite src off => Sys2Proof.Machine.execNarrowWrite src off s
  | .expertRegisterWrite src off v => Sys2Proof.Machine.execExpertRegisterWrite src off v s
  | .expertHeldClear src off b => Sys2Proof.Machine.execExpertHeldClear src off b s
  | .meFill src e v => Sys2Proof.Machine.execMeFill src e v s
  | .meChk src e v => Sys2Proof.Machine.execMeChk src e v s
  | .drTally src e v => Sys2Proof.Machine.execDrTally src e v s
  | .coNum src n v => Sys2Proof.Machine.execCoNum src n v s
  | .cmdNumw src v => Sys2Proof.Machine.execCmdNumw src v s
  | .coCnt src n v => Sys2Proof.Machine.execCoCnt src n v s
  | .cmdStrike src v => Sys2Proof.Machine.execCmdStrike src v s
  | .cmdSvc src v => Sys2Proof.Machine.execCmdSvc src v s
  | .mdSc src m v => Sys2Proof.Machine.execMdSc src m v s
  | .clPool src k v => Sys2Proof.Machine.execClPool src k v s
  | .mdPf src m v => Sys2Proof.Machine.execMdPf src m v s
  | .hbmScrub src h v => Sys2Proof.Machine.execHbmScrub src h v s
  | .clNet src k v => Sys2Proof.Machine.execClNet src k v s
  | .mdMerge src m v => Sys2Proof.Machine.execMdMerge src m v s
  | .ikfArb src v => Sys2Proof.Machine.execIkfArb src v s
  | .ikfRto src v => Sys2Proof.Machine.execIkfRto src v s
  | .ikfDeg src v => Sys2Proof.Machine.execIkfDeg src v s
  | .ikfRed src v => Sys2Proof.Machine.execIkfRed src v s
  | .cmdBar src v => Sys2Proof.Machine.execCmdBar src v s
  | .stoCkpt src v => Sys2Proof.Machine.execStoCkpt src v s
  | .stoScrub src v => Sys2Proof.Machine.execStoScrub src v s
  | .nandIf src v => Sys2Proof.Machine.execNandIf src v s
  | .hifAge src v => Sys2Proof.Machine.execHifAge src v s
  | .secWv src v => Sys2Proof.Machine.execSecWv src v s
  | .bcFwWd src v => Sys2Proof.Machine.execBcFwWd src v s
  | .lntLvl src p v => Sys2Proof.Machine.execLntLvl src p v s
  | .bcPwr src v => Sys2Proof.Machine.execBcPwr src v s
  | .bcSleep src v => Sys2Proof.Machine.execBcSleep src v s
  | .bcBoot src v => Sys2Proof.Machine.execBcBoot src v s
  | .cmdFlt src v => Sys2Proof.Machine.execCmdFlt src v s
  | .clrCyc src e => Sys2Proof.Machine.execClrCyc src e s
  | .clrChk src e => Sys2Proof.Machine.execClrChk src e s
  | .drCntClr src e => Sys2Proof.Machine.execDrCntClr src e s
  | .veCntClr src n => Sys2Proof.Machine.execVeCntClr src n s
  | .coNumClr src n => Sys2Proof.Machine.execCoNumClr src n s
  | .coCntClr src n => Sys2Proof.Machine.execCoCntClr src n s
  | .mdCntClr src m => Sys2Proof.Machine.execMdCntClr src m s
  | .hbmCntClr src h => Sys2Proof.Machine.execHbmCntClr src h s
  | .clNetClr src k => Sys2Proof.Machine.execClNetClr src k s
  | .ikfClr src => Sys2Proof.Machine.execIkfClr src s
  | .ikfPclr src p => Sys2Proof.Machine.execIkfPclr src p s
  | .ikfRedClr src => Sys2Proof.Machine.execIkfRedClr src s
  | .stoClr src => Sys2Proof.Machine.execStoClr src s
  | .nandClr src => Sys2Proof.Machine.execNandClr src s
  | .secWvClr src => Sys2Proof.Machine.execSecWvClr src s
  | .bcLkClr src => Sys2Proof.Machine.execBcLkClr src s
  | .cmdFltClr src => Sys2Proof.Machine.execCmdFltClr src s
  | .clEccClr src k => Sys2Proof.Machine.execClEccClr src k s
  | .bcLcntLo src => Sys2Proof.Machine.execBcLcntLo src s
  | .bcEnergyLo src => Sys2Proof.Machine.execBcEnergyLo src s
  | .bcRailPeakRead src d => Sys2Proof.Machine.execBcRailPeakRead src d s
  | .meRep src e col w v => Sys2Proof.Machine.execMeRep src e col w v s
  | .ikfMap src e v => Sys2Proof.Machine.execIkfMap src e v s
  | .secWorldCore src v => Sys2Proof.Machine.execSecWorldCore src v s
  | .secWorldCl src v => Sys2Proof.Machine.execSecWorldCl src v s
  | .secReg src ix hi v => Sys2Proof.Machine.execSecReg src ix hi v s
  | .regionZeroingDone ix => Sys2Proof.Machine.execRegionZeroingDone ix s
  | .secDbg src v => Sys2Proof.Machine.execSecDbg src v s
  | .bcFwKick src v => Sys2Proof.Machine.execBcFwKick src v s
  | .wake src k => Sys2Proof.Machine.execWake src k s
  | .evgTake src p v => Sys2Proof.Machine.execEvgTake src p v s
  | .evgEoi src p v => Sys2Proof.Machine.execEvgEoi src p v s
  | .evgPset src p ix v => Sys2Proof.Machine.execEvgPset src p ix v s
  | .evgPclr src p ix v => Sys2Proof.Machine.execEvgPclr src p ix v s
  | .hifFnQbase src f v => Sys2Proof.Machine.execHifFnQbase src f v s
  | .admEnable src f => Sys2Proof.Machine.execAdmEnable src f s
  | .admDisable src f => Sys2Proof.Machine.execAdmDisable src f s
  | .hifFnMsix src f v => Sys2Proof.Machine.execHifFnMsix src f v s
  | .msixUnmask f vec => Sys2Proof.Machine.execMsixUnmask f vec s
  | .doorbell src ide q ix => Sys2Proof.Machine.execDoorbell src ide q ix s
  | .bar4Access f ide off acc => Sys2Proof.Machine.execBar4Access f ide off acc s
  | .nop n sl => Sys2Proof.Machine.execNop n sl s
  | .mma n sl => Sys2Proof.Machine.execMma n sl s
  | .mmq n sl => Sys2Proof.Machine.execMmq n sl s
  | .sld n sl => Sys2Proof.Machine.execSld n sl s
  | .vop n sl => Sys2Proof.Machine.execVop n sl s
  | .rdx n sl => Sys2Proof.Machine.execRdx n sl s
  | .drc n sl => Sys2Proof.Machine.execDrc n sl s
  | .drcTablesLoaded e => Sys2Proof.Machine.execDrcTablesLoaded e s
  | .tally n sl => Sys2Proof.Machine.execTally n sl s
  | .scaleCommit n sl => Sys2Proof.Machine.execScaleCommit n sl s
  | .scaleDiscard n sl => Sys2Proof.Machine.execScaleDiscard n sl s
  | .setEInit n sl => Sys2Proof.Machine.execSetEInit n sl s
  | .setEFix n sl => Sys2Proof.Machine.execSetEFix n sl s
  | .ldt n sl => Sys2Proof.Machine.execLdt n sl s
  | .sttFromPort n sl => Sys2Proof.Machine.execSttFromPort n sl s
  | .sttFromImage n sl => Sys2Proof.Machine.execSttFromImage n sl s
  | .sttFromDrain n sl => Sys2Proof.Machine.execSttFromDrain n sl s
  | .snd n sl => Sys2Proof.Machine.execSnd n sl s
  | .rcvCopy n sl => Sys2Proof.Machine.execRcvCopy n sl s
  | .rcvDiscard n sl => Sys2Proof.Machine.execRcvDiscard n sl s
  | .put n sl => Sys2Proof.Machine.execPut n sl s
  | .get n sl => Sys2Proof.Machine.execGet n sl s
  | .sct n sl => Sys2Proof.Machine.execSct n sl s
  | .atm n sl => Sys2Proof.Machine.execAtm n sl s
  | .gat n sl => Sys2Proof.Machine.execGat n sl s
  | .chn n sl => Sys2Proof.Machine.execChn n sl s
  | .prmReceive n sl => Sys2Proof.Machine.execPrmReceive n sl s
  | .prmCommit n sl => Sys2Proof.Machine.execPrmCommit n sl s
  | .upd n sl => Sys2Proof.Machine.execUpd n sl s
  | .loop n sl => Sys2Proof.Machine.execLoop n sl s
  | .hold n sl => Sys2Proof.Machine.execHold n sl s
  | .wait n sl => Sys2Proof.Machine.execWait n sl s
  | .pegSend n sl => Sys2Proof.Machine.execPegSend n sl s
  | .pegTake n sl => Sys2Proof.Machine.execPegTake n sl s
  | .steer n sl => Sys2Proof.Machine.execSteer n sl s
  | .fence n sl => Sys2Proof.Machine.execFence n sl s
  | .beatIssue e => Sys2Proof.Machine.execBeatIssue e s
  | .beatCheck e faults adder => Sys2Proof.Machine.execBeatCheck e faults adder s
  | .flyLoadStart n => Sys2Proof.Machine.execFlyLoadStart n s
  | .flyLoadDone n => Sys2Proof.Machine.execFlyLoadDone n s
  | .fillerBeat e => Sys2Proof.Machine.execFillerBeat e s
  | .fillerRampDown e => Sys2Proof.Machine.execFillerRampDown e s
  | .fillerRampStep e => Sys2Proof.Machine.execFillerRampStep e s
  | .psbRowRead e => Sys2Proof.Machine.execPsbRowRead e s
  | .chainTakesEffect e => Sys2Proof.Machine.execChainTakesEffect e s
  | .tileRelease e => Sys2Proof.Machine.execTileRelease e s
  | .overflowRescale e => Sys2Proof.Machine.execOverflowRescale e s
  | .scaleDerive e => Sys2Proof.Machine.execScaleDerive e s
  | .rawMaxAtomic e => Sys2Proof.Machine.execRawMaxAtomic e s
  | .tallyRecordExamine => Sys2Proof.Machine.execTallyRecordExamine s
  | .tileArrival sid corrupt => Sys2Proof.Machine.execTileArrival sid corrupt s
  | .pegArrival sid => Sys2Proof.Machine.execPegArrival sid s
  | .creditReturn sid => Sys2Proof.Machine.execCreditReturn sid s
  | .pitch img reds => Sys2Proof.Machine.execPitch img reds s
  | .sectionComplete => Sys2Proof.Machine.execSectionComplete s
  | .earlyStrike cut => Sys2Proof.Machine.execEarlyStrike cut s
  | .cut => Sys2Proof.Machine.execCut s
  | .strikeSave => Sys2Proof.Machine.execStrikeSave s
  | .sectionStall => Sys2Proof.Machine.execSectionStall s
  | .fetchIssue sid => Sys2Proof.Machine.execFetchIssue sid s
  | .fetchTileArrival sid => Sys2Proof.Machine.execFetchTileArrival sid s
  | .patrolScrub hbm k addr bad => Sys2Proof.Machine.execPatrolScrub hbm k addr bad s
  | .prefetch => Sys2Proof.Machine.execPrefetch s
  | .poolResize => Sys2Proof.Machine.execPoolResize s
  | .sliceRead m core addr cycle gone err => Sys2Proof.Machine.execSliceRead m core addr cycle gone err s
  | .atomicExecute m => Sys2Proof.Machine.execAtomicExecute m s
  | .packetForward k enter => Sys2Proof.Machine.execPacketForward k enter s
  | .linkRetry k link twice => Sys2Proof.Machine.execLinkRetry k link twice s
  | .meshRetrain k link mods => Sys2Proof.Machine.execMeshRetrain k link mods s
  | .inNetworkAdd k => Sys2Proof.Machine.execInNetworkAdd k s
  | .flitReceive p flit uncorr cor hops => Sys2Proof.Machine.execFlitReceive p flit uncorr cor hops s
  | .nakResend p => Sys2Proof.Machine.execNakResend p s
  | .idleFlit p => Sys2Proof.Machine.execIdleFlit p s
  | .portRetrain p pass => Sys2Proof.Machine.execPortRetrain p pass s
  | .laneFailing p failing => Sys2Proof.Machine.execLaneFailing p failing s
  | .portDown p failed => Sys2Proof.Machine.execPortDown p failed s
  | .fabricForward p => Sys2Proof.Machine.execFabricForward p s
  | .fabricPacketReceive => Sys2Proof.Machine.execFabricPacketReceive s
  | .read => Sys2Proof.Machine.execRead s
  | .write => Sys2Proof.Machine.execWrite s
  | .atomic => Sys2Proof.Machine.execAtomic s
  | .gather => Sys2Proof.Machine.execGather s
  | .readRsp => Sys2Proof.Machine.execReadRsp s
  | .writeAck => Sys2Proof.Machine.execWriteAck s
  | .atomicRsp => Sys2Proof.Machine.execAtomicRsp s
  | .refuse => Sys2Proof.Machine.execRefuse s
  | .gatherHold => Sys2Proof.Machine.execGatherHold s
  | .gatherEpoch => Sys2Proof.Machine.execGatherEpoch s
  | .tile => Sys2Proof.Machine.execTile s
  | .credit => Sys2Proof.Machine.execCredit s
  | .redSeg => Sys2Proof.Machine.execRedSeg s
  | .bucketIssue queue => Sys2Proof.Machine.execBucketIssue queue s
  | .forfeit queue => Sys2Proof.Machine.execForfeit queue s
  | .redSkip queue rank => Sys2Proof.Machine.execRedSkip queue rank s
  | .redStall queue => Sys2Proof.Machine.execRedStall queue s
  | .requestTimeout => Sys2Proof.Machine.execRequestTimeout s
  | .barrierReport => Sys2Proof.Machine.execBarrierReport s
  | .barrierRelease => Sys2Proof.Machine.execBarrierRelease s
  | .stepReady => Sys2Proof.Machine.execStepReady s
  | .barrierTimeout => Sys2Proof.Machine.execBarrierTimeout s
  | .stepCommit => Sys2Proof.Machine.execStepCommit s
  | .stepAbort => Sys2Proof.Machine.execStepAbort s
  | .stepStall => Sys2Proof.Machine.execStepStall s
  | .replayTimeout => Sys2Proof.Machine.execReplayTimeout s
  | .pegMessage => Sys2Proof.Machine.execPegMessage s
  | .sectStrike => Sys2Proof.Machine.execSectStrike s
  | .fabMgmt => Sys2Proof.Machine.execFabMgmt s
  | .checkpointPlanReceive => Sys2Proof.Machine.execCheckpointPlanReceive s
  | .buddyDone => Sys2Proof.Machine.execBuddyDone s
  | .secMgmt => Sys2Proof.Machine.execSecMgmt s
  | .ckptDone neighbour => Sys2Proof.Machine.execCkptDone neighbour s
  | .nandProgramFail blk erase => Sys2Proof.Machine.execNandProgramFail blk erase s
  | .retentionScrub blk cor need => Sys2Proof.Machine.execRetentionScrub blk cor need s
  | .wearLevelMove inNative => Sys2Proof.Machine.execWearLevelMove inNative s
  | .snapshotCopy => Sys2Proof.Machine.execSnapshotCopy s
  | .snapshotExport => Sys2Proof.Machine.execSnapshotExport s
  | .hsqFetch host => Sys2Proof.Machine.execHsqFetch host s
  | .createQ sq cid host => Sys2Proof.Machine.execCreateQ sq cid host s
  | .deleteQ sq cid => Sys2Proof.Machine.execDeleteQ sq cid s
  | .jobStart sq cid host cores cls regs attest => Sys2Proof.Machine.execJobStart sq cid host cores cls regs attest s
  | .step sq cid host => Sys2Proof.Machine.execStep sq cid host s
  | .jobRestart sq cid list maps self pull attest => Sys2Proof.Machine.execJobRestart sq cid list maps self pull attest s
  | .jobEnd sq cid => Sys2Proof.Machine.execJobEnd sq cid s
  | .snapshot sq cid => Sys2Proof.Machine.execSnapshot sq cid s
  | .copy sq cid data => Sys2Proof.Machine.execCopy sq cid data s
  | .setQuota sq cid => Sys2Proof.Machine.execSetQuota sq cid s
  | .agePromotion => Sys2Proof.Machine.execAgePromotion s
  | .fsqSend host => Sys2Proof.Machine.execFsqSend host s
  | .functionLevelReset f => Sys2Proof.Machine.execFunctionLevelReset f s
  | .tdiLeaveRun f => Sys2Proof.Machine.execTdiLeaveRun f s
  | .getVersion via msg => Sys2Proof.Machine.execGetVersion via msg s
  | .getCapabilities via msg => Sys2Proof.Machine.execGetCapabilities via msg s
  | .negotiateAlgorithms via msg => Sys2Proof.Machine.execNegotiateAlgorithms via msg s
  | .getDigests via msg => Sys2Proof.Machine.execGetDigests via msg s
  | .getCertificate via msg => Sys2Proof.Machine.execGetCertificate via msg s
  | .challenge via msg => Sys2Proof.Machine.execChallenge via msg s
  | .getMeasurements via msg => Sys2Proof.Machine.execGetMeasurements via msg s
  | .keyExchange via msg => Sys2Proof.Machine.execKeyExchange via msg s
  | .finish via sid msg macOk => Sys2Proof.Machine.execFinish via sid msg macOk s
  | .heartbeat via sid msg => Sys2Proof.Machine.execHeartbeat via sid msg s
  | .keyUpdate via sid msg => Sys2Proof.Machine.execKeyUpdate via sid msg s
  | .endSession via sid msg => Sys2Proof.Machine.execEndSession via sid msg s
  | .ideKm via sid link msg => Sys2Proof.Machine.execIdeKm via sid link msg s
  | .tdisp via sid f msg => Sys2Proof.Machine.execTdisp via sid f msg s
  | .watchdogExpiry p => Sys2Proof.Machine.execWatchdogExpiry p s
  | .wdHalf p => Sys2Proof.Machine.execWdHalf p s
  | .processorFault p => Sys2Proof.Machine.execProcessorFault p s
  | .peerUp p => Sys2Proof.Machine.execPeerUp p s
  | .stage host img => Sys2Proof.Machine.execStage host img s
  | .activate host => Sys2Proof.Machine.execActivate host s
  | .restart host => Sys2Proof.Machine.execRestart host s
  | .logRead host => Sys2Proof.Machine.execLogRead host s
  | .activationRelease => Sys2Proof.Machine.execActivationRelease s
  | .eventSourceFire p src => Sys2Proof.Machine.execEventSourceFire p src s
  | .gathererInterrupt p => Sys2Proof.Machine.execGathererInterrupt p s
  | .timer p ix => Sys2Proof.Machine.execTimer p ix s
  | .tracePoint p cls point args => Sys2Proof.Machine.execTracePoint p cls point args s
  | .dozeEntry k => Sys2Proof.Machine.execDozeEntry k s
  | .dozeExit k => Sys2Proof.Machine.execDozeExit k s
  | .bivouacEntry k => Sys2Proof.Machine.execBivouacEntry k s
  | .bivouacExit k => Sys2Proof.Machine.execBivouacExit k s
  | .mgtWindow => Sys2Proof.Machine.execMgtWindow s
  | .vfChange k => Sys2Proof.Machine.execVfChange k s
  | .telemetrySample temps amps uj cl => Sys2Proof.Machine.execTelemetrySample temps amps uj cl s
  | .thermalThrottleStep c => Sys2Proof.Machine.execThermalThrottleStep c s
  | .thermalReleaseStep c => Sys2Proof.Machine.execThermalReleaseStep c s
  | .thermalFast k => Sys2Proof.Machine.execThermalFast k s
  | .thermalTrip => Sys2Proof.Machine.execThermalTrip s
  | .railCurrentLimit d amps => Sys2Proof.Machine.execRailCurrentLimit d amps s
  | .railCurrentRelease d => Sys2Proof.Machine.execRailCurrentRelease d s
  | .packagePowerWindow => Sys2Proof.Machine.execPackagePowerWindow s
  | .pwrbrkNAssert => Sys2Proof.Machine.execPwrbrkNAssert s
  | .pwrbrkNDeassert => Sys2Proof.Machine.execPwrbrkNDeassert s
  | .selfRefreshEntry => Sys2Proof.Machine.execSelfRefreshEntry s
  | .selfRefreshExit => Sys2Proof.Machine.execSelfRefreshExit s
  | .islandPowerUp asel => Sys2Proof.Machine.execIslandPowerUp asel s
  | .perstNDeassert b => Sys2Proof.Machine.execPerstNDeassert b s
  | .perstNAssert => Sys2Proof.Machine.execPerstNAssert s
  | .ready => Sys2Proof.Machine.execReady s
  | .fabWaitExpiry => Sys2Proof.Machine.execFabWaitExpiry s
  | .pcieLinkUp width rate flit => Sys2Proof.Machine.execPcieLinkUp width rate flit s
  | .pcieLinkTimeout => Sys2Proof.Machine.execPcieLinkTimeout s
  | .retainedBankWrite err => Sys2Proof.Machine.execRetainedBankWrite err s
  | .norWriteRetry err => Sys2Proof.Machine.execNorWriteRetry err s
  | .railLost r => Sys2Proof.Machine.execRailLost r s
  | .sectionReplay => Sys2Proof.Machine.execSectionReplay s
  | .coreTested n reps un0 un1 hard => Sys2Proof.Machine.execCoreTested n reps un0 un1 hard s
  | .i3cPrivateRead => Sys2Proof.Machine.execI3cPrivateRead s
  | .i3cAddressAssign addr => Sys2Proof.Machine.execI3cAddressAssign addr s
  | .jtagTapAccess op => Sys2Proof.Machine.execJtagTapAccess op s
  | .trstNAssert => Sys2Proof.Machine.execTrstNAssert s
  | .localCounterTick => Sys2Proof.Machine.execLocalCounterTick s
  | .clusterClockCycle k errs => Sys2Proof.Machine.execClusterClockCycle k errs s
  | .islandPowerLoss => Sys2Proof.Machine.execIslandPowerLoss s
  | .railGood r => Sys2Proof.Machine.execRailGood r s
  | .pcieLinkDown => Sys2Proof.Machine.execPcieLinkDown s
  | .nandCommandDone c => Sys2Proof.Machine.execNandCommandDone c s

end Sys2Proof.Machine
end

