-- ==== Sys2Proof/Safety.lean ====
section
/-! DEFINITION. What counts as a safe state and a safe step, in the terms that the statements use. -/

namespace Sys2Proof.Machine

/-- The canonical form of memory: addresses strictly rising, no byte that reads as an unlisted one does. -/
def Memory.wf (m : Tab Byte) : Bool := m.wf (fun _ => 0)

/-- The canonical form of the register file. -/
def Registers.wf (t : Tab Word) : Bool := t.wf resetAt

/-- While TRST_N is low the TAP is held in reset (R560). -/
def State.tapHeld (s : State) : Bool := s.pins.trstN || s.pins.tap == 0

/-- A step that goes on. -/
def State.goesOn (s : State) : Bool :=
  match step s with
  | .next _ => true
  | .fault _ => false
  | .refused _ => false

end Sys2Proof.Machine
end

