-- ==== Sys2Proof/WellFormed.lean ====
section
/-! DEFINITION. What a well-formed command is: operands within the widths that the manual gives them. A command outside
them cannot reach the block. -/

namespace Sys2Proof

/-- A host access through BAR4 moves at least one byte. -/
def HostAccess.wf : HostAccess → Bool
  | .read len => decide (0 < len)
  | .write data => !data.isEmpty

/-- An error in a column output: vectors 0 to 3 of a beat, columns 0 to 511 or the check lane. -/
def ColFault.wf (f : ColFault) : Bool := decide (f.vec < 4) && decide (f.col ≤ 512)

/-- What a start-up finds names only units that exist: 32 link modules of the package, six ports, 16 NAND channels, engines
and cores of the device. -/
def StartIn.wf (b : StartIn) : Bool :=
  decide (b.ports.length = 6) && decide (b.flash.length = 16) && b.engBad.all (fun e => decide (e < 32))
    && b.coreBad.all (fun n => decide (n < 16)) && b.repairs.all (fun r => decide (r.1 < 32) && decide (r.2.2.1 < 8))

/-- A queue number and a command identifier (R433, R434). -/
def cmdId (sq cid : Nat) : Bool := decide (sq < 32768) && decide (cid < 65536)

/-- An operand that is absent or below a bound. -/
def optBelow (k : Nat) : Option Nat → Bool
  | none => true
  | some a => decide (a < k)

/-- The well-formed commands. -/
def Instr.wf : Instr → Bool
  | .registerWrite _ off _ => decide (off < 0x4000000)
  | .narrowWrite _ off => decide (off < 0x4000000)
  | .expertRegisterWrite _ off _ => decide (off < 0x4000000)
  | .expertHeldClear _ off _ => decide (off < 0x4000000)
  | .meFill _ _ _ => true
  | .meChk _ _ _ => true
  | .drTally _ _ _ => true
  | .coNum _ _ _ => true
  | .cmdNumw _ _ => true
  | .coCnt _ _ _ => true
  | .cmdStrike _ _ => true
  | .cmdSvc _ _ => true
  | .mdSc _ _ _ => true
  | .clPool _ _ _ => true
  | .mdPf _ _ _ => true
  | .hbmScrub _ _ _ => true
  | .clNet _ _ _ => true
  | .mdMerge _ _ _ => true
  | .ikfArb _ _ => true
  | .ikfRto _ _ => true
  | .ikfDeg _ _ => true
  | .ikfRed _ _ => true
  | .cmdBar _ _ => true
  | .stoCkpt _ _ => true
  | .stoScrub _ _ => true
  | .nandIf _ _ => true
  | .hifAge _ _ => true
  | .secWv _ _ => true
  | .bcFwWd _ _ => true
  | .lntLvl _ _ _ => true
  | .bcPwr _ _ => true
  | .bcSleep _ _ => true
  | .bcBoot _ _ => true
  | .cmdFlt _ _ => true
  | .clrCyc _ _ => true
  | .clrChk _ _ => true
  | .drCntClr _ _ => true
  | .veCntClr _ _ => true
  | .coNumClr _ _ => true
  | .coCntClr _ _ => true
  | .mdCntClr _ _ => true
  | .hbmCntClr _ _ => true
  | .clNetClr _ _ => true
  | .ikfClr _ => true
  | .ikfPclr _ _ => true
  | .ikfRedClr _ => true
  | .stoClr _ => true
  | .nandClr _ => true
  | .secWvClr _ => true
  | .bcLkClr _ => true
  | .cmdFltClr _ => true
  | .clEccClr _ _ => true
  | .bcLcntLo _ => true
  | .bcEnergyLo _ => true
  | .bcRailPeakRead _ _ => true
  | .meRep _ _ _ _ _ => true
  | .ikfMap _ _ _ => true
  | .secWorldCore _ _ => true
  | .secWorldCl _ _ => true
  | .secReg _ _ _ _ => true
  | .regionZeroingDone _ => true
  | .secDbg _ _ => true
  | .bcFwKick _ _ => true
  | .wake _ _ => true
  | .evgTake _ _ _ => true
  | .evgEoi _ _ _ => true
  | .evgPset _ _ _ _ => true
  | .evgPclr _ _ _ _ => true
  | .hifFnQbase _ _ _ => true
  | .admEnable _ _ => true
  | .admDisable _ _ => true
  | .hifFnMsix _ _ _ => true
  | .msixUnmask _ vec => decide (vec < 4096)
  | .doorbell _ _ _ ix => decide (ix < 2 ^ 32)
  | .bar4Access _ _ off acc => decide (off < 2 ^ 32) && acc.wf
  | .nop _ _ => true
  | .mma _ _ => true
  | .mmq _ _ => true
  | .sld _ _ => true
  | .vop _ _ => true
  | .rdx _ _ => true
  | .drc _ _ => true
  | .drcTablesLoaded _ => true
  | .tally _ _ => true
  | .scaleCommit _ _ => true
  | .scaleDiscard _ _ => true
  | .setEInit _ _ => true
  | .setEFix _ _ => true
  | .ldt _ _ => true
  | .sttFromPort _ _ => true
  | .sttFromImage _ _ => true
  | .sttFromDrain _ _ => true
  | .snd _ _ => true
  | .rcvCopy _ _ => true
  | .rcvDiscard _ _ => true
  | .put _ _ => true
  | .get _ _ => true
  | .sct _ _ => true
  | .atm _ _ => true
  | .gat _ _ => true
  | .chn _ _ => true
  | .prmReceive _ _ => true
  | .prmCommit _ _ => true
  | .upd _ _ => true
  | .loop _ _ => true
  | .hold _ _ => true
  | .wait _ _ => true
  | .pegSend _ _ => true
  | .pegTake _ _ => true
  | .steer _ _ => true
  | .fence _ _ => true
  | .beatIssue _ => true
  | .beatCheck _ faults _ => faults.all ColFault.wf
  | .flyLoadStart _ => true
  | .flyLoadDone _ => true
  | .fillerBeat _ => true
  | .fillerRampDown _ => true
  | .fillerRampStep _ => true
  | .psbRowRead _ => true
  | .chainTakesEffect _ => true
  | .tileRelease _ => true
  | .overflowRescale _ => true
  | .scaleDerive _ => true
  | .rawMaxAtomic _ => true
  | .tallyRecordExamine => true
  | .tileArrival _ _ => true
  | .pegArrival _ => true
  | .creditReturn _ => true
  | .pitch img reds => optBelow (2 ^ 48) img && reds.all (fun r => decide (r.1 < 12))
  | .sectionComplete => true
  | .earlyStrike _ => true
  | .cut => true
  | .strikeSave => true
  | .sectionStall => true
  | .fetchIssue _ => true
  | .fetchTileArrival _ => true
  | .patrolScrub _ _ addr _ => decide (addr < 2 ^ 48)
  | .prefetch => true
  | .poolResize => true
  | .sliceRead _ _ addr _ _ _ => decide (addr < 2 ^ 48)
  | .atomicExecute _ => true
  | .packetForward _ enter => (match enter with | some b => !b.isEmpty | none => true)
  | .linkRetry _ _ _ => true
  | .meshRetrain _ _ _ => true
  | .inNetworkAdd _ => true
  | .flitReceive _ flit _ _ _ => decide (16 ≤ flit.length)
  | .nakResend _ => true
  | .idleFlit _ => true
  | .portRetrain _ _ => true
  | .laneFailing _ _ => true
  | .portDown _ _ => true
  | .fabricForward _ => true
  | .fabricPacketReceive => true
  | .read => true
  | .write => true
  | .atomic => true
  | .gather => true
  | .readRsp => true
  | .writeAck => true
  | .atomicRsp => true
  | .refuse => true
  | .gatherHold => true
  | .gatherEpoch => true
  | .tile => true
  | .credit => true
  | .redSeg => true
  | .bucketIssue _ => true
  | .forfeit _ => true
  | .redSkip _ _ => true
  | .redStall _ => true
  | .requestTimeout => true
  | .barrierReport => true
  | .barrierRelease => true
  | .stepReady => true
  | .barrierTimeout => true
  | .stepCommit => true
  | .stepAbort => true
  | .stepStall => true
  | .replayTimeout => true
  | .pegMessage => true
  | .sectStrike => true
  | .fabMgmt => true
  | .checkpointPlanReceive => true
  | .buddyDone => true
  | .secMgmt => true
  | .ckptDone _ => true
  | .nandProgramFail _ _ => true
  | .retentionScrub _ _ _ => true
  | .wearLevelMove _ => true
  | .snapshotCopy => true
  | .snapshotExport => true
  | .hsqFetch host => decide (host.length = 64)
  | .createQ sq cid _ => cmdId sq cid
  | .deleteQ sq cid => cmdId sq cid
  | .jobStart sq cid _ _ _ regs _ => cmdId sq cid && regs.all (fun r => decide (r.1 < 2 ^ 32) && decide (r.2 < 2 ^ 32))
  | .step sq cid _ => cmdId sq cid
  | .jobRestart sq cid _ _ _ _ _ => cmdId sq cid
  | .jobEnd sq cid => cmdId sq cid
  | .snapshot sq cid => cmdId sq cid
  | .copy sq cid _ => cmdId sq cid
  | .setQuota sq cid => cmdId sq cid
  | .agePromotion => true
  | .fsqSend host => decide (host.length = 64)
  | .functionLevelReset _ => true
  | .tdiLeaveRun _ => true
  | .getVersion _ _ => true
  | .getCapabilities _ _ => true
  | .negotiateAlgorithms _ _ => true
  | .getDigests _ _ => true
  | .getCertificate _ _ => true
  | .challenge _ _ => true
  | .getMeasurements _ _ => true
  | .keyExchange _ _ => true
  | .finish _ sid _ _ => decide (sid < 2 ^ 32)
  | .heartbeat _ sid _ => decide (sid < 2 ^ 32)
  | .keyUpdate _ sid _ => decide (sid < 2 ^ 32)
  | .endSession _ sid _ => decide (sid < 2 ^ 32)
  | .ideKm _ sid _ _ => decide (sid < 2 ^ 32)
  | .tdisp _ sid _ _ => decide (sid < 2 ^ 32)
  | .watchdogExpiry _ => true
  | .wdHalf _ => true
  | .processorFault _ => true
  | .peerUp _ => true
  | .stage host _ => decide (host.length = 64)
  | .activate host => decide (host.length = 64)
  | .restart host => decide (host.length = 64)
  | .logRead host => decide (host.length = 64)
  | .activationRelease => true
  | .eventSourceFire _ _ => true
  | .gathererInterrupt _ => true
  | .timer _ _ => true
  | .tracePoint _ _ _ args => decide (args.length ≤ 11)
  | .dozeEntry _ => true
  | .dozeExit _ => true
  | .bivouacEntry _ => true
  | .bivouacExit _ => true
  | .mgtWindow => true
  | .vfChange _ => true
  | .telemetrySample temps amps _ cl => decide (temps.length = 22) && decide (amps.length = 4) && decide (cl.length = 8)
  | .thermalThrottleStep _ => true
  | .thermalReleaseStep _ => true
  | .thermalFast _ => true
  | .thermalTrip => true
  | .railCurrentLimit _ _ => true
  | .railCurrentRelease _ => true
  | .packagePowerWindow => true
  | .pwrbrkNAssert => true
  | .pwrbrkNDeassert => true
  | .selfRefreshEntry => true
  | .selfRefreshExit => true
  | .islandPowerUp _ => true
  | .perstNDeassert b => b.wf
  | .perstNAssert => true
  | .ready => true
  | .fabWaitExpiry => true
  | .pcieLinkUp _ _ _ => true
  | .pcieLinkTimeout => true
  | .retainedBankWrite _ => true
  | .norWriteRetry _ => true
  | .railLost _ => true
  | .sectionReplay => true
  | .coreTested _ reps _ _ _ => reps.all (fun r => decide (r.2.2.2 ≤ 512))
  | .i3cPrivateRead => true
  | .i3cAddressAssign _ => true
  | .jtagTapAccess _ => true
  | .trstNAssert => true
  | .localCounterTick => true
  | .clusterClockCycle _ _ => true
  | .islandPowerLoss => true
  | .railGood _ => true
  | .pcieLinkDown => true
  | .nandCommandDone _ => true
end Sys2Proof
end

