-- ==== Sys2Proof/Certificates/Slice0/Obligations.lean ====
section
/-! DEFINITION. The statements about the model, each a proposition of its own. -/

open Sys2Proof Sys2Proof.Machine
open Host (Outcome)

namespace Sys2Proof.Machine

/-! ## Words that the statements share -/

/-- A register word reads the same in two states, whatever it reads as when nothing was written. -/
def Kept (s t : State) (off : Nat) : Prop := ∀ d : Word, t.regs.get off d = s.regs.get off d

/-- Two states differ in registers at the listed offsets alone: everything else, memory and queue included, is the same. -/
def RegsOnly (s t : State) (offs : List Nat) : Prop := t = { s with regs := t.regs } ∧ ∀ off, off ∉ offs → Kept s t off

/-- The bits of a register word outside `[h:l]` are the same in two states. -/
def BitsKept (s t : State) (f : Fld) (i : Nat := 0) (j : Nat := 0) : Prop :=
  ∀ b, b < f.lo ∨ f.hi < b → bit (t.rd f.reg i j).toNat b = bit (s.rd f.reg i j).toNat b

/-- The offset of the register of a field. -/
def Fld.off (f : Fld) (i : Nat := 0) (j : Nat := 0) : Nat := f.reg.addr i j

/-- A register access of `src` reaches its register, and the state `u` is what the write then acts on: `s` itself, but for a
cluster that a doze has to be ended for (R494). -/
abbrev Reaches (s : State) (src : Src) (r : RegId) (i : Nat) (u : State) : Prop := s.access src r i = some u

/-- A register access of `src` reaches nothing: the device is held in reset, the register is not the function's, or its
cluster is in bivouac. -/
abbrev Misses (s : State) (src : Src) (r : RegId) (i : Nat) : Prop := s.access src r i = none

/-- The registers in which a world violation is counted and logged. -/
def violationRegs : List Nat :=
  [RegId.SEC_WV_CNT.addr 0 0, RegId.SEC_WV_LOG.addr 0 0, RegId.SEC_WV_ADDR_LO.addr 0 0, RegId.SEC_WV_ADDR_HI.addr 0 0]

/-- R450: what a world violation does and all it does: it is counted and logged, and while EVT_EN is 1 source 128 of SEC's
gatherer fires and the event goes to a secure job's queue. -/
def Violation (kind source addr : Nat) (u t : State) : Prop :=
  t.fld F.SEC_WV_CNT_COUNT = Nat.min (u.fld F.SEC_WV_CNT_COUNT + 1) 4294967295 ∧
  t.fld F.SEC_WV_LOG_KIND = kind % 16 ∧ t.fld F.SEC_WV_LOG_SOURCE = source % 256 ∧
  t.fld F.SEC_WV_ADDR_LO_ADDR_LO = addr % 4294967296 ∧ t.fld F.SEC_WV_ADDR_HI_ADDR_HI = addr / 4294967296 % 65536 ∧
  (u.flag F.SEC_WV_X_EVT_EN = false → RegsOnly u t violationRegs) ∧
  (u.flag F.SEC_WV_X_EVT_EN = true →
    t.evgPend 1 128 = true ∧
    t = { u with regs := t.regs, fires := t.fires, mem := t.mem, out := t.out, msix := t.msix, qLost := t.qLost } ∧
    ∀ off, off ∉ RegId.EVG_PEND.addr 1 4 :: RegId.EVG_TOP.addr 1 0 :: violationRegs → Kept u t off)

end Sys2Proof.Machine

/-! ## Registers -/

namespace Sys2Proof.Machine

/-- The basic-control rows, each with its function and the function's instance. -/
def basicRows (src : Src) (e : Fin 32) (n : Fin 16) (m : Fin 4) (k h : Fin 8) (p : Proc) (v : Word) :
    List (Instr × Ctl × Nat) :=
  [(.meFill src e v, .fill, e.val), (.meChk src e v, .chk, e.val), (.drTally src e v, .tally, e.val),
   (.coNum src n v, .num, n.val), (.cmdNumw src v, .watch, 0), (.coCnt src n v, .cnt, n.val),
   (.cmdStrike src v, .strike, 0), (.cmdSvc src v, .svc, 0), (.mdSc src m v, .sc, m.val), (.clPool src k v, .clp, k.val),
   (.mdPf src m v, .pf, m.val), (.hbmScrub src h v, .hscrub, h.val), (.clNet src k v, .net, k.val),
   (.mdMerge src m v, .merge, m.val), (.ikfArb src v, .arb, 0), (.ikfRto src v, .rto, 0), (.ikfDeg src v, .deg, 0),
   (.ikfRed src v, .red, 0), (.cmdBar src v, .bar, 0), (.stoCkpt src v, .ckpt, 0), (.stoScrub src v, .sscrub, 0),
   (.nandIf src v, .nand, 0), (.hifAge src v, .age, 0), (.secWv src v, .wv, 0), (.bcFwWd src v, .wd, 0),
   (.lntLvl src p v, .lnt, procNum p), (.bcPwr src v, .pwr, 0), (.bcSleep src v, .sleep, 0), (.bcBoot src v, .boot, 0),
   (.cmdFlt src v, .flt, 0)]

/-- What a write of a function's basic control does: the field holds the value written, every field of the selected
setting's table holds its value, EXPERT_HELD reads 0, and no other register changes. -/
def LoadsSetting (c : Ctl) (i : Nat) (v : Word) (u t : State) : Prop :=
  t.fld c.basic i = bits v.toNat c.basic.hi c.basic.lo ∧
  (∀ l ∈ c.loads i (c.acts (bits v.toNat c.basic.hi c.basic.lo)), t.fld l.1 l.2.1 = l.2.2) ∧
  t.flag c.held i = false ∧
  RegsOnly u t (c.basic.off i :: c.held.off i ::
    (c.loads i (c.acts (bits v.toNat c.basic.hi c.basic.lo))).map (fun l => l.1.off l.2.1))

/-- The setting that a word selects is in force: the basic field, its expert fields, and EXPERT_HELD 0. -/
abbrev SettingHeld (c : Ctl) (v : Word) (u : State) : Prop :=
  u.fld c.basic = bits v.toNat c.basic.hi c.basic.lo ∧ u.flag c.held = false ∧
  ∀ l ∈ c.loads 0 (c.acts (bits v.toNat c.basic.hi c.basic.lo)), u.fld l.1 l.2.1 = l.2.2

/-- The three basic controls of access S. -/
def secBasicRows (src : Src) (v : Word) : List (Instr × Ctl) :=
  [(.secWv src v, .wv), (.bcFwWd src v, .wd), (.bcBoot src v, .boot)]

/-- The clearing rows: command, clearing register with its instance, and the counters that become 0, with their
instances. -/
def clearRows (src : Src) (e : Fin 32) (n : Fin 16) (m : Fin 4) (k h : Fin 8) (p : Fin 6) :
    List (Instr × RegId × Nat × List (Fld × Nat × Nat)) :=
  let at_ := fun (i : Nat) (fs : List Fld) => fs.map (fun f => (f, i, 0))
  [(.clrCyc src e, .ME_CNT_CLR, e.val, at_ e.val [F.ME_CYC_BEAT_COUNT, F.ME_CYC_FLYWAIT_COUNT, F.ME_CYC_FILL_COUNT]),
   (.clrChk src e, .ME_CNT_CLR, e.val, at_ e.val [F.ME_CHK_CNT_RECOV, F.ME_CHK_CNT_ESC, F.ME_CHK_CNT_SKIP]),
   (.drCntClr src e, .DR_CNT_CLR, e.val,
     at_ e.val [F.DR_CYC_BUSY_COUNT, F.DR_CYC_SIDEWAIT_COUNT, F.DR_CYC_RELWAIT_COUNT]),
   (.veCntClr src n, .VE_CNT_CLR, n.val, at_ n.val [F.VE_CYC_BUSY_COUNT, F.VE_CYC_QTR_COUNT, F.VE_CYC_FP64_COUNT]),
   (.coNumClr src n, .CO_NUM_CLR, n.val,
     at_ n.val [F.CO_CYC_SCWAIT_COUNT, F.CO_RESCALE_CNT_RESCALED, F.CO_RESCALE_CNT_LIMITED]),
   (.coCntClr src n, .CO_CNT_CLR, n.val,
     (F.CO_DISCARD_COUNT, n.val, 0) ::
       ((List.range 6).flatMap (fun sl => [F.CO_STN_BUSY_COUNT, F.CO_STN_BLOCKED_COUNT, F.CO_STN_STARVED_COUNT,
          F.CO_STN_ASLEEP_COUNT, F.CO_STN_FIRINGS_COUNT].map (fun f => (f, n.val, sl))) ++
        (List.range 32).flatMap (fun q => [F.CO_Q_FULL_COUNT, F.CO_Q_EMPTY_COUNT, F.CO_Q_PEAK_PEAK,
          F.CO_FQ_FETCHED_COUNT, F.CO_FQ_WASTE_COUNT, F.CO_FQ_MEMWAIT_COUNT].map (fun f => (f, n.val, q))))),
   (.mdCntClr src m, .MD_CNT_CLR, m.val,
     at_ m.val [F.MD_PF_ST_PF_SHORT, F.MD_PF_ST_PF_LATE, F.MD_EVICT_COUNT, F.MD_SPILL_COUNT, F.MD_ECC_CE_COUNT,
       F.MD_ECC_UE_COUNT]),
   (.hbmCntClr src h, .HBM_CNT_CLR, h.val,
     at_ h.val [F.HBM_BURST_RD_COUNT, F.HBM_BURST_WR_COUNT, F.HBM_BURST_RM_COUNT, F.HBM_IDLE_COUNT, F.HBM_UNLENT_COUNT,
       F.HBM_ECC_CE_COUNT, F.HBM_ECC_UE_COUNT]),
   (.clNetClr src k, .CL_NET_CLR, k.val, at_ k.val [F.CL_NET_RETRY_COUNT, F.CL_NET_FDROP_COUNT, F.CL_NET_BAD_COUNT]),
   (.ikfClr src, .IKF_CLR, 0,
     at_ 0 [F.IKF_UNREACH_COUNT, F.IKF_AUTH_FAIL_COUNT, F.IKF_DROP_COUNT, F.IKF_TDROP_COUNT] ++
       (List.range 6).flatMap (fun q => at_ q portCounters)),
   (.ikfPclr src p, .IKF_PCLR, p.val, at_ p.val portCounters),
   (.ikfRedClr src, .IKF_RED_CLR, 0,
     at_ 0 [F.IKF_RED_LATE_COUNT, F.IKF_RED_DROP_COUNT, F.IKF_RED_SKIP_COUNT, F.IKF_RED_ESC_COUNT, F.IKF_RED_NF_COUNT,
       F.IKF_RED_PART_COUNT, F.IKF_RED_LOG_QUEUE, F.IKF_RED_LOG_STEP_LO, F.IKF_RED_LOGQ_BUCKET,
       F.IKF_RED_LOGP_PRESENT]),
   (.stoClr src, .STO_CLR, 0, at_ 0 [F.STO_CKCNT_DONE, F.STO_CKCNT_SKIPPED, F.STO_STALL_TICKS, F.STO_BAD_GROWN]),
   (.nandClr src, .NAND_CLR, 0, (List.range 16).flatMap (fun c => at_ c [F.NAND_CW_COR_COUNT, F.NAND_RETRY_COUNT,
     F.NAND_SOFT_COUNT, F.NAND_UNC_COUNT, F.NAND_PEFAIL_PROG, F.NAND_PEFAIL_ERASE])),
   (.secWvClr src, .SEC_WV_CLR, 0, at_ 0 [F.SEC_WV_CNT_COUNT]),
   (.bcLkClr src, .BC_LK_CLR, 0, at_ 0 [F.BC_LK_CNT_THERM, F.BC_LK_CNT_OC, F.BC_LK_CNT_PCAP, F.BC_LK_CNT_BRAKE]),
   (.cmdFltClr src, .CMD_FLT_CLR, 0, at_ 0 [F.CMD_FLT_SR_COUNT, F.CMD_FLT_FEN_FENCES, F.CMD_FLT_FEN_HALTS]),
   (.clEccClr src k, .CL_ECC_CLR, k.val, at_ k.val [F.CL_ECC_CE_COUNT, F.CL_ECC_UE_COUNT])]

/-- Writable registers whose write does nothing but set its fields, and which hold no EXPERT_HELD bit. -/
def plainRegs : List RegId :=
  [.CO_IFLT, .CO_MVLOG, .CMD_STRIKE_ST, .CMD_FLT_PEER, .IKF_SELF, .IKF_TORUS, .IKF_MAP_CTL, .IKF_PDETOUR, .STO_ST, .HIF_ERR,
   .HIF_FN_ASQ_LO, .HIF_FN_ASQ_HI, .HIF_FN_ACQ_LO, .HIF_FN_ACQ_HI, .HIF_FN_AEQ_LO, .HIF_FN_AEQ_HI, .HIF_WIN_HI, .SEC_ERR,
   .BC_PWR_ST, .BC_BOOT_ST]

/-- R6: what a write makes of one field: `old` and `v` are the words before and written. -/
def FieldWritten (a : Acc) (sec : Bool) (l h old v new : Nat) : Prop :=
  match a with
  | .ro => bits new h l = bits old h l
  | .rw => bits new h l = bits v h l
  | .wo => bits new h l = bits v h l
  | .w1c => ∀ b, l ≤ b → b ≤ h → bit new b = (bit old b && !bit v b)
  | .sec => bits new h l = if sec then bits v h l else bits old h l

end Sys2Proof.Machine

/-- R10, for all 30 basic controls. -/
def Obligations.BasicWriteLoadsSetting : Prop :=
  ∀ (src : Src) (e : Fin 32) (n : Fin 16) (m : Fin 4) (k h : Fin 8) (p : Proc) (v : Word) (s : State),
    ∀ row ∈ basicRows src e n m k h p v,
      (∀ u, Reaches s src row.2.1.basic.reg row.2.2 u → (row.2.1.guarded = true → srcWorld src = .s) →
        ∃ t, exec row.1 s = .next t ∧ LoadsSetting row.2.1 row.2.2 v u t) ∧
      (Misses s src row.2.1.basic.reg row.2.2 → exec row.1 s = .next s)

/-- R580 and R450 for the three basic controls of access S. -/
def Obligations.HostWriteOfSecBasicIsRefused : Prop :=
  ∀ (f : Fin 64) (v : Word) (s u : State), ∀ row ∈ secBasicRows (.fn f) v, Reaches s (.fn f) row.2.basic.reg 0 u →
    (bit v.toNat row.2.held.lo = false ∧ SettingHeld row.2 v u → exec row.1 s = .next u) ∧
    (¬ (bit v.toNat row.2.held.lo = false ∧ SettingHeld row.2 v u) →
      ∃ t, exec row.1 s = .next t ∧ Violation 1 (0x40 + f.val) (row.2.basic.off) u t)

/-- The clearing fields of Tables 2.10, 4.5, 4.6, 5.6, 6.11, 10.7, 10.8, 11.7, 12.8, 12.9, 13.6, 15.7, 15.8, 17.6, 19.7 and
21.6. -/
def Obligations.CounterClearsZeroTheirCounters : Prop :=
  ∀ (src : Src) (e : Fin 32) (n : Fin 16) (m : Fin 4) (k h : Fin 8) (p : Fin 6) (s u : State),
    ∀ row ∈ clearRows src e n m k h p, Reaches s src row.2.1 row.2.2.1 u →
      ∃ t, exec row.1 s = .next t ∧
        (∀ c ∈ row.2.2.2, t.fld c.1 c.2.1 c.2.2 = 0) ∧
        (∀ c ∈ row.2.2.2, ∀ b, (∀ d ∈ row.2.2.2, d.1.reg = c.1.reg → b < d.1.lo ∨ d.1.hi < b) →
          bit (t.rd c.1.reg c.2.1 c.2.2).toNat b = bit (u.rd c.1.reg c.2.1 c.2.2).toNat b) ∧
        RegsOnly u t (row.2.2.2.map (fun c => c.1.off c.2.1 c.2.2))

/-- R5, R6, R13, R425 and R569. The clause about a firmware processor's narrow write is the model's choice. -/
def Obligations.RegisterWritesActByAccessCodeAndWidth : Prop :=
  ((∀ (src : Src) (off : Nat) (v : Word) (r : RegId) (i j : Nat) (s u : State), off % 4 = 0 →
    regAt (devOffset src off) = some (r, i, j) → r ∈ plainRegs → Reaches s src r i u →
    (srcWorld src = .s ∨ ∀ fd ∈ r.fields, fd.acc ≠ .sec) →
    ∃ t, exec (.registerWrite src off v) s = .next t ∧
      (∀ fd ∈ r.fields,
        FieldWritten fd.acc (srcWorld src == .s) fd.lo fd.hi (u.rd r i j).toNat v.toNat (t.rd r i j).toNat) ∧
      RegsOnly u t [r.addr i j]) ∧
  (∀ (f : Fin 64) (off : Nat) (v : Word) (s : State), off % 4 = 0 → regAt (devOffset (.fn f) off) = none →
    exec (.registerWrite (.fn f) off v) s = .next s)) ∧
  (∀ (src : Src) (off : Nat) (v : Word) (s : State), ∀ c ∈ [Instr.narrowWrite src off, Instr.registerWrite src off v],
    (c = .registerWrite src off v → off % 4 ≠ 0) →
    (s.inReset = true ∨ srcIsHost src = false → exec c s = .next s) ∧
    (∀ f, src = .fn f → s.inReset = false →
      ∃ u, RegsOnly s u [RegId.HIF_ERR.addr 0 0, RegId.HIF_ERR_ADDR.addr 0 0] ∧ u.flag F.HIF_ERR_NARROW = true ∧
        BitsKept s u F.HIF_ERR_NARROW ∧ u.fld F.HIF_ERR_ADDR_OFFSET = off % 67108864 ∧
        exec c s = .next (u.postAdmin f.val 0x0B srcDevice 0 [f.val, off]) ∧
        (s.flag F.HIF_FN_ST_ADM_ACT f.val = false → exec c s = .next u)))

namespace Sys2Proof.Machine

/-- The entry of the repair map that a write names. -/
def repEntry (col : Bool) : RegId := if col then .ME_REP_COL else .ME_REP_ROW

/-- The registers of measurement block `b`. -/
def measRegs (b : Nat) : List Nat := (List.range 8).map (fun w => RegId.SEC_MEAS.addr (b - 1) w)

end Sys2Proof.Machine

/-- R11 and R12. That a clear EXPERT_HELD bit reloads nothing is the model's choice. -/
def Obligations.ExpertRegistersAreHeldAndReloaded : Prop :=
  (∀ (src : Src) (off : Nat) (v : Word) (r : RegId) (i j : Nat) (c : Ctl) (s u : State),
    regAt (devOffset src off) = some (r, i, j) → ctlOfExpert r = some c → c.guarded = false → Reaches s src r i u →
    (srcOnHost src = true → ∃ t, exec (.expertRegisterWrite src off v) s = .next t ∧ t.flag c.held (c.inst i) = true ∧
      (c ≠ .pwr → c ≠ .lnt → (∀ fd ∈ r.fields,
          FieldWritten fd.acc false fd.lo fd.hi (u.rd r i j).toNat v.toNat (t.rd r i j).toNat) ∧
        RegsOnly u t [r.addr i j, c.held.off i])) ∧
    (srcOnHost src = false → u.flag c.held (c.inst i) = false →
      ∃ t, exec (.expertRegisterWrite src off v) s = .next t ∧ t.flag c.held (c.inst i) = false ∧
        (c ≠ .pwr → c ≠ .lnt → (∀ fd ∈ r.fields,
            FieldWritten fd.acc true fd.lo fd.hi (u.rd r i j).toNat v.toNat (t.rd r i j).toNat) ∧
          RegsOnly u t [r.addr i j])) ∧
    (srcOnHost src = false → u.flag c.held (c.inst i) = true → exec (.expertRegisterWrite src off v) s = .next u)) ∧
  (∀ (src : Src) (off : Nat) (b : Fin 32) (r : RegId) (i j : Nat) (c : Ctl) (s u : State),
    regAt (devOffset src off) = some (r, i, j) → ctlOfHeld r b.val = some c → Reaches s src r i u →
    (c.guarded = true → srcWorld src = .s) →
    (u.flag c.held i = true →
      ∃ t, exec (.expertHeldClear src off b) s = .next t ∧ t.flag c.held i = false ∧ (c ≠ .pwr → c ≠ .lnt →
        (∀ l ∈ c.loads i (c.acts (u.fld c.basic i)), t.fld l.1 l.2.1 = l.2.2) ∧
        RegsOnly u t (c.held.off i :: (c.loads i (c.acts (u.fld c.basic i))).map (fun l => l.1.off l.2.1)))) ∧
    (u.flag c.held i = false → exec (.expertHeldClear src off b) s = .next u))

/-- R508 and R509. -/
def Obligations.LatchingReadsReturnAndLatch : Prop :=
  ∀ (src : Src) (d : Fin 4) (s u : State),
    (Reaches s src .BC_LCNT_LO 0 u →
      let o := u.out ++ [.readData (leBytes 4 u.lcnt.toNat)]
      let hi := BitVec.ofNat 32 (u.lcnt.toNat / 4294967296)
      exec (.bcLcntLo src) s = .next
        (if srcWorld src = .s then { u with out := o, lcntHiS := hi } else { u with out := o, lcntHiN := hi })) ∧
    (Reaches s src .BC_ENERGY_LO 0 u →
      let o := u.out ++ [.readData (leBytes 4 u.energy.toNat)]
      let hi := BitVec.ofNat 32 (u.energy.toNat / 4294967296)
      exec (.bcEnergyLo src) s = .next
        (if srcWorld src = .s then { u with out := o, energyHiS := hi } else { u with out := o, energyHiN := hi })) ∧
    (Reaches s src .BC_RAIL 0 u → ∃ t, exec (.bcRailPeakRead src d) s = .next t ∧
      t.out = u.out ++ [.readData (leBytes 4 (u.rd .BC_RAIL d.val).toNat)] ∧ t.fld F.BC_RAIL_PEAK d.val = 0 ∧
      BitsKept u t F.BC_RAIL_PEAK d.val ∧ RegsOnly { u with out := t.out } t [RegId.BC_RAIL.addr d.val 0])

/-- R66 and R352, with R580 for a host's write. -/
def Obligations.RepairAndRemapWritesObeyTheirLock : Prop :=
  ∀ (src : Src) (e : Fin 32) (m : Fin 256) (col : Bool) (w : Fin 8) (v : Word) (s u : State),
    (Reaches s src (repEntry col) e.val u →
      (srcWorld src = .s → u.flag F.BC_BOOT_ST_READY = false ∨ u.flag F.ME_STATUS_CORE_FENCED e.val = true →
        ∃ t, exec (.meRep src e col w v) s = .next t ∧
          (col = true → t.fld F.ME_REP_COL_LCOL e.val w.val = bits v.toNat 9 0 ∧
            t.fld F.ME_REP_COL_VALID e.val w.val = bits v.toNat 15 15) ∧
          (col = false → t.fld F.ME_REP_ROW_LROW e.val w.val = bits v.toNat 8 0 ∧
            t.fld F.ME_REP_ROW_VALID e.val w.val = bits v.toNat 15 15) ∧
          t = { u with regs := t.regs, boot := { u.boot with retNow := true } } ∧
          ∀ off, off ∉ (repEntry col).addr e.val w.val :: RegId.ME_LAT.addr e.val 0 :: RegId.ME_STATUS.addr e.val 0 ::
            measRegs 7 → Kept u t off) ∧
      (srcWorld src = .s → u.flag F.BC_BOOT_ST_READY = true → u.flag F.ME_STATUS_CORE_FENCED e.val = false →
        ∃ t, exec (.meRep src e col w v) s = .next t ∧ t.flag F.ME_STATUS_REP_REJ e.val = true ∧
          BitsKept u t F.ME_STATUS_REP_REJ e.val ∧ RegsOnly u t [RegId.ME_STATUS.addr e.val 0]) ∧
      (∀ f, src = .fn f → exec (.meRep src e col w v) s = .next u ∨
        ∃ t, exec (.meRep src e col w v) s = .next t ∧
          Violation 1 (0x40 + f.val) ((repEntry col).addr e.val w.val) u t)) ∧
    (Reaches s src .IKF_MAP m.val u →
      (srcWorld src = .s → u.flag F.IKF_MAP_CTL_LOCK = false →
        ∃ t, exec (.ikfMap src m v) s = .next t ∧ t.fld F.IKF_MAP_LOG m.val = bits v.toNat 14 0 ∧
          t.fld F.IKF_MAP_PHYS m.val = bits v.toNat 30 16 ∧ t.fld F.IKF_MAP_VALID m.val = bits v.toNat 31 31 ∧
          t = { u with regs := t.regs, boot := { u.boot with retNow := true } } ∧
          ∀ off, off ∉ [RegId.IKF_MAP.addr m.val 0, RegId.IKF_MAP_CTL.addr 0 0] → Kept u t off) ∧
      (srcWorld src = .s → u.flag F.IKF_MAP_CTL_LOCK = true →
        ∃ t, exec (.ikfMap src m v) s = .next t ∧ t.flag F.IKF_MAP_CTL_MAP_REJ = true ∧
          BitsKept u t F.IKF_MAP_CTL_MAP_REJ ∧ RegsOnly u t [RegId.IKF_MAP_CTL.addr 0 0]) ∧
      (∀ f, src = .fn f → exec (.ikfMap src m v) s = .next u ∨
        ∃ t, exec (.ikfMap src m v) s = .next t ∧ Violation 1 (0x40 + f.val) (RegId.IKF_MAP.addr m.val 0) u t))
/-! ## Worlds, regions and debug -/

namespace Sys2Proof.Machine

/-- The cores whose world a write of SEC_WORLD_CORE would change. -/
abbrev coresChanged (u : State) (v : Word) : List Nat := changedBits 16 (u.fld F.SEC_WORLD_CORE_CORE) v.toNat

/-- The cluster stores whose world a write of SEC_WORLD_CL would change. -/
abbrev storesChanged (u : State) (v : Word) : List Nat := changedBits 8 (u.fld F.SEC_WORLD_CL_CL) v.toNat

/-- The section in place uses none of the cores. -/
def NotInSection (u : State) (ns : List Nat) : Prop := ∀ x, u.sect = some x → ∀ n ∈ ns, n ∉ x.cores

/-- A local address lies in the store of core `n`, or of cluster `k`. -/
def inCore (n a : Nat) : Prop := 0x2000000 * n ≤ a ∧ a < 0x2000000 * (n + 1)
def inCluster (k a : Nat) : Prop := 0x20000000 + 0x2000000 * k ≤ a ∧ a < 0x20000000 + 0x2000000 * (k + 1)

/-- The two words that a write of one word of descriptor `i` would leave. -/
def descAfter (u : State) (i : Nat) (hi : Bool) (v : Word) : Nat × Nat :=
  let lo := (u.rd .SEC_REG_LO i).toNat
  let h := (u.rd .SEC_REG_HI i).toNat
  if hi then (lo, putBits h 26 0 (bits v.toNat 26 0))
  else (putBits (putBits (putBits lo 26 0 (bits v.toNat 26 0)) 30 30 (bits v.toNat 30 30)) 31 31 (bits v.toNat 31 31), h)

/-- SEC refuses a descriptor that reaches outside HBM and the shared cache, or over another valid one (R447). -/
def descRefused (u : State) (i : Nat) (w : Nat × Nat) : Bool :=
  bit w.1 31 && (!descInside (descRange w.1 w.2) || u.descOverlaps i (descRange w.1 w.2))

end Sys2Proof.Machine

/-- R448. -/
def Obligations.CoreWorldChangeWipesTheCore : Prop :=
  ∀ (h : Bool) (v : Word) (s u : State),
    (Reaches s (.fw .sec h) .SEC_WORLD_CORE 0 u →
      ((∃ n ∈ coresChanged u v, u.coreBound n = true) →
        ∃ t, exec (.secWorldCore (.fw .sec h) v) s = .next t ∧ t.flag F.SEC_ERR_BUSY = true ∧ BitsKept u t F.SEC_ERR_BUSY ∧
          RegsOnly u t [RegId.SEC_ERR.addr 0 0]) ∧
      ((∀ n ∈ coresChanged u v, u.coreBound n = false) → u.fld F.SEC_DBG_JTAG_MODE ≠ 2 → NotInSection u (coresChanged u v) →
        ∃ t, exec (.secWorldCore (.fw .sec h) v) s = .next t ∧ t.fld F.SEC_WORLD_CORE_CORE = bits v.toNat 15 0 ∧
          (∀ n ∈ coresChanged u v, t.core n = {} ∧ t.eng (2 * n) = {} ∧ t.eng (2 * n + 1) = {} ∧ t.dr (2 * n) = {} ∧
            t.dr (2 * n + 1) = {} ∧ t.epochOf n = (u.epochOf n + 1) % 4294967296 ∧ ∀ a, inCore n a → t.byte a = 0) ∧
          ∀ a, (∀ n ∈ coresChanged u v, ¬ inCore n a) → t.byte a = u.byte a)) ∧
    (Reaches s (.fw .sec h) .SEC_WORLD_CL 0 u →
      ((∃ k ∈ storesChanged u v, u.clBound k = true) →
        ∃ t, exec (.secWorldCl (.fw .sec h) v) s = .next t ∧ t.flag F.SEC_ERR_BUSY = true ∧ BitsKept u t F.SEC_ERR_BUSY ∧
          RegsOnly u t [RegId.SEC_ERR.addr 0 0]) ∧
      ((∀ k ∈ storesChanged u v, u.clBound k = false) → u.fld F.SEC_DBG_JTAG_MODE ≠ 2 →
        NotInSection u ((storesChanged u v).flatMap (fun k => [2 * k, 2 * k + 1])) →
        ∃ t, exec (.secWorldCl (.fw .sec h) v) s = .next t ∧ t.fld F.SEC_WORLD_CL_CL = bits v.toNat 7 0 ∧
          (∀ k ∈ storesChanged u v, t.epochOf (2 * k) = (u.epochOf (2 * k) + 1) % 4294967296 ∧
            t.epochOf (2 * k + 1) = (u.epochOf (2 * k + 1) + 1) % 4294967296 ∧ ∀ a, inCluster k a → t.byte a = 0) ∧
          ∀ a, (∀ k ∈ storesChanged u v, ¬ inCluster k a) → t.byte a = u.byte a)) ∧
    (∀ f, Reaches s (.fn f) .SEC_WORLD_CORE 0 u → exec (.secWorldCore (.fn f) v) s = .next u ∨
      ∃ t, exec (.secWorldCore (.fn f) v) s = .next t ∧ Violation 1 (0x40 + f.val) (RegId.SEC_WORLD_CORE.addr 0 0) u t) ∧
    (∀ p, p ≠ Proc.sec → Reaches s (.fw p h) .SEC_WORLD_CORE 0 u → exec (.secWorldCore (.fw p h) v) s = .next u)

/-- R447 and R449. -/
def Obligations.RegionChangesWorldThroughZeros : Prop :=
  ∀ (h : Bool) (ix : Fin 64) (hi : Bool) (v : Word) (s u : State),
    (Reaches s (.fw .sec h) (if hi then .SEC_REG_HI else .SEC_REG_LO) ix.val u → u.flag F.SEC_REG_LO_ZEROING ix.val = false →
      let w := descAfter u ix.val hi v
      let rs := worldChange (u.rd .SEC_REG_LO ix.val).toNat (u.rd .SEC_REG_HI ix.val).toNat w.1 w.2
      (descRefused u ix.val w = true →
        ∃ t, exec (.secReg (.fw .sec h) ix hi v) s = .next t ∧ t.flag F.SEC_ERR_OVERLAP = true ∧
          BitsKept u t F.SEC_ERR_OVERLAP ∧ RegsOnly u t [RegId.SEC_ERR.addr 0 0]) ∧
      (descRefused u ix.val w = false → rs = [] →
        ∃ t, exec (.secReg (.fw .sec h) ix hi v) s = .next t ∧ t.rd .SEC_REG_LO ix.val = BitVec.ofNat 32 w.1 ∧
          t.rd .SEC_REG_HI ix.val = BitVec.ofNat 32 w.2 ∧
          RegsOnly u t (RegId.SEC_REG_LO.addr ix.val 0 :: RegId.SEC_REG_HI.addr ix.val 0 :: RegId.SEC_ST.addr 0 0 ::
            measRegs 8)) ∧
      (descRefused u ix.val w = false → rs ≠ [] → u.fld F.SEC_DBG_JTAG_MODE ≠ 2 →
        ∃ t, exec (.secReg (.fw .sec h) ix hi v) s = .next t ∧ t.flag F.SEC_REG_LO_ZEROING ix.val = true ∧
          BitsKept u t F.SEC_REG_LO_ZEROING ix.val ∧
          t.regPend = u.regPend ++ [⟨ix.val, BitVec.ofNat 32 w.1, BitVec.ofNat 32 w.2, rs⟩] ∧
          RegsOnly { u with regPend := t.regPend } t (RegId.SEC_REG_LO.addr ix.val 0 :: measRegs 8))) ∧
    (∀ p, firstWhere (fun (q : RegPend) => q.ix == ix.val) s.regPend = some p →
      ∃ t, exec (.regionZeroingDone ix) s = .next t ∧
        t.rd .SEC_REG_LO ix.val = BitVec.ofNat 32 (putBits p.lo.toNat 29 29 0) ∧ t.rd .SEC_REG_HI ix.val = p.hi ∧
        (∀ q ∈ t.regPend, q.ix ≠ ix.val) ∧ (∀ q ∈ s.regPend, q.ix ≠ ix.val → q ∈ t.regPend) ∧
        (∀ a, (∃ r ∈ p.ranges, r.1 ≤ a ∧ a < r.2) → t.byte a = 0) ∧
        (∀ a, (∀ r ∈ p.ranges, ¬ (r.1 ≤ a ∧ a < r.2)) → t.byte a = s.byte a) ∧
        RegsOnly { s with mem := t.mem, regPend := t.regPend } t
          (RegId.SEC_REG_LO.addr ix.val 0 :: RegId.SEC_REG_HI.addr ix.val 0 :: RegId.SEC_ST.addr 0 0 :: measRegs 8))

/-- R463. -/
def Obligations.FullDebugExcludesSecureWorld : Prop :=
  ∀ (src : Src) (v : Word) (s u : State),
    (Reaches s src .SEC_DBG 0 u → srcWorld src = .s →
      let waits := u.regPend.any (fun p => (sRange p.lo.toNat p.hi.toNat).isSome)
      (bits v.toNat 1 0 = 2 → (u.anyS = true ∨ waits = true) →
        ∃ t, exec (.secDbg src v) s = .next t ∧ t.flag F.SEC_ERR_DBG_REJ = true ∧ BitsKept u t F.SEC_ERR_DBG_REJ ∧
          ∀ off, off ∉ RegId.SEC_ERR.addr 0 0 :: measRegs 8 → Kept u t off) ∧
      (¬ (bits v.toNat 1 0 = 2 ∧ (u.anyS = true ∨ waits = true)) →
        ∃ t, exec (.secDbg src v) s = .next t ∧ t.fld F.SEC_DBG_JTAG_MODE = bits v.toNat 1 0 ∧
          RegsOnly u t (RegId.SEC_DBG.addr 0 0 :: measRegs 8))) ∧
    (∀ f, src = .fn f → Reaches s src .SEC_DBG 0 u → exec (.secDbg src v) s = .next u ∨
      ∃ t, exec (.secDbg src v) s = .next t ∧ Violation 1 (0x40 + f.val) (RegId.SEC_DBG.addr 0 0) u t) ∧
    (∀ h, Reaches s (.fw .sec h) .SEC_WORLD_CORE 0 u → u.fld F.SEC_DBG_JTAG_MODE = 2 →
      (∀ n ∈ coresChanged u v, u.coreBound n = false) → (∃ n ∈ coresChanged u v, bit v.toNat n = true) →
      ∃ t, exec (.secWorldCore (.fw .sec h) v) s = .next t ∧ t.flag F.SEC_ERR_DBG_REJ = true ∧
        RegsOnly u t [RegId.SEC_ERR.addr 0 0])
/-! ## The gatherers -/

namespace Sys2Proof.Machine

/-- EVG_TOP shows the selection of R484. -/
def TopShown (t : State) (p : Nat) : Prop :=
  match t.evgTop p with
  | none => t.fld F.EVG_TOP_SRC p = 0x3FF ∧ t.fld F.EVG_TOP_PRIO p = 0 ∧ t.fld F.EVG_TOP_COUNT p = 0
  | some x => t.fld F.EVG_TOP_SRC p = x ∧ t.fld F.EVG_TOP_PRIO p = t.evgPrio p x ∧
      t.fld F.EVG_TOP_COUNT p = t.fires.get (1024 * p + x) 0 % 256

/-- R483: what the firing of source `x` at gatherer `p` does, and all it does: its pending bit is set, its count rises and
saturates at 255, every other source keeps both, and EVG_TOP shows the selection. -/
def Fired (p x : Nat) (u t : State) : Prop :=
  t.evgPend p x = true ∧ t.fires.get (1024 * p + x) 0 = Nat.min (u.fires.get (1024 * p + x) 0 + 1) 255 ∧
  (∀ k d, k ≠ 1024 * p + x → t.fires.get k d = u.fires.get k d) ∧
  (∀ y, y < 1024 → y ≠ x → t.evgPend p y = u.evgPend p y) ∧ TopShown t p ∧
  t = { u with regs := t.regs, fires := t.fires } ∧
  ∀ off, off ∉ [RegId.EVG_PEND.addr p (x / 32), RegId.EVG_TOP.addr p 0] → Kept u t off

end Sys2Proof.Machine

/-- R483 and R486, for every source, and the timers of R482. -/
def Obligations.SourcesArePendingAndCounted : Prop :=
  (∀ (p : Proc) (x : Fin 1023) (ix : Fin 4) (s : State),
    (∃ t, exec (.eventSourceFire p x) s = .next t ∧ Fired (procNum p) x.val s t) ∧
    (∃ t, exec (.timer p ix) s = .next t ∧ Fired (procNum p) (1 + ix.val) s t)) ∧
  (∀ (src : Src) (p : Proc) (ix : Fin 32) (v : Word) (s u : State),
    (Reaches s src .EVG_PSET (procNum p) u →
      (srcWorld src = .s → ∃ t, exec (.evgPset src p ix v) s = .next t ∧
        (∀ b, b < 32 → 32 * ix.val + b < 1023 → bit v.toNat b = true → t.evgPend (procNum p) (32 * ix.val + b) = true ∧
          t.fires.get (1024 * procNum p + (32 * ix.val + b)) 0 =
            Nat.min (u.fires.get (1024 * procNum p + (32 * ix.val + b)) 0 + 1) 255) ∧
        (∀ b, b < 32 → bit v.toNat b = false → t.evgPend (procNum p) (32 * ix.val + b) = u.evgPend (procNum p) (32 * ix.val + b) ∧
          t.fires.get (1024 * procNum p + (32 * ix.val + b)) 0 = u.fires.get (1024 * procNum p + (32 * ix.val + b)) 0) ∧
        t = { u with regs := t.regs, fires := t.fires } ∧
        ∀ off, off ∉ [RegId.EVG_PEND.addr (procNum p) ix.val, RegId.EVG_TOP.addr (procNum p) 0] → Kept u t off) ∧
      (∀ f, src = .fn f → exec (.evgPset src p ix v) s = .next u ∨
        ∃ t, exec (.evgPset src p ix v) s = .next t ∧
          Violation 1 (0x40 + f.val) (RegId.EVG_PSET.addr (procNum p) ix.val) u t)) ∧
    (Reaches s src .EVG_PCLR (procNum p) u →
      (srcWorld src = .s → ∃ t, exec (.evgPclr src p ix v) s = .next t ∧
        (∀ b, b < 32 → bit v.toNat b = true → t.evgPend (procNum p) (32 * ix.val + b) = false ∧
          t.fires.get (1024 * procNum p + (32 * ix.val + b)) 0 = 0) ∧
        (∀ b, b < 32 → bit v.toNat b = false → t.evgPend (procNum p) (32 * ix.val + b) = u.evgPend (procNum p) (32 * ix.val + b) ∧
          t.fires.get (1024 * procNum p + (32 * ix.val + b)) 0 = u.fires.get (1024 * procNum p + (32 * ix.val + b)) 0) ∧
        t = { u with regs := t.regs, fires := t.fires } ∧
        ∀ off, off ∉ [RegId.EVG_PEND.addr (procNum p) ix.val, RegId.EVG_TOP.addr (procNum p) 0] → Kept u t off) ∧
      (∀ f, src = .fn f → exec (.evgPclr src p ix v) s = .next u ∨
        ∃ t, exec (.evgPclr src p ix v) s = .next t ∧
          Violation 1 (0x40 + f.val) (RegId.EVG_PCLR.addr (procNum p) ix.val) u t)))

/-- R484. -/
def Obligations.SelectionIsMostUrgentLowestSource : Prop :=
  ∀ (p : Proc) (s : State),
    (∀ x, s.evgTop (procNum p) = some x ↔
      x < 1024 ∧ s.evgReady (procNum p) x = true ∧
        ∀ y, y < 1024 → s.evgReady (procNum p) y = true →
          s.evgPrio (procNum p) x < s.evgPrio (procNum p) y ∨
            (s.evgPrio (procNum p) x = s.evgPrio (procNum p) y ∧ x ≤ y)) ∧
    (∀ x, s.flag F.EVG_CTL_EN (procNum p) = true → (s.proc (procNum p)).active.length < 16 →
      s.evgTop (procNum p) = some x →
      (∀ a, (s.proc (procNum p)).active.head? = some a → s.evgGroup (procNum p) x < s.evgGroup (procNum p) a) →
      exec (.gathererInterrupt p) s = .next (s.setProc (procNum p) { s.proc (procNum p) with irq := true })) ∧
    (s.flag F.EVG_CTL_EN (procNum p) = false ∨ 16 ≤ (s.proc (procNum p)).active.length ∨
        s.evgTop (procNum p) = none ∨
        (∃ x a, s.evgTop (procNum p) = some x ∧ (s.proc (procNum p)).active.head? = some a ∧
          s.evgGroup (procNum p) a ≤ s.evgGroup (procNum p) x) →
      exec (.gathererInterrupt p) s = .next s)

/-- R485. -/
def Obligations.TakeAndEndNestSources : Prop :=
  ∀ (src : Src) (p : Proc) (v : Word) (s u : State),
    (Reaches s src .EVG_TAKE (procNum p) u →
      let x := bits v.toNat 9 0
      (srcWorld src = .s → x < 1023 → u.evgReady (procNum p) x = true →
        ∃ t, exec (.evgTake src p v) s = .next t ∧ (t.proc (procNum p)).active = x :: (u.proc (procNum p)).active ∧
          t.evgPend (procNum p) x = false ∧ t.evgAct (procNum p) x = true ∧ t.fires.get (1024 * procNum p + x) 0 = 0 ∧
          t.fld F.EVG_RUN_COUNT (procNum p) = u.fires.get (1024 * procNum p + x) 0 % 256 ∧ TopShown t (procNum p) ∧
          t = { u with regs := t.regs, fires := t.fires, procs := t.procs } ∧
          ∀ off, off ∉ [RegId.EVG_TAKE.addr (procNum p) 0, RegId.EVG_PEND.addr (procNum p) (x / 32),
            RegId.EVG_ACT.addr (procNum p) (x / 32), RegId.EVG_RUN.addr (procNum p) 0, RegId.EVG_TOP.addr (procNum p) 0] →
            Kept u t off) ∧
      (srcWorld src = .s → ¬ (x < 1023 ∧ u.evgReady (procNum p) x = true) →
        ∃ t, exec (.evgTake src p v) s = .next t ∧ RegsOnly u t [RegId.EVG_TAKE.addr (procNum p) 0]) ∧
      (∀ f, src = .fn f → exec (.evgTake src p v) s = .next u ∨
        ∃ t, exec (.evgTake src p v) s = .next t ∧
          Violation 1 (0x40 + f.val) (RegId.EVG_TAKE.addr (procNum p) 0) u t)) ∧
    (Reaches s src .EVG_EOI (procNum p) u →
      let x := bits v.toNat 9 0
      (srcWorld src = .s → ∀ rest, (u.proc (procNum p)).active = x :: rest →
        ∃ t, exec (.evgEoi src p v) s = .next t ∧ (t.proc (procNum p)).active = rest ∧ t.evgAct (procNum p) x = false ∧
          t = { u with regs := t.regs, procs := t.procs } ∧
          ∀ off, off ∉ [RegId.EVG_EOI.addr (procNum p) 0, RegId.EVG_ACT.addr (procNum p) (x / 32),
            RegId.EVG_RUN.addr (procNum p) 0, RegId.EVG_TOP.addr (procNum p) 0] → Kept u t off) ∧
      (srcWorld src = .s → (u.proc (procNum p)).active.head? ≠ some x →
        ∃ t, exec (.evgEoi src p v) s = .next t ∧ t.flag F.EVG_CTL_EOI_ERR (procNum p) = true ∧
          RegsOnly u t [RegId.EVG_EOI.addr (procNum p) 0, RegId.EVG_CTL.addr (procNum p) 0]) ∧
      (∀ f, src = .fn f → exec (.evgEoi src p v) s = .next u ∨
        ∃ t, exec (.evgEoi src p v) s = .next t ∧
          Violation 1 (0x40 + f.val) (RegId.EVG_EOI.addr (procNum p) 0) u t))

/-! ## Host interface: ranges, admin queues, interrupts, doorbells, windows -/

namespace Sys2Proof.Machine

/-- The sizes of the MSI-X tables of every function but `f`. -/
def msixOthers (u : State) (f : Nat) : Nat :=
  ((List.range 64).filter (· ≠ f)).foldl (fun a g => a + u.fld F.HIF_FN_MSIX_SIZE g) 0

/-- The table entries of three consecutive queues. -/
def inQueues (b a : Nat) : Prop := ∃ k, k < 3 ∧ qAddr (b + k) ≤ a ∧ a < qAddr (b + k) + 128

/-- A queue that belongs to host function `f`, in the world of its doorbells. -/
abbrev OwnQueue (s : State) (f q : Nat) (ide : Bool) : Prop :=
  s.qState q ≠ 0 ∧ s.qOwner q = f ∧ s.qWorld q = s.fnWorld f ide

end Sys2Proof.Machine

/-- R433 and R443. -/
def Obligations.QueueRangesAndVectorsStayWithinBounds : Prop :=
  ∀ (src : Src) (f : Fin 64) (v : Word) (vec : Nat) (s u : State),
    (Reaches s src .HIF_FN_QBASE f.val u →
      (pfWrites src = true → u.rangeOk f.val (bits v.toNat 14 0) (bits v.toNat 31 16) = true →
        ∃ t, exec (.hifFnQbase src f v) s = .next t ∧ t.fld F.HIF_FN_QBASE_QBASE f.val = bits v.toNat 14 0 ∧
          t.fld F.HIF_FN_QBASE_QCNT f.val = bits v.toNat 31 16 ∧ RegsOnly u t [RegId.HIF_FN_QBASE.addr f.val 0]) ∧
      (pfWrites src = true → u.rangeOk f.val (bits v.toNat 14 0) (bits v.toNat 31 16) = false →
        ∃ t, exec (.hifFnQbase src f v) s = .next t ∧ t.flag F.HIF_ERR_RANGE = true ∧ BitsKept u t F.HIF_ERR_RANGE ∧
          RegsOnly u t [RegId.HIF_ERR.addr 0 0]) ∧
      (pfWrites src = false → exec (.hifFnQbase src f v) s = .next u)) ∧
    (Reaches s src .HIF_FN_MSIX f.val u →
      (pfWrites src = true → msixOthers u f.val + bits v.toNat 12 0 ≤ 4096 →
        ∃ t, exec (.hifFnMsix src f v) s = .next t ∧ t.fld F.HIF_FN_MSIX_SIZE f.val = bits v.toNat 12 0 ∧
          RegsOnly u t [RegId.HIF_FN_MSIX.addr f.val 0]) ∧
      (pfWrites src = true → 4096 < msixOthers u f.val + bits v.toNat 12 0 →
        ∃ t, exec (.hifFnMsix src f v) s = .next t ∧ t.flag F.HIF_ERR_RANGE = true ∧ BitsKept u t F.HIF_ERR_RANGE ∧
          RegsOnly u t [RegId.HIF_ERR.addr 0 0]) ∧
      (pfWrites src = false → exec (.hifFnMsix src f v) s = .next u)) ∧
    (s.inReset = false → vec < s.fld F.HIF_FN_MSIX_SIZE f.val →
      ∃ t, exec (.msixUnmask f vec) s = .next t ∧
        t.msix.get (4096 * f.val + vec) {} = { masked := false, pend := false } ∧
        (∀ k d, k ≠ 4096 * f.val + vec → t.msix.get k d = s.msix.get k d) ∧
        t.out = s.out ++ (if (s.msix.get (4096 * f.val + vec) {}).pend then [.msix f.val vec] else []) ∧
        t = { s with msix := t.msix, out := t.out })

/-- R433. That fewer than three queues are not enough is the model's choice. -/
def Obligations.AdminQueuesFollowAdmEn : Prop :=
  ∀ (src : Src) (f : Fin 64) (s u : State), Reaches s src .HIF_FN_CTL f.val u →
    let b := u.fld F.HIF_FN_QBASE_QBASE f.val
    (u.flag F.HIF_FN_ST_ADM_ACT f.val = false → 3 ≤ u.fld F.HIF_FN_QBASE_QCNT f.val → b + 2 < 32768 →
      ∃ t, exec (.admEnable src f) s = .next t ∧ t.flag F.HIF_FN_CTL_ADM_EN f.val = true ∧
        t.flag F.HIF_FN_ST_ADM_ACT f.val = true ∧
        (t.qClass b = 0 ∧ t.qClass (b + 1) = 1 ∧ t.qClass (b + 2) = 6) ∧
        (∀ k, k < 3 → t.qState (b + k) = 1 ∧ t.qOwner (b + k) = f.val ∧ t.qWorld (b + k) = .n ∧ t.qHostRing (b + k) = true ∧
          t.qHead (b + k) = 0 ∧ t.qTail (b + k) = 0 ∧ t.qPhase (b + k) = 1) ∧
        (t.qSize b = admSize (u.fld F.HIF_FN_CTL_ASQ_LOG f.val) ∧ t.qSize (b + 1) = admSize (u.fld F.HIF_FN_CTL_ACQ_LOG f.val) ∧
          t.qSize (b + 2) = admSize (u.fld F.HIF_FN_CTL_AEQ_LOG f.val)) ∧
        (∀ a, ¬ inQueues b a → t.byte a = u.byte a) ∧ t = { u with regs := t.regs, mem := t.mem }) ∧
    (u.flag F.HIF_FN_ST_ADM_ACT f.val = false → u.fld F.HIF_FN_QBASE_QCNT f.val < 3 →
      ∃ t, exec (.admEnable src f) s = .next t ∧ t.flag F.HIF_FN_CTL_ADM_EN f.val = true ∧
        RegsOnly u t [RegId.HIF_FN_CTL.addr f.val 0]) ∧
    (u.flag F.HIF_FN_ST_ADM_ACT f.val = true → b + 2 < 32768 →
      ∃ t, exec (.admDisable src f) s = .next t ∧ t.flag F.HIF_FN_CTL_ADM_EN f.val = false ∧
        t.flag F.HIF_FN_ST_ADM_ACT f.val = false ∧ (∀ k, k < 3 → t.qState (b + k) = 0) ∧
        (∀ a, ¬ inQueues b a → t.byte a = u.byte a) ∧
        t = { u with regs := t.regs, mem := t.mem, arbs := t.arbs, qLost := t.qLost })

/-- R430 and R431. -/
def Obligations.DoorbellMovesOnlyTheOwnersIndex : Prop :=
  ∀ (f : Fin 64) (ide : Bool) (q : Fin 32768) (ix : Nat) (s : State), s.inReset = false → ix < 4294967296 →
    (s.qState q.val = 0 ∨ s.qOwner q.val ≠ f.val →
      ∃ t, exec (.doorbell (.fn f) ide q ix) s = .next t ∧
        t.fld F.HIF_FN_DBDROP_COUNT f.val = Nat.min (s.fld F.HIF_FN_DBDROP_COUNT f.val + 1) F.HIF_FN_DBDROP_COUNT.max ∧
        RegsOnly s t [RegId.HIF_FN_DBDROP.addr f.val 0]) ∧
    (s.qState q.val ≠ 0 → s.qOwner q.val = f.val → s.qWorld q.val ≠ s.fnWorld f.val ide →
      ∃ u t, exec (.doorbell (.fn f) ide q ix) s = .next t ∧ Violation 6 (0x40 + f.val) (64 * q.val) u t ∧
        u.fld F.HIF_FN_DBDROP_COUNT f.val = Nat.min (s.fld F.HIF_FN_DBDROP_COUNT f.val + 1) F.HIF_FN_DBDROP_COUNT.max ∧
        RegsOnly s u [RegId.HIF_FN_DBDROP.addr f.val 0]) ∧
    (OwnQueue s f.val q.val ide → s.qState q.val = 1 → ix < s.qSize q.val → s.qClass q.val ∈ [0, 2, 5] →
      ∃ t, exec (.doorbell (.fn f) ide q ix) s = .next t ∧ t.qTail q.val = ix ∧
        ∀ a, ¬ (qAddr q.val + 40 ≤ a ∧ a < qAddr q.val + 44) → t.byte a = s.byte a) ∧
    (OwnQueue s f.val q.val ide → s.qState q.val = 1 → ix < s.qSize q.val → s.qClass q.val ∈ [1, 3, 6] →
      (ix + s.qSize q.val - s.qHead q.val) % s.qSize q.val ≤
        (s.qTail q.val + s.qSize q.val - s.qHead q.val) % s.qSize q.val →
      ∃ t, exec (.doorbell (.fn f) ide q ix) s = .next t ∧ t.qHead q.val = ix ∧ t = { s with mem := t.mem } ∧
        ∀ a, ¬ (qAddr q.val + 36 ≤ a ∧ a < qAddr q.val + 40) → t.byte a = s.byte a) ∧
    (OwnQueue s f.val q.val ide → s.qState q.val = 1 → s.qSize q.val ≤ ix →
      exec (.doorbell (.fn f) ide q ix) s = .next ((s.setQf q.val 32 1 2).postAdmin f.val 0x0A srcDevice 0 [q.val, ix, 1]))

/-- R375, R432 and R426. -/
def Obligations.WindowAccessStaysInItsWorldOfHbm : Prop :=
  ∀ (f : Fin 64) (ide : Bool) (off n : Nat) (d : List Byte) (s : State), s.inReset = false →
    let w := off / 0x10000000
    let a := s.windowAddr f.val off
    let win := World.ofBit (s.flag F.HIF_WIN_LO_WORLD f.val w)
    let allowed := fun (len : Nat) => w < 16 ∧ s.flag F.HIF_WIN_LO_EN f.val w = true ∧ s.place a = .hbm ∧ s.inOne a len = true
    let mine := win = s.fnWorld f.val ide ∨ win = .n
    (allowed n → s.zeroingIn a n = false → mine → s.rangeWorld a n win = true →
      ∃ t, exec (.bar4Access f ide off (.read n)) s = .next t ∧ t.out = s.out ++ [.readData (s.bytes a n)] ∧ t.mem = s.mem) ∧
    (allowed d.length → s.zeroingIn a d.length = false → mine → s.rangeWorld a d.length win = true →
      ∃ t, exec (.bar4Access f ide off (.write d)) s = .next t ∧ t.out = s.out ∧
        (s.lockedAt a d.length = false → t.bytes a d.length = d) ∧ (∀ x, s.lockedAt x 1 = true → t.byte x = s.byte x) ∧
        ∀ x, ¬ (a ≤ x ∧ x < a + d.length) → t.byte x = s.byte x) ∧
    (¬ allowed n → ∃ t, exec (.bar4Access f ide off (.read n)) s = .next t ∧ t.flag F.HIF_ERR_WIN = true ∧
      t.out = s.out ++ [.unsupported] ∧ RegsOnly { s with out := t.out } t [RegId.HIF_ERR.addr 0 0]) ∧
    (¬ allowed d.length → ∃ t, exec (.bar4Access f ide off (.write d)) s = .next t ∧ t.flag F.HIF_ERR_WIN = true ∧
      RegsOnly s t [RegId.HIF_ERR.addr 0 0]) ∧
    (allowed d.length → s.zeroingIn a d.length = false → ¬ mine ∨ s.rangeWorld a d.length win = false →
      ∃ u t, exec (.bar4Access f ide off (.write d)) s = .next t ∧ Violation 7 (0x40 + f.val) a u t ∧
        u.flag F.HIF_ERR_WIN = true ∧ RegsOnly s u [RegId.HIF_ERR.addr 0 0])
/-! ## Instructions at issue -/

namespace Sys2Proof.Machine

/-- The instruction rows with the opcode and form that each one takes. -/
def instrRows (n : Fin 16) (sl : Fin 6) : List (Instr × (Nat × Nat)) :=
  [(.nop n sl, (0, 0)), (.mma n sl, (0x10, 0)), (.mmq n sl, (0x11, 0)), (.sld n sl, (0x12, 0)), (.vop n sl, (0x13, 0)),
   (.drc n sl, (0x14, 0)), (.rdx n sl, (0x15, 0)), (.ldt n sl, (0x20, 0)), (.sttFromPort n sl, (0x21, 0)),
   (.sttFromImage n sl, (0x21, 1)), (.sttFromDrain n sl, (0x21, 2)), (.gat n sl, (0x22, 0)), (.sct n sl, (0x23, 0)),
   (.put n sl, (0x24, 0)), (.get n sl, (0x25, 0)), (.atm n sl, (0x26, 0)), (.snd n sl, (0x30, 0)),
   (.rcvCopy n sl, (0x31, 0)), (.rcvDiscard n sl, (0x31, 1)), (.loop n sl, (0x40, 0)), (.hold n sl, (0x41, 0)),
   (.wait n sl, (0x42, 0)), (.pegSend n sl, (0x43, 0)), (.pegTake n sl, (0x43, 1)), (.steer n sl, (0x44, 0)),
   (.chn n sl, (0x50, 0)), (.prmReceive n sl, (0x51, 0)), (.prmCommit n sl, (0x51, 1)), (.upd n sl, (0x52, 0)),
   (.tally n sl, (0x60, 0)), (.scaleCommit n sl, (0x61, 0)), (.scaleDiscard n sl, (0x61, 1)), (.setEInit n sl, (0x61, 2)),
   (.setEFix n sl, (0x61, 3)), (.fence n sl, (0x62, 0))]

/-- The sequencer of core `n` issues slot `sl`, whose context `x` stands at a word of the row. -/
abbrev Turn (s : State) (n sl : Nat) (x : StnSt) (row : Nat × Nat) : Prop :=
  s.stn? n sl = some x ∧ s.pick n = some sl ∧ rowOf x.word = row

/-- The same, and the word passes the checks of its encoding, its slot and an open quad group. -/
abbrev Issuing (s : State) (n sl : Nat) (x : StnSt) (row : Nat × Nat) : Prop :=
  Turn s n sl x row ∧ s.earlyFault n sl x x.word = none

/-- Position `pc` lies in the program and ends no loop body: going on there ends no firing and no run. -/
abbrev Inside (x : StnSt) (pc : Nat) : Prop := pc < x.prog.length ∧ ∀ l ∈ x.loops.getLast?, l.stop ≠ pc

/-- Slot `sl` of core `n` has issued one instruction more, was the last to issue, and its context stands at `pc`. -/
def Accepted (s t : State) (n sl pc : Nat) : Prop :=
  (t.core n).issued = (s.core n).issued + 1 ∧ (t.core n).lastSlot = sl ∧ ∃ y, t.stn? n sl = some y ∧ y.pc = pc

/-- Only cores, the section's progress and the completion count of the slot differ: every other register, memory, streams,
engines, drains, queues and the rest are the same. -/
def StationOnly (s t : State) (n sl : Nat) : Prop :=
  t = { s with regs := t.regs, cores := t.cores, sect := t.sect } ∧
    ∀ off, off ≠ RegId.CO_DONE.addr n sl → Kept s t off

/-- Every byte outside `[a, a+len)` reads as before. -/
def MemOutside (s t : State) (a len : Nat) : Prop := ∀ x, ¬ (a ≤ x ∧ x < a + len) → t.byte x = s.byte x

/-- Two ranges share no byte. -/
abbrev Apart (a la b lb : Nat) : Prop := a + la ≤ b ∨ b + lb ≤ a ∨ la = 0 ∨ lb = 0

/-- Stream `y` is the one listed under its identifier. -/
abbrev Strm (s : State) (y : StreamSt) : Prop := s.strm? y.id = some y

/-- The head of stream `y`'s queue has left it. -/
def HeadTaken (t : State) (y : StreamSt) : Prop := ∃ z, t.strm? y.id = some z ∧ z.queue = y.queue.drop 1

/-- One more tile `b` has been sent on stream `y`: a credit fewer, the next sequence number, and, for a consumer on the
device, the tile on its way. -/
def TileSent (t : State) (y : StreamSt) (b : List Byte) : Prop :=
  ∃ z, t.strm? y.id = some z ∧ z.credits = y.credits - 1 ∧ z.txSeq = y.txSeq + 1 ∧
    (y.kind ≠ 4 → z.flight = y.flight ++ [b])

end Sys2Proof.Machine

/-- R165, R208 and R209 for every instruction. -/
def Obligations.IssueFollowsSequencerAndWordChecks : Prop :=
  ∀ (n : Fin 16) (sl : Fin 6) (s : State), ∀ row ∈ instrRows n sl,
    ((∀ x, ¬ Turn s n.val sl.val x row.2) → exec row.1 s = .next s) ∧
    (∀ x c, Turn s n.val sl.val x row.2 → s.earlyFault n.val sl.val x x.word = some c →
      ∃ t, exec row.1 s = .next t ∧ (t.core n.val).issued = (s.core n.val).issued ∧ (t.core n.val).lastSlot = sl.val ∧
        (∃ y, t.stn? n.val sl.val = some y ∧ y.halted = true ∧ y.pc = x.pc) ∧ t.evgPend 4 (208 + n.val) = true ∧
        (s.flag F.CO_IFLT_VALID n.val = false → t.flag F.CO_IFLT_VALID n.val = true ∧ t.fld F.CO_IFLT_CODE n.val = c ∧
          t.fld F.CO_IFLT_SLOT n.val = sl.val ∧ t.fld F.CO_IFLT_OPCODE n.val = wOp x.word ∧
          t.fld F.CO_IFLT_PC_PC n.val = x.pc % 2 ^ (F.CO_IFLT_PC_PC.hi + 1)) ∧
        t.streams = s.streams ∧ t.engines = s.engines ∧ t.drains = s.drains ∧ t.xfers = s.xfers ∧ t.atoms = s.atoms)

/-- R202 (NOP), R262, R263, R264 and R268. -/
def Obligations.ControlInstructionsAdvanceTheContext : Prop :=
  ∀ (n : Fin 16) (sl : Fin 6) (s : State) (x : StnSt),
    (∀ c ∈ [(Instr.nop n sl, (0, 0)), (Instr.fence n sl, (0x62, 0))], Issuing s n.val sl.val x c.2 → Inside x (x.pc + 1) →
      ∃ t, exec c.1 s = .next t ∧ Accepted s t n.val sl.val (x.pc + 1) ∧ StationOnly s t n.val sl.val ∧
        (x.outst = [] → t.fld F.CO_DONE_COUNT n.val sl.val = (s.fld F.CO_DONE_COUNT n.val sl.val + 1) % 4294967296)) ∧
    (Issuing s n.val sl.val x (0x41, 0) → Inside x (x.pc + 1) →
      ∃ t, exec (.hold n sl) s = .next t ∧ Accepted s t n.val sl.val (x.pc + 1) ∧
        t.fld F.CO_HOLDS_COUNT n.val sl.val = (s.fld F.CO_HOLDS_COUNT n.val sl.val + 1) % 2 ^ (F.CO_HOLDS_COUNT.hi + 1) ∧
        (∃ y, t.stn? n.val sl.val = some y ∧ y.holdsOf = bumpHolds (bits x.word 31 0) x.holdsOf) ∧
        t = { s with regs := t.regs, cores := t.cores, sect := t.sect } ∧
        ∀ off, off ∉ [RegId.CO_DONE.addr n.val sl.val, RegId.CO_HOLDS.addr n.val sl.val] → Kept s t off) ∧
    (Issuing s n.val sl.val x (0x42, 0) → Inside x (x.pc + 1) → s.judgeWait n.val sl.val x x.word = none →
      ∃ t, exec (.wait n sl) s = .next t ∧ Accepted s t n.val sl.val (x.pc + 1) ∧ StationOnly s t n.val sl.val ∧
        ∃ y, t.stn? n.val sl.val = some y ∧ y.regs =
          (postInc (if wSub x.word ≠ 0 ∧ bit x.word 3 = true then x.setCt (bits x.word 64 62) (s.load (wAd x x.word) 4) else x)
            x.word).regs) ∧
    (Issuing s n.val sl.val x (0x40, 0) → s.judgeLoop n.val sl.val x x.word = none →
      let body := bits x.word 47 32
      let count := if wSub x.word = 0 then bits x.word 31 0 else if wSub x.word = 1 then x.ct (bits x.word 67 65) else x.firings
      (count ≠ 0 → ∃ t, exec (.loop n sl) s = .next t ∧ Accepted s t n.val sl.val (x.pc + 1) ∧ StationOnly s t n.val sl.val ∧
        ∃ y, t.stn? n.val sl.val = some y ∧ y.loops = x.loops ++ [⟨x.pc + 1, x.pc + 1 + body, count⟩]) ∧
      (count = 0 → Inside x (x.pc + 1 + body) → ∃ t, exec (.loop n sl) s = .next t ∧
        Accepted s t n.val sl.val (x.pc + 1 + body) ∧ StationOnly s t n.val sl.val ∧
        ∃ y, t.stn? n.val sl.val = some y ∧ y.loops = x.loops))

/-- R265 to R267. -/
def Obligations.PegsAndSteersMoveTheirTokens : Prop :=
  ∀ (n : Fin 16) (sl : Fin 6) (s : State) (x : StnSt), Inside x (x.pc + 1) →
    (∀ y, Issuing s n.val sl.val x (0x43, 0) → s.pegOut n.val sl.val (wPort x.word) = some y →
      ∃ t, exec (.pegSend n sl) s = .next t ∧ Accepted s t n.val sl.val (x.pc + 1) ∧ t.mem = s.mem ∧
        ∃ z, t.strm? y.id = some z ∧ z.credits = y.credits - 1 ∧
          (y.kind ≠ 4 → z.flight = y.flight ++
            [pegBytes (x.ct (bits x.word 67 65) % 65536) (bits x.word 3 0) s.sectWorld y.wepoch])) ∧
    (∀ y, Issuing s n.val sl.val x (0x43, 1) → s.pegIn n.val sl.val (wPort x.word) = some y → Strm s y →
      ∃ t, exec (.pegTake n sl) s = .next t ∧ Accepted s t n.val sl.val (x.pc + 1) ∧ t.mem = s.mem ∧ HeadTaken t y ∧
        ∃ z, t.stn? n.val sl.val = some z ∧ z.regs = (x.setCt (bits x.word 64 62) (fieldAt (y.queue.headD []) 0 2)).regs) ∧
    (∀ q g k, Issuing s n.val sl.val x (0x44, 0) → s.takePort n.val sl.val (wPort x.word) = some q →
      s.pegIn n.val sl.val (wPort2 x.word) = some g → Strm s q → Strm s g → q.id ≠ g.id →
      s.judgeSteer n.val sl.val x x.word = none → x.steer.getD (x.ct (bits x.word 67 65)) = k + 1 →
      pegBad x.word (g.queue.headD []) = false →
      ∃ t, exec (.steer n sl) s = .next t ∧ HeadTaken t q ∧ HeadTaken t g ∧ t.mem = s.mem ∧
        (k = 0 → Accepted s t n.val sl.val (x.pc + 1)) ∧
        (k ≠ 0 → (t.core n.val).issued = (s.core n.val).issued ∧ ∃ y, t.stn? n.val sl.val = some y ∧ y.steer = some k ∧
          y.pc = x.pc)) ∧
    (Issuing s n.val sl.val x (0x44, 0) → s.judgeSteer n.val sl.val x x.word = none →
      x.steer.getD (x.ct (bits x.word 67 65)) = 0 →
      ∃ t, exec (.steer n sl) s = .next t ∧ Accepted s t n.val sl.val (x.pc + 1) ∧ StationOnly s t n.val sl.val)

/-- R234 to R237 with R134 and R135. -/
def Obligations.VectorOperationsWriteTheirElements : Prop :=
  ∀ (n : Fin 16) (sl : Fin 6) (s : State) (x : StnSt), Inside x (x.pc + 1) →
    let regs := [RegId.CO_DONE.addr n.val sl.val, RegId.VE_CYC_BUSY.addr n.val 0, RegId.VE_CYC_QTR.addr n.val 0,
      RegId.VE_CYC_FP64.addr n.val 0]
    (Issuing s n.val sl.val x (0x13, 0) → s.judgeVop n.val sl.val x x.word = none →
      let v := vopOf x x.word
      let out := vopOut v.o v.k v.cfmt
      let rd := fun (a i : Nat) => decodeIeee (vfmt v.k) true (s.load (a + i * vwidth v.k) (vwidth v.k))
      v.cnt ≤ vlen v.k →
      ∃ t, exec (.vop n sl) s = .next t ∧ Accepted s t n.val sl.val (x.pc + 1) ∧
        (∀ i, i < v.cnt → t.load (v.dst + i * out) out =
          vopCode v.o v.k v.cfmt v.rm (rd v.sa i)
            (match v.sb with | some a => rd a i | none => decodeIeee (vfmt v.k) true (v.imm % 2 ^ (8 * vwidth v.k)))
            (match v.sc with | some a => rd a i | none => vzero) % 2 ^ (8 * out)) ∧
        MemOutside s t v.dst (v.cnt * out) ∧
        t = { s with regs := t.regs, cores := t.cores, sect := t.sect, mem := t.mem } ∧ ∀ off, off ∉ regs → Kept s t off) ∧
    (Issuing s n.val sl.val x (0x15, 0) → s.judgeRdx n.val sl.val x x.word = none →
      let r := rdxOf x x.word
      let wd := vwidth r.k
      Apart r.dst (r.cts * wd) r.src (if r.ctn = 0 then 0 else ((r.cts - 1) * r.ctd + r.ctn) * wd) →
      ∃ t, exec (.rdx n sl) s = .next t ∧ Accepted s t n.val sl.val (x.pc + 1) ∧
        (∀ i, i < r.cts → t.load (r.dst + i * wd) wd =
          encodeIeee (vfmt r.k) (rdxVal (vfmt r.k) r.rm r.op ((List.range r.ctn).map (fun j =>
            decodeIeee (vfmt r.k) true (s.load (r.src + (i * r.ctd + j) * wd) wd)))) % 2 ^ (8 * wd)) ∧
        MemOutside s t r.dst (r.cts * wd) ∧
        t = { s with regs := t.regs, cores := t.cores, sect := t.sect, mem := t.mem } ∧ ∀ off, off ∉ regs → Kept s t off)

/-- R248 to R251. -/
def Obligations.TileMovesTakeAndSendTiles : Prop :=
  ∀ (n : Fin 16) (sl : Fin 6) (s : State) (x : StnSt), Inside x (x.pc + 1) →
    let w := x.word
    let d := s.xdesc x w
    (∀ y, Issuing s n.val sl.val x (0x20, 0) → s.judgeLdt n.val sl.val x w = none →
      s.sendPort n.val sl.val (wPort w) = some y → Strm s y →
      ∃ t, exec (.ldt n sl) s = .next t ∧ Accepted s t n.val sl.val (x.pc + 1) ∧ t.mem = s.mem ∧
        TileSent t y (s.builtTile n.val y d.fmt d.lastt d.vrows d.vcols d.scale d.tensor d.row0 d.col0 d.addr d.ld)) ∧
    (∀ y, Issuing s n.val sl.val x (0x30, 0) → s.judgeSnd n.val sl.val x w = none →
      s.sendPort n.val sl.val (wPort w) = some y → Strm s y →
      ∃ t, exec (.snd n sl) s = .next t ∧ Accepted s t n.val sl.val (x.pc + 1) ∧ t.mem = s.mem ∧
        TileSent t y (s.resend n.val y (s.bytes (wAd x w) (imageLen (s.bytes (wAd x w) 64) y.mxcol)))) ∧
    (∀ y, Issuing s n.val sl.val x (0x31, 0) → s.judgeRcv n.val sl.val x w = none →
      s.takePort n.val sl.val (wPort w) = some y → Strm s y →
      let img := (y.queue.headD []).take (imageLen (y.queue.headD []) y.mxcol)
      s.lockedAt (wAd x w) (imageLen (y.queue.headD []) y.mxcol) = false →
      ∃ t, exec (.rcvCopy n sl) s = .next t ∧ Accepted s t n.val sl.val (x.pc + 1) ∧ HeadTaken t y ∧
        t.bytes (wAd x w) img.length = img ∧ MemOutside s t (wAd x w) img.length) ∧
    (∀ y, Issuing s n.val sl.val x (0x31, 1) → s.judgeRcv n.val sl.val x w = none →
      s.takePort n.val sl.val (wPort w) = some y → Strm s y →
      ∃ t, exec (.rcvDiscard n sl) s = .next t ∧ Accepted s t n.val sl.val (x.pc + 1) ∧ HeadTaken t y ∧ t.mem = s.mem) ∧
    (∀ y q, Issuing s n.val sl.val x (0x21, 0) → s.judgeStt n.val sl.val x w = none →
      s.sinkPort n.val sl.val (wPort w) = some y → s.takePort n.val sl.val (wPort2 w) = some q → Strm s q →
      let img := q.queue.headD []
      s.lockedAt d.addr (stridedSpan y.fmt y.mxcol (tVrows img) (tVcols img) d.ld) = false →
      ∃ t, exec (.sttFromPort n sl) s = .next t ∧ Accepted s t n.val sl.val (x.pc + 1) ∧ HeadTaken t q ∧
        t.mem = if tEmpty img then s.mem else (s.storeStrided img y.mxcol d.addr d.ld).mem) ∧
    (∀ y, Issuing s n.val sl.val x (0x21, 1) → s.judgeStt n.val sl.val x w = none →
      s.sinkPort n.val sl.val (wPort w) = some y →
      let img := s.bytes d.addr2 (imageLen (s.bytes d.addr2 64) y.mxcol)
      s.lockedAt d.addr (stridedSpan y.fmt y.mxcol (tVrows img) (tVcols img) d.ld) = false →
      ∃ t, exec (.sttFromImage n sl) s = .next t ∧ Accepted s t n.val sl.val (x.pc + 1) ∧
        t.mem = if tEmpty img then s.mem else (s.storeStrided img y.mxcol d.addr d.ld).mem) ∧
    (Issuing s n.val sl.val x (0x21, 2) → s.judgeStt n.val sl.val x w = none →
      ∃ t, exec (.sttFromDrain n sl) s = .next t ∧ Accepted s t n.val sl.val (x.pc + 1) ∧ t.mem = s.mem ∧
        (t.dr (2 * n.val + sl.val)).claims =
          (s.dr (2 * n.val + sl.val)).claims ++ [((s.core n.val).issued, wPort w, d.addr, d.ld)])

/-- R252, R253, R255 and R257. -/
def Obligations.TransfersCopyNearAndAskFar : Prop :=
  ∀ (n : Fin 16) (sl : Fin 6) (s : State) (x : StnSt), Inside x (x.pc + 1) →
    let w := x.word
    let d := s.xdesc x w
    let id := (s.core n.val).issued
    let begun := fun (t : State) (op dev : Nat) => ∃ y ∈ t.xfers, y.core = n.val ∧ y.iid = id ∧ y.op = op ∧ y.dev = dev
    (∀ c ∈ [(Instr.put n sl, (0x24, 0)), (Instr.get n sl, (0x25, 0))], Issuing s n.val sl.val x c.2 →
      s.judgePutGet n.val sl.val x w = none →
      (d.len = 0 → ∃ t, exec c.1 s = .next t ∧ Accepted s t n.val sl.val (x.pc + 1) ∧ StationOnly s t n.val sl.val) ∧
      (∀ a, d.len ≠ 0 → s.target d.addr = .near a →
        let dst := if c.2.1 = 0x24 then a else d.addr2
        let src := if c.2.1 = 0x24 then d.addr2 else a
        s.lockedAt dst d.len = false →
        ∃ t, exec c.1 s = .next t ∧ Accepted s t n.val sl.val (x.pc + 1) ∧ t.bytes dst d.len = s.bytes src d.len ∧
          MemOutside s t dst d.len ∧ t = { s with regs := t.regs, cores := t.cores, sect := t.sect, mem := t.mem }) ∧
      (∀ dev a, d.len ≠ 0 → s.target d.addr = .far dev a →
        ∃ t, exec c.1 s = .next t ∧ Accepted s t n.val sl.val (x.pc + 1) ∧ begun t c.2.1 dev ∧ t.mem = s.mem)) ∧
    (∀ y, Issuing s n.val sl.val x (0x23, 0) → s.judgeSct n.val sl.val x w = none →
      s.takePort n.val sl.val (wPort w) = some y → Strm s y →
      (tEmpty (y.queue.headD []) = true →
        ∃ t, exec (.sct n sl) s = .next t ∧ Accepted s t n.val sl.val (x.pc + 1) ∧ HeadTaken t y ∧ t.mem = s.mem) ∧
      (∀ a, tEmpty (y.queue.headD []) = false → s.target d.addr = .near a → s.shCount = 0 →
        ∃ t, exec (.sct n sl) s = .next t ∧ Accepted s t n.val sl.val (x.pc + 1) ∧ HeadTaken t y ∧
          ∀ b, (∀ r ∈ s.sctRows (y.queue.headD []) d a,
              ¬ (r.2 ≤ b ∧ b < r.2 + (rowBytes (y.queue.headD []) y.mxcol r.1).length)) → t.byte b = s.byte b) ∧
      (∀ dev a, tEmpty (y.queue.headD []) = false → s.target d.addr = .far dev a →
        (s.sctRows (y.queue.headD []) d a).flatMap (fun p => dataParts p.2 (rowBytes (y.queue.headD []) y.mxcol p.1)) ≠ [] →
        ∃ t, exec (.sct n sl) s = .next t ∧ Accepted s t n.val sl.val (x.pc + 1) ∧ HeadTaken t y ∧ begun t 0x23 dev ∧
          t.mem = s.mem)) ∧
    (Issuing s n.val sl.val x (0x26, 0) → s.judgeAtm n.val sl.val x w = none →
      (∀ a, s.target (wAd x w) = .near a → ∃ t, exec (.atm n sl) s = .next t ∧ Accepted s t n.val sl.val (x.pc + 1) ∧
        t.mem = s.mem ∧ t.atoms = s.atoms ++
          [⟨a, wSub w, atmWidth w, encInt (8 * atmWidth w) (signed 32 (bits w 31 0)), x.ct (bits w 64 62), s.sectWorld,
            some (n.val, sl.val, id, if bit w 60 then some (x.ad (bits w 71 68)) else none), []⟩]) ∧
      (∀ dev a, s.target (wAd x w) = .far dev a →
        ∃ t, exec (.atm n sl) s = .next t ∧ Accepted s t n.val sl.val (x.pc + 1) ∧ begun t 0x26 dev ∧ t.mem = s.mem)) ∧
    (Issuing s n.val sl.val x (0x22, 0) → s.judgeGat n.val sl.val x w = none →
      (bits d.addr 63 49 ≠ s.selfLog →
        ∃ t, exec (.gat n sl) s = .next t ∧ Accepted s t n.val sl.val (x.pc + 1) ∧ begun t 0x22 (bits d.addr 63 49) ∧
          t.mem = s.mem) ∧
      (∀ i, bits d.addr 63 49 = s.selfLog →
        s.judgeGather d.shard (x.ct (bits w 67 65)) s.sectWorld (d.addr % 2 ^ 48) d.len = .serve i → s.shLocked i = true →
        s.lockedAt d.addr2 d.len = false →
        ∃ t, exec (.gat n sl) s = .next t ∧ Accepted s t n.val sl.val (x.pc + 1) ∧
          t.bytes d.addr2 d.len = s.bytes (s.workAddr i (d.addr % 2 ^ 48)) d.len ∧ MemOutside s t d.addr2 d.len))

/-- R221, R226, R227, R230, R231, R232 and R273. -/
def Obligations.MatrixAndDrainInstructionsQueueTheirWork : Prop :=
  ∀ (n : Fin 16) (sl : Fin 6) (s : State) (x : StnSt), Inside x (x.pc + 1) →
    let w := x.word
    let e := 2 * n.val + sl.val
    let b := s.bytes (descAddr x w) 64
    (∀ c ∈ [(Instr.mma n sl, (0x10, 0), false), (Instr.mmq n sl, (0x11, 0), true)], Issuing s n.val sl.val x c.2.1 →
      s.judgeMm c.2.2 n.val sl.val x w = none →
      ∃ t, exec c.1 s = .next t ∧ Accepted s t n.val sl.val (x.pc + 1) ∧ t.mem = s.mem ∧
        (∃ p ∈ (t.eng e).probs, p.id = (s.core n.val).issued ∧ p.desc = b ∧
          p.quad = if c.2.2 then some (bits w 95 94) else none) ∧
        (t.core n.val).mm sl.val = (s.core n.val).mm sl.val + 1) ∧
    (Issuing s n.val sl.val x (0x14, 0) → s.judgeDrc n.val sl.val x w = none →
      ∃ t, exec (.drc n sl) s = .next t ∧ Accepted s t n.val sl.val (x.pc + 1) ∧ t.mem = s.mem ∧
        (∃ ch, (t.dr e).next = some ch ∧ ch.serial = (s.dr e).serial ∧ ch.id = (s.core n.val).issued ∧
          ch.desc = (chainOf (s.chainBytes (drcAd x w))).desc ∧
          (ch.loaded = true ↔ tablesNamed (chainOf (s.chainBytes (drcAd x w))).recs = [])) ∧
        (t.dr e).serial = (s.dr e).serial + 1 ∧ (t.dr e).curR = 0 ∧ (t.dr e).curC = 0) ∧
    (Issuing s n.val sl.val x (0x12, 0) → s.judgeSld n.val sl.val x w = none →
      let d := pdescOf b
      (∀ r ∈ sldFar x w d, s.lockedAt r.1 r.2 = false) →
      ∃ t, exec (.sld n sl) s = .next t ∧ Accepted s t n.val sl.val (x.pc + 1) ∧
        (∀ a, (∀ r ∈ sldFar x w d, ¬ (r.1 ≤ a ∧ a < r.1 + r.2)) → t.byte a = s.byte a) ∧
        (d.zero = true → t.bytes (sldRec x w) 16 = leBytes 4 0 ++ leBytes 4 0 ++ leBytes 1 2 ++ leBytes 3 0 ++ leBytes 4 0 ∧
          MemOutside s t (sldRec x w) 16))

/-- R145, R239, R240 and R238. -/
def Obligations.ScaleAndTallyActOnTheirTables : Prop :=
  ∀ (n : Fin 16) (sl : Fin 6) (s : State) (x : StnSt), Inside x (x.pc + 1) →
    let w := x.word
    let tb := s.tblOf n.val
    let step := x.ct (bits w 87 85)
    let e := 2 * n.val + sl.val
    (∀ c ∈ [(Instr.setEInit n sl, (0x61, 2), 80), (Instr.setEFix n sl, (0x61, 3), 81)], Issuing s n.val sl.val x c.2.1 →
      s.judgeScale n.val sl.val x w = none →
      ∃ t, exec c.1 s = .next t ∧ Accepted s t n.val sl.val (x.pc + 1) ∧
        (t.byte (entAddr tb step + c.2.2)).toNat = encInt 8 (x.sc (bits w 84 82)) ∧ MemOutside s t (entAddr tb step + c.2.2) 1) ∧
    (∀ c ∈ [(Instr.scaleCommit n sl, (0x61, 0)), (Instr.scaleDiscard n sl, (0x61, 1))], Issuing s n.val sl.val x c.2 →
      s.judgeScale n.val sl.val x w = none → step < 4294967296 →
      (s.laterThan tb step = false →
        ∃ t, exec c.1 s = .next t ∧ Accepted s t n.val sl.val (x.pc + 1) ∧ StationOnly s t n.val sl.val) ∧
      (s.laterThan tb step = true →
        ∃ t, exec c.1 s = .next t ∧ Accepted s t n.val sl.val (x.pc + 1) ∧
          t.tblCommitted tb = (if c.2.2 = 0 then step else s.tblCommitted tb) ∧
          (∀ i, i < s.tblNent tb → s.entOpenStep (entAddr tb i) = step → step ≠ noStep →
            t.entOpenStep (entAddr tb i) = noStep ∧
            (c.2.2 = 0 → t.entLast (entAddr tb i) = step ∧
              t.entHist (entAddr tb i) (step % 16) = s.entOpen (entAddr tb i))) ∧
          MemOutside s t tb (128 * (s.tblNent tb + 1)))) ∧
    (Issuing s n.val sl.val x (0x60, 0) → s.tallyLeft n.val sl.val x w = 0 →
      ∃ t, exec (.tally n sl) s = .next t ∧ Accepted s t n.val sl.val (x.pc + 1) ∧ StationOnly s t n.val sl.val) ∧
    (∀ a as, Issuing s n.val sl.val x (0x60, 0) → s.tallyLeft n.val sl.val x w = 1 → s.tallyNamed n.val sl.val x w = a :: as →
      ∃ t, exec (.tally n sl) s = .next t ∧ Accepted s t n.val sl.val (x.pc + 1) ∧
        ∀ y ∈ (t.dr e).tallies, y.tensor ≠ a.tensor)

/-- R259, R260 and R261. -/
def Obligations.ChainCommandsAndUpdatesKeepTheShardTable : Prop :=
  ∀ (n : Fin 16) (sl : Fin 6) (s : State) (x : StnSt), Inside x (x.pc + 1) →
    let w := x.word
    let id := (s.core n.val).issued
    let d := s.xdesc x w
    (∀ c, Issuing s n.val sl.val x (0x50, 0) → s.judgeChn n.val sl.val x w = none → s.chan? (wQueue w) = some c →
      ∃ t c', exec (.chn n sl) s = .next t ∧ Accepted s t n.val sl.val (x.pc + 1) ∧ t.chan? (wQueue w) = some c' ∧
        c'.ring = c.ring ++ [⟨x.ct (bits w 67 65), wAd x w, n.val, sl.val, id, 0⟩] ∧
        (Apart (c.rcd + 32) 8 (qAddr (wQueue w) + 40) 4 →
          t.qTail (wQueue w) = (s.qTail (wQueue w) + 1) % s.qSize (wQueue w) % 4294967296) ∧
        ∀ a, ¬ (qAddr (wQueue w) + 40 ≤ a ∧ a < qAddr (wQueue w) + 44) → ¬ (c.rcd + 32 ≤ a ∧ a < c.rcd + 40) →
          t.byte a = s.byte a) ∧
    (Issuing s n.val sl.val x (0x51, 0) → s.judgePrm n.val sl.val x w = none → s.prms = [] →
      let u : PrmWait := ⟨n.val, sl.val, id, wQueue w, x.ct (bits w 67 65), wAd x w⟩
      (s.prmReady u = none →
        ∃ t, exec (.prmReceive n sl) s = .next t ∧ Accepted s t n.val sl.val (x.pc + 1) ∧ t.prms = [u] ∧ t.mem = s.mem) ∧
      (∀ c dl, s.prmReady u = some (c, dl) →
        let len := s.segLen c u.bucket (s.rank c)
        let res := s.bResult c u.bucket
        let xs := (List.range len).map (fun k => divideBy (popcount 32 dl.present) (s.load (res + 4 * k) 4))
        (s.setBytes res (xs.flatMap (leBytes 4))).lockedAt (wAd x w) 8 = false →
        ∃ t, exec (.prmReceive n sl) s = .next t ∧ Accepted s t n.val sl.val (x.pc + 1) ∧ t.prms = [] ∧
          t.load (wAd x w) 4 = dl.present % 4294967296 ∧ t.load (wAd x w + 4) 2 = popcount 32 dl.present ∧
          (Apart res (4 * len) (wAd x w) 8 → ∀ k, k < len → t.load (res + 4 * k) 4 =
            divideBy (popcount 32 dl.present) (s.load (res + 4 * k) 4) % 4294967296) ∧
          ∀ a, ¬ (res ≤ a ∧ a < res + 4 * len) → ¬ (wAd x w ≤ a ∧ a < wAd x w + 8) → t.byte a = s.byte a)) ∧
    (Issuing s n.val sl.val x (0x51, 1) → s.judgePrm n.val sl.val x w = none →
      (∀ i, i < s.shCount → s.shE i = x.ct (bits w 67 65)) →
      ∃ t, exec (.prmCommit n sl) s = .next t ∧ Accepted s t n.val sl.val (x.pc + 1) ∧
        (∀ i, i < s.shCount → t.shCommitted i = true) ∧
        ∀ a, (∀ i, i < s.shCount → a ≠ s.shAddr i + 32) → t.byte a = s.byte a) ∧
    (∀ i, Issuing s n.val sl.val x (0x52, 0) → s.judgeUpd n.val sl.val x w = none → s.shardIx d.shard = some i →
      let step := (s.rd .CO_STEP n.val).toNat
      let count := s.shElems i
      let xs := s.updElems (s.shBank i (s.shCur i)) count d.addr2 d.factor
      let bank := s.shBank i (1 - s.shCur i)
      s.snapHolds i step = false → s.ckptHolds step = false → s.shE i = (step + 2 ^ 32 - 1) % 2 ^ 32 →
      (∀ y ∈ xs, y.2 = false) → s.held = [] → s.lockedAt (wAd x w) 16 = false →
      Apart s.shBase (64 * s.shCount) bank (bankLen count) → Apart s.shBase (64 * s.shCount) (wAd x w) 16 →
      Apart bank (bankLen count) (wAd x w) 16 →
      ∃ t, exec (.upd n sl) s = .next t ∧ Accepted s t n.val sl.val (x.pc + 1) ∧
        (∀ k (h : k < xs.length), t.load (bank + 4 * k) 4 = (xs[k]).1.1 % 4294967296) ∧
        t.shE i = step ∧ t.shCur i = 1 - s.shCur i ∧ t.shLocked i = false ∧ t.shCommitted i = false ∧
        t.load (wAd x w) 4 = 0 ∧ t.load (wAd x w + 8) 4 = count ∧
        ∀ a, ¬ (s.shAddr i ≤ a ∧ a < s.shAddr i + 64) → ¬ (bank ≤ a ∧ a < bank + bankLen count) →
          ¬ (wAd x w ≤ a ∧ a < wAd x w + 16) → t.byte a = s.byte a)
/-! ## Engines and drains at work -/

namespace Sys2Proof.Machine

/-- Only engine `e` and registers at the listed offsets differ. -/
def EngineOnly (s t : State) (e : Nat) (offs : List Nat) : Prop :=
  t = { s with engines := t.engines, regs := t.regs } ∧ (∀ x, x ≠ e → t.eng x = s.eng x) ∧ ∀ off, off ∉ offs → Kept s t off

/-- The ME_STATUS registers of both engines of a core. -/
def meStatus (n : Nat) : List Nat := [RegId.ME_STATUS.addr (2 * n) 0, RegId.ME_STATUS.addr (2 * n + 1) 0]

/-- Neither engine of the core rebuilds an interrupted load. -/
abbrev NoRebuild (s : State) (n : Nat) : Prop := (s.eng (2 * n)).rebuild = none ∧ (s.eng (2 * n + 1)).rebuild = none

/-- The loader may start load number `num`: no load is incomplete, and every load two or more back is released by the
engines that are bound. -/
abbrev LoaderFree (s : State) (n : Nat) : Prop :=
  ∀ f ∈ (s.core n).loads, f.complete = true ∧
    ((s.core n).loadNum < f.num + 2 ∨ ∀ sl, sl < 2 → s.engBound n sl = true → s.issuedAll n sl f = true)

/-- What the check found in the beat: some vector that it misses. -/
abbrev SomeMiss (s : State) (e : Nat) (b : Beat) (ls : List Lane) (fs : List ColFault) : Prop :=
  ∃ g ∈ checkGroups ls, laneJudge (s.fld F.ME_CHK_X_TOL_SHIFT e) fs (s.halfWeights e b g) g = some false

end Sys2Proof.Machine

/-- R69 to R71. -/
def Obligations.FillerFillsGapsAndRampsItsDensity : Prop :=
  ∀ (e : Fin 32) (s : State),
    let x := s.eng e
    (s.fillerOn e = true → (x.gap < s.fld F.ME_FILL_X_GAP_THR e ∨ (x.ramp ≠ none ∧ 0 < x.dens)) →
      ∃ t, exec (.fillerBeat e) s = .next t ∧ t.eng e = { x with gap := x.gap + 1, alt := !x.alt } ∧
        t.fld F.ME_CYC_FILL_COUNT e = (s.fld F.ME_CYC_FILL_COUNT e + 1) % 4294967296 ∧
        EngineOnly s t e [RegId.ME_CYC_FILL.addr e.val 0]) ∧
    (s.fillerOn e = true → s.fld F.ME_FILL_X_GAP_THR e ≤ x.gap → 0 < x.dens → x.ramp ≠ some false →
      ∃ t, exec (.fillerRampDown e) s = .next t ∧ EngineOnly s t e [] ∧
        t.eng e = if s.fld F.ME_FILL_X_RAMP e = 0 then { x with dens := 0, ramp := none } else { x with ramp := some false }) ∧
    (∀ up, x.ramp = some up →
      let k := if s.fld F.ME_FILL_X_PROFILE e = 1 then 16 else 1
      ∃ t, exec (.fillerRampStep e) s = .next t ∧ EngineOnly s t e [] ∧
        t.eng e =
          if up then { x with dens := Nat.min 64 (x.dens + k), ramp := if 64 ≤ x.dens + k then none else some true }
          else { x with dens := x.dens - k, ramp := if x.dens ≤ k then none else some false })

/-- R37, R41, R43 to R46, R58 and R59. -/
def Obligations.LoadsAndBeatsFollowTheProgram : Prop :=
  (∀ (n : Fin 16) (s : State), s.coreRuns n = true →
    let c := s.core n
    (∀ j rest p ps, c.jobs = j :: rest → j.parts = p :: ps → j.pass < j.passes → (pdescOf p.desc).wsrc = false →
      NoRebuild s n → LoaderFree s n →
      ∃ t, exec (.flyLoadStart n) s = .next t ∧ (t.core n).loadNum = c.loadNum + 1 ∧
        (t.core n).loads = c.loads ++ [⟨c.loadNum, j.pair, j.pass,
          j.parts.map (fun q => ⟨q.quad, s.weightsAt (pdescOf q.desc) p.quad.isSome j.pass q.ew⟩), 0, none, false⟩] ∧
        t = { s with cores := t.cores, regs := t.regs } ∧ ∀ off, off ∉ meStatus n → Kept s t off) ∧
    (NoRebuild s n → ∃ t, exec (.flyLoadDone n) s = .next t ∧
        (t.core n).loads = c.loads.map (fun f => { f with complete := true }) ∧
        t = { s with cores := t.cores, regs := t.regs } ∧ ∀ off, off ∉ meStatus n → Kept s t off) ∧
    (¬ NoRebuild s n → ∃ t, exec (.flyLoadDone n) s = .next t ∧ NoRebuild t n ∧
        t = { s with engines := t.engines, regs := t.regs } ∧ ∀ off, off ∉ meStatus n → Kept s t off)) ∧
  (∀ (e : Fin 32) (s : State), s.coreRuns (engCore e) = true →
    let x := s.eng e
    let offs := RegId.ME_CYC_BEAT.addr e.val 0 :: meStatus (engCore e)
    x.stopped = false → x.pipe.length < s.fld F.ME_LAT_LAT e →
    (∀ b rest, x.again = b :: rest → x.rebuild ≠ some b.load → (s.loadNo (engCore e) b.load).isSome = true →
      ∃ t, exec (.beatIssue e) s = .next t ∧ (t.eng e).pipe = x.pipe ++ [b] ∧ (t.eng e).again = rest ∧
        t.fld F.ME_CYC_BEAT_COUNT e = (s.fld F.ME_CYC_BEAT_COUNT e + 1) % 4294967296 ∧ EngineOnly s t e offs) ∧
    (∀ p f vecs q o, x.again = [] → x.current = [p] → p.closed = true → (pdescOf p.desc).asrc = false →
      s.loadFor (engCore e) p.pair p.pass = some f → s.beatOf e p = some (vecs, q, o) →
      ∃ t, exec (.beatIssue e) s = .next t ∧
        (∃ b, (t.eng e).pipe = x.pipe ++ [b] ∧ b.pass = p.pass ∧ b.load = f.num ∧ b.vecs = vecs ∧ b.missed = false) ∧
        (t.eng e).probs = x.probs.map (fun y => if y.id = q.id then q else y) ∧
        t.fld F.ME_CYC_BEAT_COUNT e = (s.fld F.ME_CYC_BEAT_COUNT e + 1) % 4294967296 ∧ EngineOnly s t e offs))

/-- R47, R55 and R58 to R61. -/
def Obligations.BeatChecksCommitOrClimbTheMissLadder : Prop :=
  ∀ (e : Fin 32) (fs : List ColFault) (adder : Bool) (s : State) (b : Beat) (rest : List Beat),
    s.coreRuns (engCore e) = true → (s.eng e).pipe = b :: rest → s.chkPolicy e = 0 →
    let x := s.eng e
    let ls := s.lanes e b fs
    (adder = false → ¬ SomeMiss s e b ls fs →
      ∃ t, exec (.beatCheck e fs adder) s = .next t ∧ (t.eng e).pipe = rest ∧
        ∀ l, ls = [l] →
          let d := pdescOf l.prob.desc
          let k := psbKey l.prob l.vec.row
          (t.eng e).psb.get k psbNone = ⟨l.prob.id, psbFormOf d.accw l.prob.passes (b.pass + 1) l.prob.heritage,
            l.outs.zipIdx.map (fun o => psbNext (numMode d) (d.accw == 1) l.prob.passes (b.pass + 1)
              ((x.psb.get k psbNone).vals.getD o.2 {}) o.1)⟩ ∧
          ∀ k', k' ≠ k → (t.eng e).psb.get k' psbNone = x.psb.get k' psbNone) ∧
    ((adder = true ∨ SomeMiss s e b ls fs) →
      ∃ t, exec (.beatCheck e fs adder) s = .next t ∧ (t.eng e).psb = x.psb ∧ (t.eng e).probs = x.probs ∧
        (s.flag F.ME_STATUS_SUSPECT e = false → b.missed = false →
          (t.eng e).pipe = [] ∧ (t.eng e).again = ({ b with missed := true } :: rest) ++ x.again ∧
          t.fld F.ME_CHK_CNT_RECOV e = Nat.min (s.fld F.ME_CHK_CNT_RECOV e + 1) F.ME_CHK_CNT_RECOV.max ∧
          EngineOnly s t e ([RegId.ME_CHK_CNT.addr e.val 0, RegId.ME_CHK_LOG.addr e.val 0] ++ meStatus (engCore e))) ∧
        (s.flag F.ME_STATUS_SUSPECT e = false → b.missed = true →
          (t.eng e).pipe = rest ∧ (t.eng e).stopped = true ∧ t.flag F.ME_STATUS_SUSPECT e = true ∧
          t.fld F.ME_CHK_CNT_ESC e = Nat.min (s.fld F.ME_CHK_CNT_ESC e + 1) F.ME_CHK_CNT_ESC.max ∧
          t.evgPend 4 (128 + e.val) = true) ∧
        (s.flag F.ME_STATUS_SUSPECT e = true →
          (t.eng e).pipe = rest ∧ (t.eng e).stopped = true ∧ t.evgPend 4 (160 + e.val) = true))

/-- R109, R113, R114, R149 and R232. -/
def Obligations.ChainsTakeEffectAndRowsPassThroughThem : Prop :=
  ∀ (e : Fin 32) (s : State), s.coreRuns (engCore e) = true →
    let d := s.dr e
    (∀ c, d.next = some c → c.loaded = false →
      let ts := [0, 1].map (fun i => if (tablesNamed c.recs).contains i then tableOf c.desc c.recs i else [])
      ∃ t, exec (.drcTablesLoaded e) s = .next t ∧ t.mem = s.mem ∧ t.engines = s.engines ∧ t.streams = s.streams ∧
        t.dr e = { d with next := some { c with loaded := true, tables := ts } }) ∧
    (∀ c, d.next = some c → c.loaded = true → (∀ f, d.force = some f → s.chainBusy e f.serial = false ∧ d.statOut = []) →
      ∃ t, exec (.chainTakesEffect e) s = .next t ∧ t.dr e = { d with force := some c, next := none } ∧
        t.mem = s.mem ∧ t.engines = s.engines ∧ t.streams = s.streams) ∧
    (∀ x c p, d.slots.getLast? = some x → d.force = some c → s.probOf e x.prob = some p → x.read < x.vrows →
      p.rows * x.ix + x.read < p.done →
      ∃ t, exec (.psbRowRead e) s = .next t ∧ (t.dr e).slots = d.slots.dropLast ++ [s.readRow e p c x] ∧
        (s.readRow e p c x).read = x.read + 1 ∧ t.mem = s.mem ∧ t.engines = s.engines ∧ t.streams = s.streams) ∧
    (∀ x c r, d.slots.getLast? = some x → d.force = some c → c.quant = some r → x.vrows ≤ x.read → x.overE = true →
      x.saturate = false →
      let k := rescaleBy (byteAt r 4) (f32 x.raw) x.e 300 1
      let used := d.rescaledIn (s.rd .CO_STEP (engCore e)).toNat
      let num := s.numX (engCore e)
      ∃ t, exec (.overflowRescale e) s = .next t ∧ t.engines = s.engines ∧ t.streams = s.streams ∧
        ((numMaxd num < k ∨ (numLimit num ≠ 255 ∧ numLimit num ≤ used) ∨ 127 < x.e + k) →
          (t.dr e).slots = d.slots.dropLast ++ [{ x with saturate := true }] ∧ t.mem = s.mem ∧
          t.fld F.CO_RESCALE_CNT_LIMITED (engCore e) =
            Nat.min (s.fld F.CO_RESCALE_CNT_LIMITED (engCore e) + 1) F.CO_RESCALE_CNT_LIMITED.max) ∧
        (¬ (numMaxd num < k ∨ (numLimit num ≠ 255 ∧ numLimit num ≤ used) ∨ 127 < x.e + k) →
          (∃ y, (t.dr e).slots = d.slots.dropLast ++ [y] ∧ y.e = x.e + k ∧ y.read = 0 ∧ y.rescaled = true ∧
            y.overE = false ∧ y.prob = x.prob ∧ y.ix = x.ix) ∧
          t.fld F.CO_RESCALE_CNT_RESCALED (engCore e) =
            Nat.min (s.fld F.CO_RESCALE_CNT_RESCALED (engCore e) + 1) F.CO_RESCALE_CNT_RESCALED.max))

/-- R144 and R146. -/
def Obligations.ScalesAreDerivedFromHistoryAndMaximaKept : Prop :=
  ∀ (e : Fin 32) (s : State),
    let n := engCore e
    let tb := s.tblOf n
    (∀ p i c ix, s.coreRuns n = true → s.meets e = some (p, i, c) → c.history = some ix → s.tensorExp e c = none →
      p.vrows i ≠ 0 →
      let step := (s.rd .CO_STEP n).toNat
      let a := entAddr tb ix
      let m := s.histMax a step (numHist (s.numX n))
      ∃ t, exec (.scaleDerive e) s = .next t ∧ t.engines = s.engines ∧ t.streams = s.streams ∧
        (s.scaleWaits tb step = true → t = { s with regs := t.regs }) ∧
        (s.scaleWaits tb step = false → m.isZero = true →
          t.tensorExp e c = some (s.entInit a) ∧ t.mem = s.mem) ∧
        (s.scaleWaits tb step = false → m.isZero = false →
          let x := clampE (ceilLog2 m (fmaxOf c.ofmt) + numMargin (s.numX n))
          t.tensorExp e c = some x ∧ t.load (a + 82) 1 = encInt 8 x ∧ MemOutside s t (a + 82) 1)) ∧
    (∀ r rest, (s.dr e).rawOut = r :: rest →
      ∃ t, exec (.rawMaxAtomic e) s = .next t ∧ (t.dr e).rawOut = rest ∧ t = { s with drains := t.drains, mem := t.mem } ∧
        (s.entOpenStep r.addr = r.step →
          t.entOpen r.addr = Nat.max (s.entOpen r.addr) r.code % 4294967296 ∧ MemOutside s t (r.addr + 72) 4) ∧
        (s.entOpenStep r.addr ≠ r.step → s.laterThan tb r.step = true →
          t.entOpen r.addr = r.code % 4294967296 ∧ t.entOpenStep r.addr = r.step % 4294967296 ∧
          MemOutside s t (r.addr + 72) 8) ∧
        (s.entOpenStep r.addr ≠ r.step → s.laterThan tb r.step = false →
          t.load (tb + 8) 4 = Nat.min (s.load (tb + 8) 4 + 1) 4294967295 ∧ MemOutside s t (tb + 8) 4))

/-- R126, R128, R130, R159 and R163. -/
def Obligations.ReleasesSendTilesAndRecordsAreExamined : Prop :=
  (∀ (e : Fin 32) (s : State), s.coreRuns (engCore e) = true →
    let n := engCore e
    let sl := e.val % 2
    let d := s.dr e
    (∀ p tensor row0 rows rest y, d.statOut = (p, tensor, row0, rows) :: rest → s.tileOut n sl p = some y →
      Strm s y → y.sends = true → 0 < y.credits →
      ∃ t, exec (.tileRelease e) s = .next t ∧ (t.dr e).statOut = rest ∧ TileSent t y (s.statImage n y tensor row0 rows) ∧
        t.mem = s.mem) ∧
    (∀ x xs c p y, d.statOut = [] → d.slots = x :: xs → d.force = some c → s.probOf e x.prob = some p →
      s.tileOut n sl c.oport = some y → Strm s y → x.vrows ≤ x.read → (x.overE = true → x.saturate = true) →
      (x.lastt = true → s.tallyFull n sl = false) → d.claims = [] → y.sends = true → 0 < y.credits →
      ∃ t, exec (.tileRelease e) s = .next t ∧ (t.dr e).slots = xs ∧
        (∀ r, r < p.rows → (t.eng e).psb.get (psbKey p (p.rows * x.ix + r)) psbNone = psbNone) ∧
        (c.statMode = none → ∃ b, TileSent t y b ∧ (x.lastt = false → t.mem = s.mem)))) ∧
  (∀ (s : State) r rest, s.examine = r :: rest → (s.proc 4).run = .running →
    ∃ t, exec .tallyRecordExamine s = .next t ∧ t.examine = rest ∧
      (s.alertCodes r = [] → t = { s with examine := rest }) ∧
      (s.alertCodes r ≠ [] →
        t.fld F.CMD_NUMW_CNT_ALERTS = Nat.min (s.fld F.CMD_NUMW_CNT_ALERTS + 1) F.CMD_NUMW_CNT_ALERTS.max ∧
        t = { s with examine := rest, regs := t.regs, mem := t.mem, out := t.out, msix := t.msix, qLost := t.qLost } ∧
        ∀ off, off ≠ RegId.CMD_NUMW_CNT.addr 0 0 → Kept s t off))
/-! ## Streams and sections -/

namespace Sys2Proof.Machine

/-- A stream's ends lie on the device: its cores are of the sixteen, and the number of a receive queue is below 32. -/
abbrev StreamSt.onDevice (y : StreamSt) : Prop :=
  (∀ p ∈ y.src, p.1 < 16) ∧ (∀ p ∈ y.dst, p.1 < 16) ∧ (y.hasQueue = true ∨ y.fed = true → y.qnum < 32)

/-- Every stream, every core of the pitched section, and the station of every waiting UPD and held local gather lies on the
device: an invariant of the machine. -/
abbrev State.UnitsInRange (s : State) : Prop :=
  (∀ y ∈ s.streams, y.onDevice) ∧ (∀ x ∈ s.sect, ∀ n ∈ x.cores, n < 16) ∧
    (∀ u ∈ s.upds, u.core < 16 ∧ u.slot < 6) ∧ ∀ g ∈ s.held, ∀ p ∈ g.home, p.1 < 16 ∧ p.2.1 < 6

/-- The stream's queue has faulted with a subcode: it accepts no more, the log names the subcode, and the core's source is
pending at CMD's gatherer. -/
def QueueFault (t : State) (x z : StreamSt) (sub : Nat) : Prop :=
  z.closed = true ∧ z.queue = x.queue ∧ t.fld F.CO_PROTO_LOG_SUBCODE x.dstCore = sub ∧ t.evgPend 4 (192 + x.dstCore) = true

/-- A tile or peg of an old wake epoch: counted, its credit on the way back, nothing queued. -/
def Discarded (s t : State) (x z : StreamSt) : Prop :=
  z.queue = x.queue ∧ (x.kind ≠ 3 → z.guy = x.guy + 1) ∧ t.mem = s.mem ∧
    t.fld F.CO_DISCARD_COUNT x.dstCore = Nat.min (s.fld F.CO_DISCARD_COUNT x.dstCore + 1) F.CO_DISCARD_COUNT.max

/-- A tile or peg of the other world: a violation is counted, nothing is queued, no credit returns. -/
def WrongWorld (s t : State) (x z : StreamSt) : Prop :=
  z.queue = x.queue ∧ z.guy = x.guy ∧
    t.fld F.SEC_WV_CNT_COUNT = Nat.min (s.fld F.SEC_WV_CNT_COUNT + 1) F.SEC_WV_CNT_COUNT.max

/-- A tile or peg has joined the queue, and nothing else happened to the stream's credits or to memory. -/
def Queued (s t : State) (x z : StreamSt) (b : List Byte) : Prop :=
  z.queue = x.queue ++ [b] ∧ z.guy = x.guy ∧ z.credits = x.credits ∧ z.closed = x.closed ∧ t.mem = s.mem

/-- What a tile does that reaches a receive queue, by the checks of R171 in their order. -/
def TileChecked (s t : State) (x z : StreamSt) (b : List Byte) : Prop :=
  if tCrcOk b = false then QueueFault t x z 1
  else if tWepoch b ≠ s.epochOf x.dstCore then Discarded s t x z
  else if tWorld b ≠ s.sectWorld then WrongWorld s t x z
  else if tileShapeBad b x.fmt x.rows x.cols = true then QueueFault t x z 2
  else if tSeq b ≠ x.rxSeq % 4294967296 then QueueFault t x z 3
  else Queued s t x z b ∧ z.rxSeq = x.rxSeq + 1

end Sys2Proof.Machine

/-- R171 to R174 and R193. -/
def Obligations.ArrivalsPassTheirChecksInOrder : Prop :=
  ∀ (sid : Fin 65536) (s : State) (x : StreamSt), s.UnitsInRange → s.strm? sid = some x →
    (∀ corrupt b bs, x.flight = b :: bs → x.closed = false → x.peg = false → x.hasQueue = true →
      ∃ t z, exec (.tileArrival sid corrupt) s = .next t ∧ t.strm? sid = some z ∧ z.flight = bs ∧
        TileChecked s t x z (if corrupt then corruptTile b else b)) ∧
    (∀ b bs, x.flight = b :: bs → x.closed = false → x.peg = true → x.hasQueue = true →
      ∃ t z, exec (.pegArrival sid) s = .next t ∧ t.strm? sid = some z ∧ z.flight = bs ∧
        if fieldAt b 4 4 ≠ s.epochOf x.dstCore then Discarded s t x z
        else if World.ofBit (bit (byteAt b 3) 0) ≠ s.sectWorld then WrongWorld s t x z
        else Queued s t x z b) ∧
    (x.kind ≠ 2 → x.kind ≠ 3 → x.kind ≠ 4 →
      ∃ t z, exec (.creditReturn sid) s = .next t ∧ t.strm? sid = some z ∧ z.guy = x.guy - 1 ∧ z.queue = x.queue ∧
        (x.credits < x.depth → z.credits = x.credits + 1 ∧ z.closed = x.closed ∧ t.mem = s.mem) ∧
        (x.depth ≤ x.credits → z.credits = x.credits ∧ (x.hasQueue = true → QueueFault t x z 4)))

/-- R299, R301, R302 and R305. -/
def Obligations.FetchEnginesReadTheirListsInOrder : Prop :=
  ∀ (sid : Fin 65536) (s : State) (y : StreamSt), s.UnitsInRange → s.strm? sid = some y → y.hasQueue = true →
    let n := y.dstCore
    let a := y.fentry y.fi
    let tag := s.load (a + 18) 2
    let falls := y.irreg = true ∧ 0 < y.fi ∧ tag < s.load (y.fentry (y.fi - 1) + 18) 2
    let waits := y.irreg = true ∧ s.holdsFor y < tag
    (y.fed = true → y.closed = false → s.saving = false → y.fi < y.need → y.fi < y.takenRun + Nat.min y.fetch y.depth →
      0 < y.credits → (s.stopping = true → y.fi < s.begunEntries y) →
      ∃ t, exec (.fetchIssue sid) s = .next t ∧
        (waits → t.flag F.CO_FQ_STAT_FALLBACK n y.qnum = true ∧ RegsOnly s t [RegId.CO_FQ_STAT.addr n y.qnum]) ∧
        (¬ waits → (falls ∨ s.entryBad y a = true) → ∃ z, t.strm? sid = some z ∧ z.fi = y.fi ∧
          QueueFault t y z 2) ∧
        (¬ waits → ¬ falls → s.entryBad y a = false →
          t.strm? sid = some { y with credits := y.credits - 1, fly := y.fly ++ [(y.fi, y.gen, s.fetchTile y)],
                                      fi := y.fi + 1, txSeq := y.txSeq + 1 } ∧
          t.flag F.CO_FQ_STAT_FALLBACK n y.qnum = false ∧ t = { s with regs := t.regs, streams := t.streams } ∧
          ∀ off, off ≠ RegId.CO_FQ_STAT.addr n y.qnum → Kept s t off)) ∧
    (∀ i g b rest, y.fly = (i, g, b) :: rest →
      ∃ t z, exec (.fetchTileArrival sid) s = .next t ∧ t.strm? sid = some z ∧ z.fly = rest ∧
        (g ≠ y.gen → z.queue = y.queue ∧ z.rxSeq = y.rxSeq ∧ t.mem = s.mem) ∧
        (g = y.gen → y.closed = false → TileChecked s t y z b))

/-- R184 to R186, R192 and R495. -/
def Obligations.PitchBindsOrRejectsTheWholeSection : Prop :=
  ∀ (img : Option Nat) (reds : List (Nat × Nat × List Nat)) (s : State), (s.proc 4).run = .running → s.sect = none →
    let u := s.poolResize
    let bound := fun (t : State) (g : Image) (runs step : Nat) (entry : Option Nat) =>
      ∃ y, t.sect = some y ∧ y.id = g.id ∧ y.mode = g.mode ∧ y.world = g.world ∧ y.img = g.addr ∧ y.runs = runs ∧
        y.step = step ∧ y.entry = entry ∧ y.phase = .running ∧ y.ending = false ∧
        t.streams.map (fun z => z.id) = g.strs.map (fun z => z.id) ∧
        ∀ n ∈ y.cores, t.fld F.CO_SECT_STATE n = 2 ∧ t.fld F.CO_SECT_SECTION n = g.id % 65536
    (∀ a, img = some a → s.job = none →
      let r := u.checkImage a 0 []
      ∃ t, exec (.pitch img reds) s = .next t ∧
        (∀ e, r.2 = some e → t.sect = none ∧ t = { u with regs := t.regs } ∧ t.fld F.CMD_PERR_CODE = e.code % 16) ∧
        (r.2 = none → u.sleeping r.1 ≠ [] → t.sect = none ∧ ∀ k ∈ u.sleeping r.1, k ∈ t.wakeReq) ∧
        (r.2 = none → u.sleeping r.1 = [] → bound t r.1 1 0 none)) ∧
    (∀ j j', img = none → s.job = some j → s.mayPitch j = true → u.job = some j' →
      let i := u.entryFrom j' j'.entry
      let step := (u.rd .CMD_STEP).toNat
      let a := u.ent j' i 0 8
      let rt := match u.savedOf (u.load (a + 4) 2) step with | some v => v.bucket | none => u.entryRt j' i
      let r := u.checkImage a rt ((u.entBufs j' i).map (fun b => (b.2.2, b.2.1)) ++ (u.entPairs j' i).map (fun p => (p, 64)))
      ∃ t, exec (.pitch img reds) s = .next t ∧
        (∀ e, r.2 = some e → t.sect = none ∧ t.streams = s.streams ∧ t.cores = s.cores ∧
          t.fld F.CMD_PERR_CODE = e.code % 16) ∧
        (r.2 = none → u.sleeping r.1 ≠ [] → t.sect = none ∧ ∀ k ∈ u.sleeping r.1, k ∈ t.wakeReq) ∧
        (r.2 = none → u.sleeping r.1 = [] → bound t r.1 (u.ent j' i 12 4) step (some i)))

/-- R186, R187, R190, R191, R196 and R529. -/
def Obligations.StrikesStopCutAndSaveTheSection : Prop :=
  ∀ (s : State) (x : SectSt), s.UnitsInRange → (s.proc 4).run = .running → s.sect = some x →
    let stops := fun (t : State) (cut : Bool) => t.sect = some { x with phase := .stopping, reqAt := s.now, cut := cut } ∧
      ∀ n ∈ x.cores, t.fld F.CO_SECT_STATE n = 3
    (x.phase = .running → s.storesDone = true → (∀ p ∈ s.allStns, x.runs ≤ p.2.2.runsDone ∧ p.2.2.outst = []) →
      ∃ t, exec .sectionComplete s = .next t ∧ t.sect = some { x with phase := .saving, ending := true, reqAt := s.now } ∧
        (∀ n ∈ x.cores, t.fld F.CO_SECT_STATE n = 3) ∧ t = { s with sect := t.sect, regs := t.regs, engines := t.engines }) ∧
    (∀ cut, x.phase = .running →
      ∃ t, exec (.earlyStrike cut) s = .next t ∧ stops t (cut || s.fld F.CMD_STRIKE_X_DRAIN_US == 0) ∧ t.mem = s.mem) ∧
    (x.mode ≠ 0 → x.phase = .running → s.flag F.CMD_SVC_WATCH_EN = true →
      x.movedAt + msTicks (Nat.max (s.fld F.CMD_SVC_X_STALL_MS) 1) ≤ s.now →
      ∃ t, exec .sectionStall s = .next t ∧ stops t true) ∧
    (x.phase = .stopping → s.cutNow x = true → s.uncut ≠ [] →
      ∃ t, exec .cut s = .next t ∧ (s.chans.ents = [] → t.mem = s.mem) ∧ (∃ y, t.sect = some y ∧ y.phase = .stopping ∧ y.wasCut = true) ∧
        ∀ c ∈ s.uncut,
          (∃ y, t.stn? c.1 c.2.1 = some y ∧ y.pc = c.2.2.snap.pc ∧ y.regs = c.2.2.snap.regs ∧
            y.fired = c.2.2.snap.fired ∧ y.outst = []) ∧
          t.fld F.CO_DONE_COUNT c.1 c.2.1 = c.2.2.snap.dones % 4294967296 ∧
          (c.2.1 < 2 → (t.eng (2 * c.1 + c.2.1)).probs = [] ∧ (t.eng (2 * c.1 + c.2.1)).pipe = [])) ∧
    ((x.phase = .saving ∨ (x.phase = .stopping ∧ s.cutNow x = true ∧ s.uncut = [])) → s.storesDone = true →
      ∃ t, exec .strikeSave s = .next t ∧ t.sect = none ∧ t.streams = [] ∧
        (∀ n ∈ x.cores, t.fld F.CO_SECT_STATE n = 4 ∧ ∀ sl, sl < 6 → t.stn? n sl = none) ∧
        (s.endsNow x = true → t.saved = s.saved ∧ ∀ j, s.job = some j → t.job = some { j with entry := j.entry + 1 }) ∧
        (s.endsNow x = false → t.saved = s.saved ++ [s.saveOf x] ∧ t.job = s.job) ∧
        (x.unsafe_ = true → t.flag F.CMD_STRIKE_ST_UNSAFE = true) ∧ (x.unsafe_ = false → t.mem = s.mem))
/-! ## The memory system and the package network -/

/-- R287, R288, R292, R296 and R297. -/
def Obligations.PoolsPrefetchAndScrubsKeepMemory : Prop :=
  (∀ s : State, (s.proc 4).run = .running → s.sect = none →
    ∃ t, exec .poolResize s = .next t ∧
      t.poolMd = (List.range 4).map (fun m => Nat.min (s.fld F.MD_SC_X_POOL_MIB m) 88) ∧
      t.poolCl = (List.range 8).map (fun k => Nat.min (s.fld F.CL_POOL_X_CL_POOL_MIB k) 24) ∧
      (∀ j, s.job = some j → t.job = some { j with quota := j.quotaNext.getD j.quota, quotaNext := none }) ∧
      t.pool.map (fun b => (b.handle, b.addr, b.len)) = s.pool.map (fun b => (b.handle, b.addr, b.len)) ∧
      t = { s with poolMd := t.poolMd, poolCl := t.poolCl, job := t.job, pool := t.pool, regs := t.regs }) ∧
  (∀ (s : State) j i ph, s.job = some j → s.pf = some (i, ph, false) → s.sect ≠ none → ph < 3 → i < s.schedLen j →
    ∃ t, exec .prefetch s = .next t ∧ t = { s with pf := t.pf, hbmLast := t.hbmLast, pool := t.pool, regs := t.regs } ∧
      (ph = 0 → t.pf = if s.anyPf F.MD_PF_X_IMAGE_EN = true ∧ s.cacheBytes < s.pfBytes j i false then some (i, 0, true)
        else some (i, 1, false)) ∧
      (ph = 1 → s.anyPf F.MD_PF_X_BUF_EN = false → t.pf = some (i, 2, false)) ∧
      (ph = 1 → t.pf = some (i, 2, false) ∨ t.pf = some (i, 1, true)) ∧
      (ph = 2 → t.pf = if s.anyPf F.MD_PF_X_RANGE_EN = true ∧ s.cacheBytes < s.pfBytes j i true then some (i, 2, true)
        else some (i, 3, false))) ∧
  (∀ (hbm : Bool) (k : Fin 8) (addr : Nat) (bad : Fin 3) (s : State),
    (hbm = true → s.flag F.HBM_SCRUB_SCRUB_EN k = true ∧ s.flag F.BC_PWR_ST_HBM_SR = false) →
    let ix := if hbm then k.val else k.val % 4
    let ce := if hbm then F.HBM_ECC_CE_COUNT else F.MD_ECC_CE_COUNT
    let ue := if hbm then F.HBM_ECC_UE_COUNT else F.MD_ECC_UE_COUNT
    ∃ t, exec (.patrolScrub hbm k addr bad) s = .next t ∧
      (bad = 0 → t = s) ∧
      (bad = 1 → t.fld ce ix = Nat.min (s.fld ce ix + 1) ce.max ∧ RegsOnly s t [ce.off ix]) ∧
      (bad = 2 → t.fld ue ix = Nat.min (s.fld ue ix + 1) ue.max ∧
        t.evgPend 4 (256 + (if hbm then k.val / 2 else k.val % 4)) = true))

/-- R255, R256, R258 and R323. -/
def Obligations.AtomicsAndReadsAtASliceActInOrder : Prop :=
  (∀ (m : Fin 4) (s : State) (x : AtomReq), firstWhere (fun (x : AtomReq) => s.atomSlice x.addr == m.val) s.atoms = some x →
    let new := atomNew x.op x.width (s.load x.addr x.width) x.opnd x.cmp % 2 ^ (8 * x.width)
    ∃ t, exec (.atomicExecute m) s = .next t ∧ t.atoms = s.atoms.erase x ∧
      (s.lockedAt x.addr x.width = true → x.home = none → t.mem = s.mem) ∧
      (s.lockedAt x.addr x.width = true → ∀ n sl id r y, x.home = some (n, sl, id, r) → s.stn? n sl = some y → n < 16 →
        sl < 6 → ∃ z, t.stn? n sl = some z ∧ z.halted = true ∧ z.pc = y.pc) ∧
      (s.lockedAt x.addr x.width = false → (x.home = none ∨ ∃ n sl id, x.home = some (n, sl, id, none)) →
        t.load x.addr x.width = new ∧ MemOutside s t x.addr x.width) ∧
      (s.lockedAt x.addr x.width = false → ∀ n sl id r, x.home = some (n, sl, id, some r) →
        (s.store x.addr x.width new).lockedAt r x.width = false → Apart x.addr x.width r x.width →
        t.load x.addr x.width = new ∧ t.load r x.width = s.load x.addr x.width ∧
        ∀ a, ¬ (x.addr ≤ a ∧ a < x.addr + x.width) → ¬ (r ≤ a ∧ a < r + x.width) → t.byte a = s.byte a)) ∧
  (∀ (m : Fin 4) (core : Option (Fin 16)) (addr cycle : Nat) (gone : Bool) (s : State),
    let a := addr / 128 * 128
    let w := s.worldAt a
    s.sliceOf a = some m.val → s.zeroingIn a 128 = false →
    ∃ t, exec (.sliceRead m core addr cycle gone 0) s = .next t ∧
      (core = none → t.reads = s.reads ∧ t.routers = s.routers ∧ t.mem = s.mem) ∧
      (∀ n, core = some n → s.coreWorld n ≠ w → t.reads = s.reads ∧
        t.fld F.SEC_WV_CNT_COUNT = Nat.min (s.fld F.SEC_WV_CNT_COUNT + 1) F.SEC_WV_CNT_COUNT.max) ∧
      (∀ n, core = some n → s.coreWorld n = w →
        (∀ r ∈ s.reads, r.slice = m.val → cycle ≤ r.since + s.mergeWindow m ∧ (gone = true → r.line ≠ addr / 128)) →
        t.mem = s.mem ∧
        (∀ p, firstWhere (fun (r : SliceRead) => r.slice == m.val && r.line == addr / 128 && r.world == w && r.merges) s.reads
            = some p → s.mergeWindow m ≠ 0 →
          t.fld F.MD_MERGED_COUNT m = (s.fld F.MD_MERGED_COUNT m + 1) % 4294967296 ∧ t.routers = s.routers ∧
          ∃ r ∈ t.reads, r.line = addr / 128 ∧ n.val ∈ r.cores ∧ ∀ c ∈ p.cores, c ∈ r.cores) ∧
        (firstWhere (fun (r : SliceRead) => r.slice == m.val && r.line == addr / 128 && r.world == w && r.merges) s.reads = none →
          (s.mergeWindow m ≠ 0 → t.reads = s.reads ++ [⟨m.val, addr / 128, w, cycle, [n.val], false, true⟩]) ∧
          (s.mergeWindow m = 0 → t.reads = s.reads ∧ ∃ p, t.routers = s.routers ++ [p]))))

/-- R315 to R318, R322, R325 and R326. -/
def Obligations.RoutersAndLinksCarryPackets : Prop :=
  (∀ (k : Fin 8) (enter : Option (List Byte)) (s : State) (p : RouterPkt),
    (enter = none → s.nextPkt k = some p) → (∀ b, enter = some b → p = ⟨k, b⟩) →
    let rest := if enter = none then s.routers.erase p else s.routers
    ∃ t, exec (.packetForward k enter) s = .next t ∧
      (ppBad p.bytes = true → t.routers = rest ∧
        t.fld F.CL_NET_BAD_COUNT k = Nat.min (s.fld F.CL_NET_BAD_COUNT k + 1) F.CL_NET_BAD_COUNT.max ∧
        t = { s with routers := rest, regs := t.regs }) ∧
      (ppBad p.bytes = false → ∀ g, s.tagAt k p.bytes = some g →
        { g with segs := g.segs ++ [p.bytes] } ∈ t.rtags ∧ t = { s with routers := rest, rtags := t.rtags }) ∧
      (ppBad p.bytes = false → s.tagAt k p.bytes = none → s.treeOpen k p.bytes = false →
        p ∈ t.routers ∧ t = { s with routers := t.routers, wakeReq := t.wakeReq }) ∧
      (ppBad p.bytes = false → s.tagAt k p.bytes = none → s.treeOpen k p.bytes = true →
        (∃ more, t.routers = rest ++ more) ∧
        ∀ h ∈ hopsOf k p.bytes, h.1 ≠ k.val → h.1 < 16 →
          ⟨h.1, if ppMcast p.bytes then ppFor p.bytes h.2 else p.bytes⟩ ∈ t.routers)) ∧
  (∀ (k : Fin 8) (s : State) (g : RouterTag) b bs,
    firstWhere (fun (t : RouterTag) => t.router == k.val && t.whole.isSome) s.rtags = some g → g.whole = some (b :: bs) →
    let cset := (b :: bs).foldl (fun m c => Nat.lor m (ppCset c)) 0
    let sum := bs.foldl (fun d c => addWords d (ppData c)) (ppData b)
    let out := ppSigned (putField (b.take 32) 22 2 cset ++ sum)
    ∃ t, exec (.inNetworkAdd k) s = .next t ∧
      { g with segs := g.segs.filter (fun c => !(b :: bs).contains c) } ∈ t.rtags ∧
      (s.treeOpen k out = false → t.routers = s.routers ++ [⟨k, out⟩] ∧ t.mem = s.mem) ∧
      (s.treeOpen k out = true → ∀ h ∈ hopsOf k out, h.1 ≠ k.val → h.1 < 16 →
        ⟨h.1, if ppMcast out then ppFor out h.2 else out⟩ ∈ t.routers)) ∧
  (∀ (k : Fin 8) (link : Fin 4) (twice : Bool) (s : State), s.fld (linkField link) k ≠ 0 → s.linkBusy k link = false →
    ∃ t, exec (.linkRetry k link twice) s = .next t ∧
      t.fld F.CL_NET_RETRY_COUNT k = Nat.min (s.fld F.CL_NET_RETRY_COUNT k + 1) F.CL_NET_RETRY_COUNT.max ∧
      t.netTrain = s.netTrain ++ (if twice then [(k.val, link.val)] else []) ∧
      t = { s with regs := t.regs, netTrain := t.netTrain } ∧
      ∀ off, off ≠ RegId.CL_NET_RETRY.addr k 0 → Kept s t off) ∧
  (∀ (k : Fin 8) (link : Fin 4) (mods : Fin 13) (s : State), s.fld (linkField link) k ≠ 0 →
    let m := Nat.min (s.fld (linkField link) k) mods
    ∃ t, exec (.meshRetrain k link mods) s = .next t ∧ t.fld (linkField link) k = m ∧
      (∀ q, linkPeer k link = some q → t.fld (linkField link) q = m) ∧ t.linkBusy k link = false ∧
      t.evgPend 0 (128 + k.val) = true ∧ (m = 0 → t.evgPend 0 136 = true))

/-- R334 to R336. -/
def Obligations.FlitsArriveInOrderOrAreAskedForAgain : Prop :=
  ∀ (p : Fin 6) (s : State),
    let x := s.port p
    (∀ f uncorr cor hops, s.portOn p = true →
      let fails := uncorr = true ∨ flitOk f = false
      let y := { x.heard f with lastRx := s.now }
      let seq := fieldAt f 2 2
      let old := 32768 ≤ (seq + 65536 - x.rxSeq) % 65536
      ∃ t, exec (.flitReceive p f uncorr cor hops) s = .next t ∧ t.mem = s.mem ∧
        (fails → t.node = s.node ∧ (t.port p).discard = true ∧ (t.port p).rxSeq = x.rxSeq ∧
          ∃ b, t.out = s.out ++ [.port p b] ∧ byteAt b 0 = 0 ∧ bit (byteAt b 6) 0 = true) ∧
        (¬ fails → byteAt f 0 = 0 → t.node = s.node ∧ t.port p = y ∧ t.out = s.out) ∧
        (¬ fails → byteAt f 0 ≠ 0 → seq = x.rxSeq →
          t.node = s.node ++ [⟨(f.drop 12).take (16 * byteAt f 7), some p.val, bits (byteAt f 1) 3 2, hops.map (fun h => h.val)⟩] ∧
          t.port p = { y with rxSeq := (x.rxSeq + 1) % 65536, discard := false, fails := 0 } ∧ t.out = s.out) ∧
        (¬ fails → byteAt f 0 ≠ 0 → seq ≠ x.rxSeq → (x.discard = true ∨ old) →
          t.node = s.node ∧ t.port p = y ∧ t.out = s.out) ∧
        (¬ fails → byteAt f 0 ≠ 0 → seq ≠ x.rxSeq → ¬ (x.discard = true ∨ old) →
          t.node = s.node ∧ (t.port p).discard = true ∧
          ∃ b, t.out = s.out ++ [.port p b] ∧ byteAt b 0 = 0 ∧ bit (byteAt b 6) 0 = true)) ∧
    (s.portOn p = true → x.nakGot = true →
      ∃ t, exec (.nakResend p) s = .next t ∧ t.out = s.out ++ x.retry.map (fun r => .port p r.2) ∧
        (t.port p).nakGot = false ∧ (t.port p).retry = x.retry ∧
        t.fld F.IKF_PRETRY_COUNT p = Nat.min (s.fld F.IKF_PRETRY_COUNT p + 1) F.IKF_PRETRY_COUNT.max ∧
        t = { s with ports := t.ports, out := t.out, regs := t.regs }) ∧
    (s.portOn p = true → x.lastTx + usTicks 1 ≤ s.now →
      ∃ t b, exec (.idleFlit p) s = .next t ∧ t.out = s.out ++ [.port p b] ∧ byteAt b 0 = 0 ∧ bit (byteAt b 6) 0 = false ∧
        (t.port p).lastTx = s.now ∧ t = { s with ports := t.ports, out := t.out }) ∧
    (s.portOn p = false → (∀ f uncorr cor hops, exec (.flitReceive p f uncorr cor hops) s = .next s) ∧
      exec (.nakResend p) s = .next s ∧ exec (.idleFlit p) s = .next s)

/-- R335, R337 and R338. -/
def Obligations.PortsDegradeRetrainAndGoDown : Prop :=
  ∀ (p : Fin 6) (s : State),
    let down := fun (t : State) => t.portState p = 0 ∧ t.fld F.IKF_PST_LANES p = 0 ∧ t.fld F.IKF_PST_LANEMASK p = 0 ∧
      t.port p = {} ∧ t.evgPend 2 (136 + p.val) = true ∧ t.evgPend 4 (274 + p.val) = true
    let uses := fun (t : State) (x : Nat × Nat) => t.fld F.IKF_PST_LANES p = x.1 ∧ t.fld F.IKF_PST_LANEMASK p = x.2 ∧
      t.portState p = if x.1 = 16 then 2 else 3
    let lanes := s.fld F.IKF_PST_LANES p
    let mask := s.fld F.IKF_PST_LANEMASK p
    (∀ pass : Fin 65536,
      (s.portOn p = true → (s.port p).twice = true →
        ∃ t, exec (.portRetrain p pass) s = .next t ∧ t.portState p = 4 ∧
          t.fld F.IKF_PDEG_RETRAINS p = Nat.min (s.fld F.IKF_PDEG_RETRAINS p + 1) F.IKF_PDEG_RETRAINS.max ∧
          RegsOnly s t [RegId.IKF_PST.addr p 0, RegId.IKF_PDEG.addr p 0]) ∧
      (s.portState p = 4 →
        let good := ∀ i, i < 16 → bit mask i = true → bit pass i = true
        ∃ t, exec (.portRetrain p pass) s = .next t ∧ (good → uses t (lanes, mask) ∧ t.mem = s.mem) ∧ (¬ good → down t)) ∧
      (s.portState p = 1 → (s.proc 2).run = .running →
        ∃ t, exec (.portRetrain p pass) s = .next t ∧ (∀ x, laneSet 16 pass = some x → uses t x ∧ (x.1 = 16 → t.mem = s.mem) ∧
              (lanes = 0 → x.1 < 16 → t.evgPend 2 (128 + p.val) = true)) ∧
          (laneSet 16 pass = none → down t))) ∧
    (∀ failing : Fin 65536, s.portOn p = true → (∃ i, i < 16 ∧ bit mask i = true ∧ bit failing i = true) →
      ∃ t, exec (.laneFailing p failing) s = .next t ∧
        (∀ x, laneSet lanes (65535 - failing.val) = some x → uses t x ∧ (x.1 < lanes → t.evgPend 2 (128 + p.val) = true) ∧
          (¬ x.1 < lanes → t.mem = s.mem)) ∧
        (laneSet lanes (65535 - failing.val) = none → down t)) ∧
    (∀ failed, (failed = true → s.portState p = 4 ∨ s.portState p = 1) →
      (failed = false → s.portOn p = true ∧ (s.port p).lastRx + usTicks 10 ≤ s.now) →
      ∃ t, exec (.portDown p failed) s = .next t ∧ down t)

/-- R339, R341, R342, R344, R348 and R350. -/
def Obligations.PacketsAreForwardedOrAcceptedByTheirChecks : Prop :=
  (∀ (p : Fin 6) (s : State), firstWhere (fun k => s.nextHop k == .lost) s.node = none →
    (∀ k c, s.portOn p = true → s.sendable p 0 = some (k, c) →
      ∃ t f, exec (.fabricForward p) s = .next t ∧ t.node = s.node.erase k ∧ t.out = s.out ++ [.port p f] ∧
        byteAt f 0 = 1 ∧ (f.drop 12).take k.bytes.length = k.bytes ∧ t.mem = s.mem ∧ t.regs = s.regs) ∧
    (∀ k c rest, s.portState p = 0 → [0, 3, 1, 2].filterMap (fun v => s.outPkt p v) = (k, c) :: rest →
      let n := s.fld F.IKF_PDETOUR_NHOP p
      let hops := ([s.fld F.IKF_PDETOUR_HOP0 p, s.fld F.IKF_PDETOUR_HOP1 p, s.fld F.IKF_PDETOUR_HOP2 p]).take n
      let ok := pkDet k.bytes = false ∧ s.flag F.IKF_PDETOUR_VALID p = true ∧ n ≠ 0
      ∃ t, exec (.fabricForward p) s = .next t ∧ t.mem = s.mem ∧
        (ok → t = { s with node := t.node } ∧ { k with bytes := withDet k.bytes, hops := hops } ∈ t.node) ∧
        (¬ ok → t.fld F.IKF_DROP_COUNT = Nat.min (s.fld F.IKF_DROP_COUNT + 1) F.IKF_DROP_COUNT.max ∧
          (pkRequest k.bytes = false → t.node = s.node.erase k)))) ∧
  (∀ (s : State) k, firstWhere (fun k => s.nextHop k == .here) s.node = some k →
    let b := k.bytes
    let dropped := fun (t : State) => t.fabIn = s.fabIn ∧
      t.fld F.IKF_DROP_COUNT = Nat.min (s.fld F.IKF_DROP_COUNT + 1) F.IKF_DROP_COUNT.max
    let unsealed := fun (t : State) => t.fabIn = s.fabIn ∧
      t.fld F.IKF_AUTH_FAIL_COUNT = Nat.min (s.fld F.IKF_AUTH_FAIL_COUNT + 1) F.IKF_AUTH_FAIL_COUNT.max
    ∃ t, exec .fabricPacketReceive s = .next t ∧ t.mem = s.mem ∧
      if pktBad b = true then dropped t ∧ t.node = s.node.erase k
      else if pkDst b ≠ s.selfLog then dropped t
      else if pkWorld b = .s ∧ pkSealed b = false then unsealed t ∧ t.node = s.node.erase k
      else if pkSealed b = true then
        (s.sealOk b = true → t.node = s.node.erase k ∧ t.sec.rxCtr.get (rxKey b) 0 = pkIvctr b ∧
          t.fabIn = s.fabIn ++ [b.take 64 ++ gcmCrypt (s.jobKey (pkKslot b)) (sealNonce (pkSrc b) (pkKslot b) (pkIvctr b))
            (pkPayload b) ++ pkTrailer b]) ∧
        (s.sealOk b = false → unsealed t ∧ t.evgPend 1 (129 + (match k.inPort with | some q => portDie q | none => 0)) = true)
      else if fieldAt (pkTrailer b) 0 4 ≠ crc32c (pkPayload b) then dropped t ∧ t.node = s.node.erase k
      else t.fabIn = s.fabIn ++ [b] ∧ t.node = s.node.erase k)

namespace Sys2Proof.Machine

/-- An unsealed packet answers request `b`: its type, SUB and TAG, to the request's sender, with its payload. -/
def Answers (s t : State) (b : List Byte) (type sub : Nat) (pay : List Byte) : Prop :=
  pkWorld b = .n → ∃ p, t.node = s.node ++ [⟨p, none, 0, []⟩] ∧ pkType p = type ∧ pkSub p = sub ∧ pkTag p = pkTag b ∧
    pkDst p = pkSrc b ∧ (pkPayload p).take pay.length = pay

/-- The oldest accepted packet of a type is `b`, and `rest` are the others. -/
abbrev Oldest (s : State) (type : Nat) (b : List Byte) (rest : List (List Byte)) : Prop := s.takeIn type = some (b, { s with fabIn := rest })

/-- The context of a transfer's instruction has stopped, and the transfer is gone. -/
def Stopped (s t : State) (x : Xfer) : Prop :=
  (∀ y ∈ t.xfers, ¬ (y.core = x.core ∧ y.iid = x.iid)) ∧
    ∀ y, x.core < 16 → x.slot < 6 → s.stn? x.core x.slot = some y → ∃ z, t.stn? x.core x.slot = some z ∧ z.halted = true ∧ z.pc = y.pc

/-- No transfer waits for room: no request leaves while a response is worked on. -/
abbrev NoneWaits (s : State) : Prop := ∀ x ∈ s.xfers, x.todo = []

/-- A part of a transfer is done: with its last part the transfer is gone, else it goes on with one part fewer open. -/
def PartDone (t : State) (x : Xfer) : Prop :=
  (x.todo = [] → x.open_ = 1 → ∀ y ∈ t.xfers, ¬ (y.core = x.core ∧ y.iid = x.iid)) ∧
  (x.todo = [] → 1 < x.open_ → { x with open_ := x.open_ - 1 } ∈ t.xfers)

end Sys2Proof.Machine

/-- R254, R257, R258, R342, R345, R443 and R449. -/
def Obligations.RequestsOfOtherDevicesAreServedOrRefused : Prop :=
  ∀ (s : State) (b : List Byte) (rest : List (List Byte)),
    let a := pkAddr b
    let served := fun (c : Instr) (len : Nat) (k : State → Prop) =>
      (∀ x, s.farCause b a len = some x → ∃ t, exec c s = .next t ∧ t.fabIn = rest ∧ Answers s t b 7 x []) ∧
      (s.farCause b a len = none → s.zeroingIn a len = true → s.lockedAt a len = false → exec c s = .next s) ∧
      (s.farCause b a len = none → s.zeroingIn a len = false → ∃ t, exec c s = .next t ∧ t.fabIn = rest ∧ k t)
    (Oldest s 1 b rest → pkSub b ≤ 8 →
      served .read (64 * pkSub b) (fun t => t.mem = s.mem ∧ Answers s t b 2 0 (s.bytes a (64 * pkSub b)))) ∧
    (Oldest s 3 b rest → (∀ off, s.place a ≠ .door off) →
      served .write (64 * pkLen b) (fun t =>
        (s.lockedAt a (64 * pkLen b) = true → t.mem = s.mem ∧ Answers s t b 7 1 []) ∧
        (s.lockedAt a (64 * pkLen b) = false → t.mem = (s.setBytes a (pkPayload b)).mem ∧ Answers s t b 4 0 []))) ∧
    (∀ off, Oldest s 3 b rest → s.place a = .door off → off % 64 = 0 → s.qClass (off / 64) = 3 →
      let q := off / 64
      let takes := s.qState q = 1 ∧ s.qWorld q = pkWorld b ∧ s.qFull q = false
      ∃ t, exec .write s = .next t ∧ t.fabIn = rest ∧
        (¬ takes → t.qLostCnt q = Nat.min (s.qLostCnt q + 1) 4294967295 ∧ MemOutside s t (qAddr q + 44) 4) ∧
        (takes → t.qTail q = (s.qTail q + 1) % s.qSize q % 4294967296)) ∧
    (Oldest s 5 b rest →
      let wd := if bit (pkSub b) 4 then 8 else 4
      bits (pkSub b) 3 0 ≤ 7 → aligned a wd = true → s.lockedAt a wd = false →
      served .atomic wd (fun t => t.mem = s.mem ∧
        t.atoms = s.atoms ++ [⟨a, bits (pkSub b) 3 0, wd, pkOpnd b % 2 ^ (8 * wd), pkCmpv b % 2 ^ (8 * wd), pkWorld b, none, b⟩])) ∧
    (Oldest s 8 b rest → pkSub b ≤ 8 →
      let len := 64 * pkSub b
      let shard := pkCmpv b % 2 ^ 32
      ∃ t, exec .gather s = .next t ∧ t.fabIn = rest ∧
        match s.judgeGather shard (pkAux b) (pkWorld b) a len with
        | .refuse c => Answers s t b 7 c []
        | .serve i => Answers s t b 2 0 (s.bytes (s.workAddr i a) len) ∧ (s.shLocked i = true → t.mem = s.mem)
        | .hold => Answers s t b 9 0 [] ∧ t.mem = s.mem ∧
            t.held = s.held ++ [⟨shard, pkAux b, pkAux2 b, pkWorld b, a, len, none, b⟩]
        | .epoch _ => Answers s t b 10 0 [] ∧ t.mem = s.mem)

/-- R253 to R255, R257, R258, R345 and R346. -/
def Obligations.ResponsesEndTheirRequests : Prop :=
  (∀ (s : State) (b : List Byte) rest r x, s.reqs.get (pkTag b) none = some r → s.xferOf? r = some x →
    let ended := fun (t : State) => t.fabIn = rest ∧ (NoneWaits s → t.reqs.get (pkTag b) none = none)
    (Oldest s 2 b rest → x.op = 0x25 ∨ x.op = 0x22 →
      let d := padTo r.part.len (pkPayload b)
      ∃ t, exec .readRsp s = .next t ∧ ended t ∧
        (s.lockedAt r.part.near d.length = false → t.mem = (s.setBytes r.part.near d).mem ∧ (NoneWaits s → PartDone t x)) ∧
        (s.lockedAt r.part.near d.length = true → NoneWaits s → Stopped s t x)) ∧
    (Oldest s 4 b rest → x.op = 0x24 ∨ x.op = 0x23 →
      ∃ t, exec .writeAck s = .next t ∧ ended t ∧ t.mem = s.mem ∧ (NoneWaits s → PartDone t x)) ∧
    (Oldest s 6 b rest → x.op = 0x26 →
      ∃ t, exec .atomicRsp s = .next t ∧ ended t ∧
        (x.ret = none → t.mem = s.mem ∧ (NoneWaits s → PartDone t x)) ∧
        (∀ a, x.ret = some a → s.lockedAt a x.width = false →
          t.mem = (s.store a x.width (pkOpnd b)).mem ∧ (NoneWaits s → PartDone t x))) ∧
    (Oldest s 7 b rest → pkLen b = 0 → x.op ∈ [0x22, 0x23, 0x24, 0x25, 0x26] →
      ∃ t, exec .refuse s = .next t ∧ ended t ∧ (NoneWaits s → Stopped s t x) ∧
        t.fld F.IKF_UNREACH_COUNT = Nat.min (s.fld F.IKF_UNREACH_COUNT + if pkSub b = 4 then 1 else 0) F.IKF_UNREACH_COUNT.max) ∧
    (Oldest s 9 b rest →
      ∃ t, exec .gatherHold s = .next t ∧ t.reqs.get (pkTag b) none = some { r with hold := true } ∧
        t = { s with fabIn := rest, reqs := t.reqs }) ∧
    (Oldest s 10 b rest → x.op = 0x22 →
      ∃ t, exec .gatherEpoch s = .next t ∧ ended t ∧
        (x.core < 16 → NoneWaits s → Stopped s t x ∧
          (s.flag F.CO_MVLOG_VALID x.core = false →
            t.fld F.CO_MVLOG_CAUSE x.core = 5 ∧ t.fld F.CO_MVLOG_EP_EPOCH x.core = pkAux b % 4294967296)))) ∧
  (∀ (s : State) (b : List Byte) rest, s.reqs.get (pkTag b) none = none →
    ∀ c ∈ [(Instr.readRsp, 2), (Instr.writeAck, 4), (Instr.atomicRsp, 6), (Instr.gatherHold, 9), (Instr.gatherEpoch, 10)],
    Oldest s c.2 b rest →
      ∃ t, exec c.1 s = .next t ∧ t.fld F.IKF_DROP_COUNT = Nat.min (s.fld F.IKF_DROP_COUNT + 1) F.IKF_DROP_COUNT.max ∧
        t = { s with fabIn := rest, regs := t.regs } ∧ ∀ off, off ≠ RegId.IKF_DROP.addr 0 0 → Kept s t off) ∧
  (∀ (s : State) tag r x,
    firstWhere (fun (e : Nat × Option ReqSt) =>
      match e.2 with | some r => !r.hold && decide (r.since + s.rtoTicks ≤ s.now) | none => false) s.reqs.ents = some (tag, some r) →
    s.xferOf? r = some x →
    ∃ t, exec .requestTimeout s = .next t ∧
      t.fld F.IKF_UNREACH_COUNT = Nat.min (s.fld F.IKF_UNREACH_COUNT + 1) F.IKF_UNREACH_COUNT.max ∧
      (NoneWaits s → t.reqs.get tag none = none ∧ Stopped s t x))

/-- R173, R174, R193, R340, R347, R351 and R532. -/
def Obligations.FabricStreamsAndMessagesReachTheirUnits : Prop :=
  ∀ (s : State) (b : List Byte) (rest : List (List Byte)), s.UnitsInRange →
    let pay := pkPayload b
    let from' := fun (c : Nat) => s.takePkt (isControl c) = some (b, { s with fabIn := rest })
    (Oldest s 0xB b rest →
      (s.source? b = none → ∃ t, exec .tile s = .next t ∧ t = { s with fabIn := rest, regs := t.regs } ∧
        t.fld F.IKF_TDROP_COUNT = Nat.min (s.fld F.IKF_TDROP_COUNT + if tCrcOk pay then 1 else 0) F.IKF_TDROP_COUNT.max) ∧
      (∀ x, s.source? b = some x → x.closed = false → x.peg = false → x.hasQueue = true →
        ∃ t z, exec .tile s = .next t ∧ t.fabIn = rest ∧ t.strm? x.id = some z ∧
          let whole := x.part ++ pay
          if pkWorld b ≠ s.sectWorld then WrongWorld s t x z
          else if x.part = [] ∧ tCrcOk pay = false then TileChecked s t x z pay
          else if whole.length < roundUp (imageLen whole x.mxcol) 64 then z = { x with part := whole } ∧ t.mem = s.mem
          else TileChecked s t x z (restamp (whole.take (imageLen whole x.mxcol)) x.wepoch))) ∧
    (∀ x, s.takePkt s.creditReady = some (b, { s with fabIn := rest }) → s.strm? (pkAux b) = some x → x.kind = 4 →
      pkWorld b = s.sectWorld →
      let c := (if x.granted then x.credits else 0) + pkOpnd b
      ∃ t z, exec .credit s = .next t ∧ t.fabIn = rest ∧ t.strm? x.id = some z ∧
        (pkOpnd b = 0 → z.credits = 0 ∧ z.granted = false ∧ t.mem = s.mem) ∧
        (pkOpnd b ≠ 0 → z.credits = Nat.min c x.depth ∧ z.granted = true ∧ (c ≤ x.depth → t.mem = s.mem))) ∧
    (∀ x, from' 4 → s.source? b = some x → x.closed = false → x.peg = true → pkWorld b = s.sectWorld →
      let p := putField (pay.take 8) 4 4 x.wepoch
      ∃ t z, exec .pegMessage s = .next t ∧ t.fabIn = rest ∧ t.strm? x.id = some z ∧
        if fieldAt p 4 4 ≠ s.epochOf x.dstCore then Discarded s t x z
        else if World.ofBit (bit (byteAt p 3) 0) ≠ s.sectWorld then WrongWorld s t x z
        else Queued s t x z p) ∧
    (∀ x y, from' 5 → s.strm? (pkAux b) = some x → (x.kind = 3 ∨ x.kind = 4) → x.peer = pkSrc b → s.sect = some y →
      y.phase = .running →
      ∃ t z, exec .sectStrike s = .next t ∧ t.fabIn = rest ∧ t.evgPend 4 280 = true ∧ t.sect = some z ∧
        z.phase = .stopping ∧ z.cut = true) ∧
    (from' 6 → (s.proc 2).run = .running →
      ∃ t, exec .fabMgmt s = .next t ∧ t.fabIn = rest ∧ t.evgPend 2 144 = true ∧ t.out = s.out ++ [.mgmt 3 pay] ∧ t.mem = s.mem) ∧
    (from' 7 → (s.proc 1).run = .running → ∃ t, exec .secMgmt s = .next t ∧ t.fabIn = rest ∧ t.evgPend 1 132 = true ∧ t.out = s.out ++ [.mgmt 2 pay] ∧
      t.mem = s.mem)
/-! ## Reductions, the end of a step, and storage -/

/-- R355, R358, R361, R363, R364 and R372. -/
def Obligations.ReductionPiecesMoveRoundTheirRings : Prop :=
  (∀ (s : State) (b : List Byte) (rest : List (List Byte)), Oldest s 0xD b rest →
    let pay := pkPayload b
    let q := hQueue pay
    ((∀ c, s.chan? q = some c → c.arm = none) →
      ∃ t, exec .redSeg s = .next t ∧ t.fabIn = rest ∧ t.mem = s.mem ∧ Answers s t b 7 4 pay) ∧
    (∀ c a, s.chan? q = some c → c.arm = some a →
      (hStep pay < a → ∃ t, exec .redSeg s = .next t ∧ t = { s with fabIn := rest, regs := t.regs } ∧
        t.fld F.IKF_DROP_COUNT = Nat.min (s.fld F.IKF_DROP_COUNT + 1) F.IKF_DROP_COUNT.max) ∧
      (a ≤ hStep pay → s.pieceOdd c pay = true → exec .redSeg s = .fault .ringDisagrees) ∧
      (a ≤ hStep pay → s.pieceOdd c pay = false → s.holdFull c pay = true → exec .redSeg s = .next s) ∧
      (a ≤ hStep pay → s.pieceOdd c pay = false → s.holdFull c pay = false →
        ∃ t, exec .redSeg s = .next t ∧ t.fabIn = rest ∧
          ((a < hStep pay ∨ c.st (hBucket pay) = 0) → ∃ c', t.chan? q = some c' ∧ c'.moved = s.now ∧
            c'.held = c.held ++ [⟨pay, s.rank c, s.now⟩]) ∧
          (a = hStep pay → 2 ≤ c.st (hBucket pay) → c.world = .n → c.skip = [] → hSeg pay ≠ s.rank c →
            ∃ p, t.node = s.node ++ [⟨p, none, 0, []⟩] ∧ pkType p = 0xD ∧
              pkDst p = withCoord c.axis s.selfLog ((s.rank c + 1) % c.p) % 32768)))) ∧
  (∀ (queue : Fin 32768) (s : State) c, s.chan? queue = some c →
    (∀ step x, c.arm = some step → c.firstToIssue = some x →
      ∃ t c', exec (.bucketIssue queue) s = .next t ∧ t.chan? queue = some c' ∧ c'.moved = s.now ∧
        c'.ring = c.ring.filter (fun y => y.q != x.q) ∧ c'.st x.q = (if c.st x.q = 2 then 3 else 1)) ∧
    (∀ step e, c.arm = some step →
      firstWhere (fun (e : Nat × Nat) => c.st e.1 == 0 && decide (e.2 ≤ s.now)) c.timers.ents = some e →
      ∃ t c', exec (.forfeit queue) s = .next t ∧ t.chan? queue = some c' ∧ c'.st e.1 = 2 ∧ bit t.bar.flags 2 = true) ∧
    (∀ (rank : Fin 32) p ps, c.back.filter (fun p => p.rank == rank.val) = p :: ps →
      (c.retried.contains rank.val = true ∨ p.since + s.chanTicks c ≤ s.now) →
      ∃ t c', exec (.redSkip queue rank) s = .next t ∧ t.chan? queue = some c' ∧
        c'.back = c.back.filter (fun p => p.rank != rank.val) ∧
        (c.retried.contains rank.val = false → c'.retried = c.retried ++ [rank.val] ∧ c'.skip = c.skip) ∧
        (c.retried.contains rank.val = true → c'.skip = c.skip ++ [rank.val])) ∧
    (c.arm ≠ none → c.waiting = true →
      c.moved + msTicks (Nat.min (Nat.max (s.fld F.IKF_RED_X3_STALL_MS) 1) 1000) ≤ s.now →
      ∃ t c', exec (.redStall queue) s = .next t ∧ t.evgPend 4 273 = true ∧ t.chan? queue = some c' ∧ c'.moved = s.now))

/-- R392, R393, R395 to R397, R532, R533 and R537 to R541. -/
def Obligations.StepsCommitAbortAndReplay : Prop :=
  ∀ (s : State) (j : Job), (s.proc 4).run = .running → s.job = some j → s.flag F.CMD_FLT_ST_HALTED = false →
    let step := s.step_
    let renewed := fun (t : State) (code : Nat) => t.fld F.CMD_JOB_ATTEMPT = (s.attempt + 1) % 256 ∧
      t.bar = { aborted := some (code, s.selfLog), renewed := true }
    (s.stepDone j = true → s.bar.readyAt = none → s.bar.aborted = none → s.faults = [] →
      ∃ t, exec .stepReady s = .next t ∧ t.bar = { s.bar with readyAt := some s.now } ∧ t.fld F.CMD_JOB_PHASE = 5 ∧
        t = { s with bar := t.bar, regs := t.regs } ∧ ∀ off, off ≠ RegId.CMD_JOB.addr 0 0 → Kept s t off) ∧
    (∀ b rest, s.takePkt (fun b => isControl ctBarrier b && smDir b == 0) = some (b, { s with fabIn := rest }) →
      s.currentMsg b = true → pkSrc b ∈ s.children → s.bar.aborted = none → s.bar.readyAt = none →
      exec .barrierReport s = .next { s with fabIn := rest, bar := { s.bar with
        reports := s.bar.reports.filter (fun r => r.dev ≠ pkSrc b) ++ [⟨pkSrc b, smCount b, smFlags b⟩] } }) ∧
    (s.takePkt (fun b => isControl ctBarrier b && smDir b == 0) = none → s.bar.aborted = none → s.bar.readyAt ≠ none →
      s.bar.sentAt = none → s.bar.decided = false → s.allReported = true →
      ∃ t, exec .barrierReport s = .next t ∧
        (s.isRoot = true → s.subCount = s.hallSize → t.bar.decided = true ∧ t.fld F.CMD_JOB_PHASE = 6) ∧
        (s.isRoot = false → t.bar.sentAt = some s.now ∧ t.mem = s.mem)) ∧
    (s.isRoot = true → s.bar.decided = true → s.bar.aborted = none → s.bar.readyAt ≠ none →
      ∃ t j', exec .stepCommit s = .next t ∧ t.fld F.CMD_COMMITTED_STEP = step ∧ t.step_ = (step + 1) % 4294967296 ∧
        t.attempt = 0 ∧ t.fld F.CMD_JOB_PHASE = 0 ∧ t.bar = {} ∧ t.saved = [] ∧
        t.fld F.CMD_STEPCNT_COMMITS = Nat.min (s.fld F.CMD_STEPCNT_COMMITS + 1) F.CMD_STEPCNT_COMMITS.max ∧
        t.job = some j' ∧ j'.stepCmd = none ∧ j'.entry = 0) ∧
    (s.isRoot = true → s.bar.decided = true → s.bar.aborted ≠ none →
      ∃ t, exec .barrierRelease s = .next t ∧ t.bar = {} ∧ t.saved = [] ∧ t.replays = [] ∧
        t.job = some { j with entry := 0 } ∧ t.fld F.CMD_JOB_PHASE = if j.stepCmd.isSome then 1 else 0) ∧
    (s.isRoot = true → s.bar.decided = false → s.bar.aborted = none → s.past s.bar.readyAt s.barTicks = true →
      ∃ t, exec .barrierTimeout s = .next t ∧ renewed t 0x3B ∧ t.saved = []) ∧
    (s.haltDue = true → s.sect = none →
      ∃ t, exec .stepAbort s = .next t ∧ t.flag F.CMD_FLT_ST_HALTED = true ∧ t.fld F.CMD_JOB_PHASE = 0 ∧ t.faults = [] ∧
        t.saved = []) ∧
    (∀ f, s.haltDue = false → (s.isRoot && s.bar.decided) = false → s.abortEvent = some f →
      ∃ t, exec .stepAbort s = .next t ∧ (s.isRoot = true → renewed t f.code) ∧
        (s.isRoot = false → ∃ o, t.bar.aborted = some (f.code, o))) ∧
    (s.haltDue = false →
      s.past s.bar.reportedAt (2 * s.barTicks) = true →
      ∃ t, exec .stepStall s = .next t ∧ (s.isRoot = true → renewed t 0x45) ∧
        (s.isRoot = false → ∃ o, t.bar.aborted = some (0x45, o))) ∧
    (∀ d, s.bar.decided = false → s.past s.bar.replayAt s.barTicks = true → s.missingChild = some d →
      ∃ t, exec .replayTimeout s = .next t ∧ (s.isRoot = true → renewed t 0x44) ∧
        (s.isRoot = false → t.fld F.CMD_FLT_PEER_PEER = d % 32768 ∧ t.flag F.CMD_FLT_PEER_VALID = true ∧
          RegsOnly s t [RegId.CMD_FLT_PEER.addr 0 0])) ∧
    (∀ f, firstWhere (fun (f : FaultEv) => f.cls == FaultClass.sect) s.faults = some f → (∀ g ∈ s.faults, g.fence = []) →
      s.bar.aborted = none → (∀ g ∈ s.faults, g.cls ≠ .step ∧ g.cls ≠ .dev) →
      let limit := s.fld F.CMD_FLT_X_SEC_LIM ≤ s.replaysOf f.sect
      let step' := fun (t : State) => ∃ g ∈ t.faults, g.cls = .step ∧ g.sect = f.sect
      let far := s.streams.any (fun y => y.kind == 3 || y.kind == 4) = true
      ∃ t, exec .sectionReplay s = .next t ∧
        (limit → f.sect ≠ noSect → (s.sect ≠ none ∨ ∃ v ∈ s.saved, v.id = f.sect) → step' t) ∧
        (¬ limit → f.sect ≠ noSect → ∀ x, s.sect = some x → (x.id ≠ f.sect ∨ far) → step' t) ∧
        (¬ limit → f.sect ≠ noSect → ∀ x, s.sect = some x → x.id = f.sect → ¬ far → x.phase = .running →
          ∃ y, t.sect = some y ∧ y.phase = .stopping ∧ y.cut = true) ∧
        (f.sect ≠ noSect → s.sect = none → (∀ v ∈ s.saved, v.id ≠ f.sect) → step' t) ∧
        (¬ limit → f.sect ≠ noSect → s.sect = none → (∃ v ∈ s.saved, v.id = f.sect) → s.mapChanged = false →
          (∀ v ∈ s.saved, v.id = f.sect → v.streams.any (fun y => y.kind == 3 || y.kind == 4) = false) →
          t.saved = s.saved ∧ t.replaysOf f.sect = s.replaysOf f.sect + 1 ∧ t.fld F.CMD_FLT_ST_LAST_CLASS = 1 ∧
          t.fld F.CMD_FLT_SR_COUNT = Nat.min (s.fld F.CMD_FLT_SR_COUNT + 1) F.CMD_FLT_SR_COUNT.max))

/-- R398, R400, R407 to R410, R413 to R415, R417 and R482. -/
def Obligations.CheckpointsFlashAndSnapshotsKeepTheirData : Prop :=
  (∀ (s : State) b rest, (s.proc 3).run = .running → s.takePkt (isStoMsg msgPlan) = some (b, { s with fabIn := rest }) →
    let step := fieldAt (pkPayload b) 4 4
    let done := s.fld F.CMD_COMMITTED_STEP ≠ noStep ∧ step ≤ s.fld F.CMD_COMMITTED_STEP
    ∃ t, exec .checkpointPlanReceive s = .next t ∧ t = { s with fabIn := rest, regs := t.regs } ∧
      (done → t.fld F.STO_CKCNT_SKIPPED = Nat.min (s.fld F.STO_CKCNT_SKIPPED + 1) F.STO_CKCNT_SKIPPED.max) ∧
      (¬ done → t.fld F.STO_PLAN_STEP = step)) ∧
  (∀ (s : State) b rest c, (s.proc 3).run = .running → s.takePkt (isStoMsg msgBuddyDone) = some (b, { s with fabIn := rest }) →
    s.ckpt = some c → pkSrc b = withCoord 2 s.selfLog ((coord 2 s.selfLog + 1) % s.extentOf 2) →
    fieldAt (pkPayload b) 4 4 = c.step → c.ownRead = false →
      exec .buddyDone s = .next { s with fabIn := rest, ckpt := some { c with buddyOut := true } }) ∧
  (∀ (s : State) c j neighbour, s.UnitsInRange → (s.proc 3).run = .running → s.ckpt = some c → s.job = some j → c.done = false →
    ∃ t, exec (.ckptDone neighbour) s = .next t ∧ t.flag F.STO_ST_WRITING = false ∧
      t.fld F.STO_CKCNT_DONE = Nat.min (s.fld F.STO_CKCNT_DONE + 1) F.STO_CKCNT_DONE.max ∧
      (s.extentOf 2 = 1 ∨ (∀ g ∈ s.sto.gens, g.seq ≤ s.sto.seq) → ∃ g ∈ t.sto.gens, g.step = c.step ∧ g.buddy = false ∧
        g.data = c.head ++ s.genShards c.step ++ c.tail) ∧
      (s.extentOf 2 ≠ 1 → ∃ g ∈ t.sto.gens, g.step = c.step ∧ g.buddy = true ∧ g.data = neighbour)) ∧
  (∀ (s : State) blk erase, s.blockFitted blk = true → (s.block blk).bad = false →
    let f := if erase then F.NAND_PEFAIL_ERASE else F.NAND_PEFAIL_PROG
    ∃ t, exec (.nandProgramFail blk erase) s = .next t ∧ (t.block blk).bad = true ∧ (t.block blk).gen = none ∧
      t.fld f (blockChan blk) = Nat.min (s.fld f (blockChan blk) + 1) f.max ∧
      t.fld F.STO_BAD_GROWN = Nat.min (s.fld F.STO_BAD_GROWN + 1) F.STO_BAD_GROWN.max ∧
      t = { s with sto := t.sto, regs := t.regs }) ∧
  (∀ (s : State) blk cor (need : Fin 19) g, (s.proc 3).run = .running → s.flag F.STO_SCRUB_SCRUB_EN = true →
    (s.block blk).gen = some g → (s.block blk).bad = false → s.scrubDue blk = true → s.flag F.STO_ST_WRITING = false →
    s.flag F.STO_ST_RESTORING = false →
    ∃ t, exec (.retentionScrub blk cor need) s = .next t ∧ (t.block blk).readAt = some s.now ∧
      t.fld F.NAND_CW_COR_COUNT (blockChan blk) = (s.fld F.NAND_CW_COR_COUNT (blockChan blk) + cor) % 4294967296 ∧
      (need.val = 0 → (s.block blk).soft < 2 → t.block blk = { s.block blk with readAt := some s.now } ∧ t.mem = s.mem) ∧
      (17 ≤ need.val → 1 ≤ (s.block blk).soft → (t.block blk).bad = true) ∧
      (need.val = 18 → t.evgPend 3 (128 + blockChan blk) = true ∧ ∀ x ∈ t.sto.gens, x.seq ≠ g)) ∧
  (∀ (s : State) inNative lo los hi a f, (s.proc 3).run = .running →
    let region := s.wearOrder (if inNative then s.nativeBlocks else s.pslcBlocks)
    region = lo :: los → region.getLast? = some hi → (s.block lo).erases + 500 < (s.block hi).erases →
    firstWhere (fun b => (s.block b).gen.isSome) region = some a →
    (region.filter (fun b => (s.block b).gen.isNone)).getLast? = some f →
    ∃ t, exec (.wearLevelMove inNative) s = .next t ∧ (t.block f).gen = (s.block a).gen ∧ (t.block a).gen = none ∧
      (t.block f).erases = (s.block f).erases + 1 ∧ t = { s with sto := t.sto, regs := t.regs }) ∧
  (∀ (s : State) (c : Fin 16), ∃ t, exec (.nandCommandDone c) s = .next t ∧ t.evgPend 3 (144 + c.val) = true ∧
    t = { s with regs := t.regs, fires := t.fires }) ∧
  (∀ (s : State) x c i is, s.UnitsInRange → s.snap = some x → x.step = some c → x.todo = i :: is →
    let at_ := (s.snapLayout x.full).1.getD i (0, 0)
    let b := s.bankOf i c
    let n := s.shElems i
    let u := s.copyBytes (b + workOff n) (x.region + at_.1) (2 * n)
    let v := if x.full then u.copyBytes b (x.region + at_.2) (extOff n + 2 * n) else u
    ∃ t, exec .snapshotCopy s = .next t ∧ (is = [] → t.flag F.CMD_SNAP_COPIED = true) ∧
      (is ≠ [] → t = { s with mem := v.mem, snap := some { x with todo := is } })) ∧
  (∀ (s : State) x c, s.snap = some x → x.step = some c → s.flag F.CMD_SNAP_COPIED = true →
    let total := (s.snapLayout x.full).2
    let ended := fun (t : State) => t.snap = none ∧ t.flag F.CMD_SNAP_ACTIVE = false ∧ t.flag F.CMD_SNAP_EXPORTED = true
    (∀ r, x.fabric = false → s.arbPick 1 (fun _ => true) = some r → r.queue = exportQueue →
      let n := Nat.min miB (total - x.sent)
      ∃ t more, exec .snapshotExport s = .next t ∧
        t.out = s.out ++ [.hostWrite x.fn x.world (x.dest + x.sent) (s.bytes (x.region + x.sent) n)] ++ more ∧
        (x.sent + n < total → t.snap = some { x with sent := x.sent + n } ∧ more = [] ∧ t.mem = s.mem) ∧
        (total ≤ x.sent + n → ended t)) ∧
    (x.fabric = true → x.sent = 0 → ∃ t y, exec .snapshotExport s = .next t ∧ y ∈ t.xfers ∧ y.core = exportUnit ∧
      t.snap = some { x with sent := total } ∧ t.mem = s.mem) ∧
    (x.fabric = true → x.sent ≠ 0 → (∀ y ∈ s.xfers, y.core ≠ exportUnit) →
      ∃ t, exec .snapshotExport s = .next t ∧ ended t))
namespace Sys2Proof.Machine

/-- CMD runs a fetched command: it is there with the code, CMD's processor runs, an admin command came on the admin queue, a
halted device is given only JOB_RESTART and JOB_END, and no field of the entry fails its check. -/
abbrev Runs (s : State) (sq cid opc : Nat) (admin : Bool) (x : Fetched) : Prop :=
  (s.proc 4).run = .running ∧ s.fetch? sq cid = some x ∧ x.opc = opc ∧ (admin = true → s.onAdmin sq = true) ∧
    (s.flag F.CMD_FLT_ST_HALTED = true → opc = 0x12 ∨ opc = 0x13)

/-- A command ends: it leaves, and where its completion queue can take a record, the 16 bytes of Table 16.7 go to TAIL of
that queue with its phase bit, and TAIL moves on. -/
def Ended (u t : State) (x : Fetched) (status aux : Nat) : Prop :=
  let cq := u.qCqid x.sq
  let usable := u.qClass cq = 1 ∧ u.qState cq = 1 ∧ u.qFull cq = false
  let a := u.qBase cq + 16 * u.qTail cq
  let r := leBytes 2 x.cid ++ leBytes 2 x.sq ++ leBytes 4 x.head ++ leBytes 1 status ++ leBytes 1 (u.qPhase cq) ++ leBytes 2 aux
    ++ leBytes 4 0
  t = { u with fetched := u.fetched.erase x, mem := t.mem, out := t.out, msix := t.msix } ∧
  (¬ usable → t = { u with fetched := u.fetched.erase x }) ∧
  (usable → u.qHostRing cq = true → (∃ more, t.out = u.out ++ [.hostWrite (u.qOwner cq) (u.qWorld cq) a r] ++ more) ∧
    t.qTail cq = (u.qTail cq + 1) % u.qSize cq % 4294967296 ∧ MemOutside u t (qAddr cq) 128) ∧
  (usable → u.qHostRing cq = false → Apart a 16 (qAddr cq) 128 → t.bytes a 16 = r ∧
    t.qTail cq = (u.qTail cq + 1) % u.qSize cq % 4294967296 ∧
    ∀ b, ¬ (a ≤ b ∧ b < a + 16) → ¬ (qAddr cq ≤ b ∧ b < qAddr cq + 128) → t.byte b = u.byte b)

/-- A command ends after an effect that leads to a state with a property. -/
def Done (o : Out?) (x : Fetched) (status aux : Nat) (p : State → Prop) : Prop := ∃ u t, o = .next t ∧ Ended u t x status aux ∧ p u

/-- The registers of a function's HIF_ part that its reset clears. -/
def hifRegs : List RegId := [.HIF_FN_QBASE, .HIF_FN_CTL, .HIF_FN_ASQ_LO, .HIF_FN_ASQ_HI, .HIF_FN_ACQ_LO, .HIF_FN_ACQ_HI,
  .HIF_FN_AEQ_LO, .HIF_FN_AEQ_HI, .HIF_FN_ST, .HIF_FN_MSIX, .HIF_FN_DBDROP]

/-- A job is bound at a step: its registers, and LOCK. -/
def Bound (u : State) (j : Job) (step : Nat) : Prop :=
  u.job = some j ∧ u.flag F.CMD_JOB_BOUND = true ∧ u.fld F.CMD_JOB_ATTEMPT = 0 ∧ u.fld F.CMD_JOB_PHASE = 0 ∧
    u.fld F.CMD_STEP_STEP = step % 4294967296 ∧ u.flag F.IKF_MAP_CTL_LOCK = true ∧ u.flag F.CMD_FLT_ST_HALTED = false ∧
    u.fld F.CMD_JERR_CODE = 0 ∧ u.fld F.CMD_SHTAB_N_NSH = j.nsh % (F.CMD_SHTAB_N_NSH.max + 1) ∧ u.faults = [] ∧ u.saved = []

end Sys2Proof.Machine

/-- R429, R435, R441, R444. -/
def Obligations.SubmissionsAreFetchedAndQueuesMadeAndFreed : Prop :=
  (∀ (s : State) host r, (s.proc 4).run = .running → s.flag F.BC_BOOT_ST_READY = true →
    s.arbPick 0 (fun q => s.canFetch q) = some r →
    let q := r.queue
    let e := s.entryAt q host
    ∃ u x, x.sq = q ∧ x.cid = fieldAt e 2 2 ∧ x.entry = e ∧ x.head = u.qHead q ∧ u.fetched = s.fetched ++ [x] ∧
      u.qHead q = (s.qHead q + 1) % s.qSize q % 4294967296 ∧ MemOutside s u (qAddr q + 36) 4 ∧
      u = { s with mem := u.mem, fetched := u.fetched, arbs := u.arbs, arbLast := u.arbLast } ∧
      (u.qEmpty q = true → ∀ y ∈ u.arbs, ¬ (y.arb = r.arb ∧ y.queue = q)) ∧
      (u.qEmpty q = false → ⟨r.arb, q, s.qPrio q, s.now⟩ ∈ u.arbs) ∧
      (knownOpc (byteAt e 0) = true → exec (.hsqFetch host) s = .next u) ∧
      (knownOpc (byteAt e 0) = false → ∃ t, exec (.hsqFetch host) s = .next t ∧ Ended u t x 1 0)) ∧
  (∀ (s : State) sq cid host x, Runs s sq cid 0x01 true x →
    let c := Instr.createQ sq cid host
    let bad := firstOffset x.entry [(16, 2), (20, 20)] (s.createBad x host)
    let q := fieldAt x.entry 16 2
    let w := World.ofBit (bit (byteAt x.entry 21) 0)
    let chn := byteAt x.entry 20 = 4
    let r := if fieldAt x.entry 8 8 = 0 then List.replicate 64 0 else s.ptrData x 64 host
    let own := w = .n ∨ s.flag F.HIF_FN_ST_TDI_RUN (s.qOwner sq) = true
    let ring := bit (byteAt x.entry 21) 3 = true ∨
      s.rangeWorld (fieldAt x.entry 28 8) (qEntrySize (byteAt x.entry 20) * fieldAt x.entry 36 4) w = true
    (∀ o, bad = some o → Done (exec c s) x 1 o (· = s)) ∧
    (bad = none → ¬ (own ∧ ring) → Done (exec c s) x 2 0 (· = s)) ∧
    (bad = none → own → ring → ∀ k, chn → s.channelBad r w = some k → Done (exec c s) x 7 k (· = s)) ∧
    (bad = none → own → ring → (chn → s.channelBad r w = none) → Done (exec c s) x 0 0 (fun u =>
      u.bytes (qAddr q) 32 = padTo 32 (x.entry.drop 20) ∧ u.qState q = 1 ∧ u.qHead q = 0 ∧ u.qTail q = 0 ∧ u.qPhase q = 1 ∧
      u.bytes (qAddr q + 64) 32 = r.take 32 ∧ MemOutside s u (qAddr q) 128 ∧
      u.fld F.HIF_Q_ACT_COUNT = Nat.min (s.fld F.HIF_Q_ACT_COUNT + 1) F.HIF_Q_ACT_COUNT.max ∧
      u = { s with mem := u.mem, regs := u.regs, chans := u.chans } ∧ (¬ chn → u.chans = s.chans) ∧
      (chn → ∃ h, u.chan? q = some h ∧ h.arm = none ∧ h.axis = byteAt r 0 ∧ h.world = w ∧ h.nbkt = fieldAt r 12 4 ∧
        h.btab = fieldAt r 16 8)))) ∧
  (∀ (s : State) sq cid x, Runs s sq cid 0x02 true x →
    let c := Instr.deleteQ sq cid
    let q := fieldAt x.entry 16 2
    firstOffset x.entry [(16, 2)] [(!s.inRange (s.qOwner sq) q, 16)] = none →
    (s.qState q = 0 → Done (exec c s) x 0 0 (· = s)) ∧
    (s.qState q ≠ 0 → s.deleteBusy q = true → Done (exec c s) x 3 0 (· = s)) ∧
    (s.qState q ≠ 0 → s.deleteBusy q = false → Done (exec c s) x 0 0 (fun u =>
      u.qState q = 0 ∧ MemOutside s u (qAddr q + 32) 1 ∧ (∀ y ∈ u.arbs, y.queue ≠ q) ∧ q ∉ u.qLost ∧ u.chan? q = none ∧
      u.fld F.HIF_Q_ACT_COUNT = s.fld F.HIF_Q_ACT_COUNT - 1 ∧
      u = { s with mem := u.mem, regs := u.regs, chans := u.chans, arbs := u.arbs, qLost := u.qLost }))) ∧
  (∀ (s : State) r, firstWhere (fun (r : ArbReq) => decide (r.level < 3) && decide (r.since + s.ageTicks ≤ s.now)) s.arbs = some r →
    ∃ t, exec .agePromotion s = .next t ∧
      t.arbs = s.arbs.map (fun x => if x = r then { r with level := r.level + 1, since := s.now } else x) ∧
      t.fld F.HIF_PROMO_COUNT = (s.fld F.HIF_PROMO_COUNT + 1) % (F.HIF_PROMO_COUNT.max + 1) ∧
      RegsOnly { s with arbs := t.arbs } t [F.HIF_PROMO_COUNT.off])

/-- R418, R420, R436, R438 to R440, R459, R460 and R566. -/
def Obligations.JobsStartStepEndAndRestart : Prop :=
  (∀ (s : State) sq cid host cores cls regs (attest : Fin 3) x, Runs s sq cid 0x10 true x →
    let c := Instr.jobStart sq cid host cores cls regs attest
    let d := s.ptrData x 256 host
    let m := s.bytes (fieldAt d 0 8) 64
    let secure := bit (byteAt m 13) 0
    let j := jobOf (s.qOwner sq) x.job secure d
    let code := s.mapCores.mapCode m (s.jobWorlds d m)
    let sched := s.schedBad j (ceilDiv (fieldAt m 6 2) (byteAt m 2))
    let own := secure = false ∨ s.flag F.HIF_FN_ST_TDI_RUN (s.qOwner sq) = true
    firstOffset x.entry [] [(s.job.isNone && s.ptrBad x 256 host, 8)] = none →
    (s.job ≠ none → Done (exec c s) x 3 0 (· = s)) ∧
    (s.job = none → s.blockBad d secure = true → Done (exec c s) x 1 1 (· = s)) ∧
    (s.job = none → s.blockBad d secure = false →
      (code ≠ 0 → Done (exec c s) x 4 code (fun u => u.fld F.CMD_JERR_CODE = code ∧ RegsOnly s u [F.CMD_JERR_CODE.off])) ∧
      (code = 0 → sched = true → Done (exec c s) x 1 2 (· = s)) ∧
      (code = 0 → sched = false → s.manifestBad j = true → Done (exec c s) x 1 3 (· = s)) ∧
      (code = 0 → sched = false → s.manifestBad j = false →
        (¬ own → Done (exec c s) x 2 0 (· = s)) ∧
        (own → s.poolMiB < j.quota → Done (exec c s) x 6 0 (· = s)) ∧
        (own → j.quota ≤ s.poolMiB → secure = false → Done (exec c s) x 0 0 (fun u =>
          Bound u j (s.load (j.map + 20) 4) ∧ u.fld F.CMD_COMMITTED_STEP = noStep)) ∧
        (own → j.quota ≤ s.poolMiB → secure = true → attest.val = 0 → Done (exec c s) x 0 0 (fun u =>
          u.job = some j ∧ u.flag F.CMD_JOB_BOUND = true ∧ u.flag F.SEC_ST_SEALED = true ∧
            u.fld F.CMD_COMMITTED_STEP = noStep)) ∧
        (own → j.quota ≤ s.poolMiB → secure = true → attest.val ≠ 0 →
          Done (exec c s) x 2 (if attest.val = 1 then 2 else 3) (fun u =>
            u.job = none ∧ u.flag F.SEC_ST_SEALED = false ∧ u.sec.hbmS = [] ∧ u.sec.flashS = []))))) ∧
  (∀ (s : State) sq cid host x, Runs s sq cid 0x11 false x →
    (s.job = none → Done (exec (.step sq cid host) s) x 1 4 (· = s)) ∧
    (∀ j, s.job = some j → j.stepCmd = none →
      firstOffset x.entry [(16, 2)] [(s.jobBad x, 4), (s.ptrBad x (s.schedLen j) host, 8),
        (fieldAt x.entry 16 2 != s.schedLen j, 16)] = none →
      ∃ t, exec (.step sq cid host) s = .next t ∧ t.fld F.CMD_JOB_PHASE = (if s.bar.aborted.isSome then 7 else 1) ∧
        t.job = some { j with stepCmd := some ⟨sq, cid, (s.ptrData x (s.schedLen j) host).map BitVec.toNat⟩, entry := 0, run := 0 } ∧
        RegsOnly { s with job := t.job } t [F.CMD_JOB_PHASE.off])) ∧
  (∀ (s : State) sq cid x j, Runs s sq cid 0x16 true x → s.job = some j → reservedBad x.entry [(16, 4)] = [] →
    (s.poolMiB < fieldAt x.entry 16 4 → Done (exec (.setQuota sq cid) s) x 6 0 (· = s)) ∧
    (fieldAt x.entry 16 4 ≤ s.poolMiB → Done (exec (.setQuota sq cid) s) x 0 0
      (· = { s with job := some { j with quotaNext := some (fieldAt x.entry 16 4) } }))) ∧
  (∀ (s : State) sq cid x, Runs s sq cid 0x13 true x → reservedBad x.entry [] = [] →
    (s.job = none → Done (exec (.jobEnd sq cid) s) x 0 0 (· = s)) ∧
    (∀ j, s.job = some j → Done (exec (.jobEnd sq cid) s) x 0 0 (fun u =>
      u.job = none ∧ u.sect = none ∧ u.saved = [] ∧ u.faults = [] ∧ u.ckpt = none ∧ u.snap = none ∧ u.pool = [] ∧
        u.flag F.CMD_JOB_BOUND = false ∧ u.flag F.IKF_MAP_CTL_LOCK = false ∧ u.flag F.CMD_FLT_ST_HALTED = false ∧
        u.fld F.CMD_SHTAB_N_NSH = 0 ∧
        (j.secure = true → u.flag F.SEC_ST_SEALED = false ∧ u.sec.hbmS = [] ∧ u.sec.flashS = [])))) ∧
  (∀ (s : State) sq cid list maps self pull attest x j0, Runs s sq cid 0x12 true x → s.flag F.STO_ST_READY = true →
    s.job = some j0 →
    let c := Instr.jobRestart sq cid list maps self pull attest
    let step := fieldAt x.entry 16 4
    let n := fieldAt x.entry 20 2
    let a := fieldAt x.entry 24 8
    let ids := if n = 0 then [] else (List.range n).map (fun k => fieldAt (s.ptrData x (2 * n) list) (2 * k) 2)
    let j := { j0 with map := if a = 0 then j0.map else a, stepCmd := none, entry := 0, run := 0, quotaNext := none }
    let m := s.bytes j.map 64
    let t := s.remapTo maps self
    let code := t.mapCores.mapCode m (World.ofBit (bit (byteAt m 13) 0) == j.world && s.rangeWorld j.map 64 j.world)
    firstOffset x.entry [(16, 4), (20, 2), (24, 8)]
      [(false, 0), (decide (256 < n), 20), (n != 0 && s.ptrBad x (2 * n) list, 8),
        (a % 64 != 0 || (a != 0 && !s.shared a 64), 24)] = none →
    ((∃ i ∈ ids, 32768 ≤ i) → Done (exec c s) x 1 8 (· = s)) ∧
    ((∀ i ∈ ids, i < 32768) → code ≠ 0 →
      Done (exec c s) x 4 code (fun u => u.fld F.CMD_JERR_CODE = code ∧ RegsOnly s u [F.CMD_JERR_CODE.off])) ∧
    ((∀ i ∈ ids, i < 32768) → code = 0 → ∀ r b, t.restoreFrom step (ids.contains t.selfLog) m pull = (r, b) →
      (b = none → Done (exec c s) x 5 r (fun u => u.fld F.STO_REST_CODE = r % 16 ∧ u.job = some j0)) ∧
      (∀ data, b = some data → j0.secure = false →
        Done (exec c s) x 0 0 (fun u => Bound u j (step + 1) ∧ u.fld F.STO_REST_CODE = r % 16))))

/-- R398, R426, R427, R434, R443 and R444. -/
def Obligations.SnapshotsCopiesMessagesAndFunctionResets : Prop :=
  (∀ (s : State) sq cid x j, Runs s sq cid 0x14 false x → s.job = some j →
    let f := fun o w => fieldAt x.entry o w
    let full := f 20 1 == 1
    let fabric := f 21 1 == 1
    let com := s.fld F.CMD_COMMITTED_STEP
    firstOffset x.entry [(16, 6), (24, 32)]
      [(s.jobBad x, 4), (f 16 4 != noStep && com != noStep && decide (f 16 4 < com), 16), (decide (1 < f 20 1), 20),
       (decide (1 < f 21 1), 21),
       (f 24 8 % 4096 != 0 || s.place (f 24 8) != .hbm || !s.inOne (f 24 8) (Nat.max (f 32 8) 1), 24),
       (decide (f 32 8 < (s.snapLayout full).2), 32),
       (if fabric then bit (f 40 8) 15 || decide (2 ^ 31 ≤ f 40 8) else f 40 8 % 64 != 0, 40),
       (if fabric then f 48 8 % 64 != 0 || decide (2 ^ 48 ≤ f 48 8) else f 48 8 != 0, 48)] = none →
    (∀ y, s.snap = some y → (y.sq ≠ sq ∨ y.cid ≠ cid) → Done (exec (.snapshot sq cid) s) x 3 0 (· = s)) ∧
    (s.snap = none → (fabric = false ∨ j.secure = false) →
      (j.secure = false ∨ s.flag F.HIF_FN_ST_TDI_RUN (s.qOwner sq) = true) →
      s.rangeWorld (f 24 8) (Nat.max (f 32 8) 1) j.world = true →
      ∃ t y, exec (.snapshot sq cid) s = .next t ∧ t.snap = some y ∧ y.sq = sq ∧ y.cid = cid ∧ y.full = full ∧ y.fabric = fabric ∧
        y.region = f 24 8 ∧ y.dest = f 40 8 ∧ y.taddr = f 48 8 ∧ y.world = j.world ∧ t.fetched = s.fetched ∧
        y.want = (if f 16 4 = noStep then none else some (f 16 4)) ∧
        (y.want ≠ some com → y.step = none ∧ t = { s with snap := some y }) ∧
        (y.want = some com → y.step = some com ∧ t.flag F.CMD_SNAP_ACTIVE = true ∧ t.fld F.CMD_SNAP_STEP_STEP = com))) ∧
  (∀ (s : State) sq cid data x, Runs s sq cid 0x15 false x →
    let f := fun o w => fieldAt x.entry o w
    let dir := f 16 1
    let la := f 32 8
    let len := f 40 8
    firstOffset x.entry [(16, 1), (24, 24)] [(decide (1 < dir), 16), (f 24 8 % 64 != 0, 24),
      (la % 64 != 0 || !s.shared la (Nat.min len (2 ^ 40)), 32),
      (len == 0 || len % 64 != 0 || decide (2 ^ 40 < len), 40)] = none →
    ((∀ c ∈ s.copies, ¬ (c.1 = sq ∧ c.2.1 = cid)) →
      (s.rangeWorld la len (s.qWorld sq) = false → Done (exec (.copy sq cid data) s) x 2 0 (· = s)) ∧
      (s.rangeWorld la len (s.qWorld sq) = true → exec (.copy sq cid data) s =
        exec (.copy sq cid data) ({ s with copies := s.copies ++ [(sq, cid, 0)] }.arbEnter 1 sq (s.levelOf x)))) ∧
    (∀ r before, s.arbPick 1 (fun _ => true) = some r → r.queue = sq → s.firstCopy sq = some (sq, cid, before) →
      let n := Nat.min miB (len - before)
      s.zeroingIn (la + before) n = false →
      ∃ u t : State, exec (.copy sq cid data) s = .next t ∧
        (dir = 0 → u.out = s.out ∧ (s.lockedAt (la + before) n = false → u.mem = (s.setBytes (la + before) (padTo n data)).mem)) ∧
        (dir ≠ 0 → u.mem = s.mem ∧
          u.out = s.out ++ [.hostWrite (s.qOwner sq) (s.qWorld sq) (f 24 8 + before) (s.bytes (la + before) n)]) ∧
        (before + n < len → t.mem = u.mem ∧ t.out = u.out ∧ t.fetched = s.fetched ∧ (sq, cid, before + n) ∈ t.copies) ∧
        (len ≤ before + n → t.fetched = s.fetched.erase x ∧ t.copies = s.copies.erase (sq, cid, before)))) ∧
  (∀ (s : State) host r, s.arbPick 2 (fun q => s.qClass q == 2 && s.qState q == 1 && !s.qEmpty q) = some r →
    let q := r.queue
    let e := s.entryAt q host
    let dst := if fieldAt e 0 4 = 0 then s.qf q 64 2 else fieldAt e 0 2
    let frq := if fieldAt e 0 4 = 0 then s.qf q 66 2 else fieldAt e 2 2
    ∃ t, exec (.fsqSend host) s = .next t ∧ t.qHead q = (s.qHead q + 1) % s.qSize q % 4294967296 ∧
      MemOutside s t (qAddr q + 36) 4 ∧
      (s.qWorld q = .n → ∃ p, t.node = s.node ++ [⟨p, none, 0, []⟩] ∧ pkType p = 3 ∧ pkDst p = dst % 32768 ∧
        pkAddr p = 0x64000000 + 64 * (frq % 32768) ∧ (pkPayload p).take 60 = (e.drop 4).take 60)) ∧
  (∀ (s : State) (f : Fin 64), s.UnitsInRange → ∃ t, exec (.functionLevelReset f) s = .next t ∧
    (∀ g : Fin 64, g = f ∨ f.val = 0 → (∀ r ∈ hifRegs, t.rd r g.val = r.resetWord g.val 0) ∧
      ∀ w, w < 16 → t.rd .HIF_WIN_LO g.val w = RegId.resetWord .HIF_WIN_LO g.val w ∧
        t.rd .HIF_WIN_HI g.val w = RegId.resetWord .HIF_WIN_HI g.val w) ∧
    (∀ q, q < 32768 → t.qOwner q = f.val → t.qState q = 0) ∧
    (∀ v, v < 4096 → t.msix.get (4096 * f.val + v) {} = {}) ∧ (∀ y ∈ t.sec.tdiLocked, y.1 ≠ f.val) ∧
    (f.val ≠ 0 → ∀ x ∈ t.fetched, s.qOwner x.sq ≠ f.val) ∧ (∀ j, s.job = some j → j.fn = f.val → t.job = none)) ∧
  (∀ (s : State) (f : Fin 64),
    (s.flag F.HIF_FN_ST_TDI_RUN f.val = false → exec (.tdiLeaveRun f) s = .next s) ∧
    (s.UnitsInRange → s.flag F.HIF_FN_ST_TDI_RUN f.val = true → ∃ t, exec (.tdiLeaveRun f) s = .next t ∧
      t.flag F.HIF_FN_ST_TDI_RUN f.val = false ∧
      (∀ w, w < 16 → s.flag F.HIF_WIN_LO_WORLD f.val w = true → t.flag F.HIF_WIN_LO_EN f.val w = false) ∧
      (∀ j, s.job = some j → j.fn = f.val → t.job = none) ∧
      ((∀ j, s.job = some j → j.fn ≠ f.val) → t.job = s.job ∧
        ∀ q, q < 32768 → s.qOwner q = f.val → s.qWorld q = .s → s.qState q ≠ 0 → t.qState q = 2)))
namespace Sys2Proof.Machine

/-- SEC's processor runs and a requester's message reaches it. -/
abbrev Heard (s : State) (via : SpdmVia) : Prop := (s.proc 1).run = .running ∧ s.viaUp via = true

/-- A message goes to a requester: over DOE, over MCTP, or in control packets of at most 512 bytes to the device, shown for the
world N, and nothing else leaves. -/
def Said (s t : State) (via : SpdmVia) (m : List Byte) : Prop :=
  match via with
  | .doe => t.out = s.out ++ [.mgmt 0 m] ∧ t.node = s.node
  | .mctp => t.out = s.out ++ [.mgmt 1 m] ∧ t.node = s.node
  | .device d => s.jobWorld = .n → t.out = s.out ∧
      ∃ ps : List (List Byte), t.node = s.node ++ ps.map (fun p => ⟨p, none, 0, []⟩) ∧
        (∀ p ∈ ps, pkType p = 0x0E ∧ pkSub p = 7 ∧ pkDst p = d.val ∧ pkLen p ≤ 8) ∧ (ps.flatMap pkPayload).take m.length = m

/-- SEC's connections, sessions and keys are as they were; only the counters of packets sent may move. -/
def SecKept (s t : State) : Prop := t.sec = { s.sec with txCtr := t.sec.txCtr }

/-- The SPDM rows: the command, and the version, code, least stage and least length of its request. -/
def spdmRows (via : SpdmVia) (sid : Nat) (m : List Byte) (mac : Bool) : List (Instr × Nat × Nat × Nat × Nat) :=
  [(.getVersion via m, 0x10, 0x84, 0, 4), (.getCapabilities via m, 0x13, 0xE1, 1, 20),
   (.negotiateAlgorithms via m, 0x13, 0xE3, 2, 32), (.getDigests via m, 0x13, 0x81, 3, 4),
   (.getCertificate via m, 0x13, 0x82, 3, 8), (.challenge via m, 0x13, 0x83, 3, 44),
   (.getMeasurements via m, 0x13, 0xE0, 3, 4), (.keyExchange via m, 0x13, 0xE4, 3, 106),
   (.finish via sid m mac, 0x13, 0xE5, 3, 4), (.heartbeat via sid m, 0x13, 0xE8, 3, 4),
   (.keyUpdate via sid m, 0x13, 0xE9, 3, 4), (.endSession via sid m, 0x13, 0xEC, 3, 4)]

/-- A request is in order: its version, code, the stage of its connection and its length. -/
abbrev InOrder (s : State) (via : SpdmVia) (m : List Byte) (ver code stage len : Nat) : Prop :=
  byteAt m 0 = ver ∧ byteAt m 1 = code ∧ stage ≤ (s.conn via).stage ∧ len ≤ m.length

end Sys2Proof.Machine

/-- R426, R454, R457 and R458. The bytes of the messages are the model's reading of the named standards. -/
def Obligations.SecAnswersSpdmRequests : Prop :=
  ∀ (s : State) (via : SpdmVia) (sid : Nat) (m : List Byte) (mac : Bool), Heard s via →
    let c := s.conn via
    let tell := fun (i : Instr) (p : State → List Byte → Prop) => ∃ t r, exec i s = .next t ∧ Said s t via r ∧ p t r
    (∀ row ∈ spdmRows via sid m mac, ¬ InOrder s via m row.2.1 row.2.2.1 row.2.2.2.1 row.2.2.2.2 →
      tell row.1 (fun t r => r.take 2 = [0x13, 0x7F] ∧ SecKept s t)) ∧
    (InOrder s via m 0x10 0x84 0 4 → tell (.getVersion via m) (fun t r =>
      r = [0x10, 0x04, 0, 0, 0, 1, 0, 0x13] ∧ t.conn via = { stage := 1, vca := m ++ r })) ∧
    (InOrder s via m 0x13 0xE1 1 20 → tell (.getCapabilities via m) (fun t r =>
      t.conn via = { c with stage := 2, vca := c.vca ++ m ++ r } ∧ r.length = 20 ∧ r.take 5 = [0x13, 0x61, 0, 0, 0] ∧
        fieldAt r 8 4 = spdmCaps via)) ∧
    (InOrder s via m 0x13 0xE3 2 32 →
      let able := bit (fieldAt m 8 4) 9 && bit (fieldAt m 12 4) 6
      (able = false → tell (.negotiateAlgorithms via m) (fun t r => r = [0x13, 0x7F, 1, 0] ∧ SecKept s t)) ∧
      (able = true → tell (.negotiateAlgorithms via m) (fun t r =>
        t.conn via = { c with stage := 3, vca := c.vca ++ m ++ r } ∧ r.take 4 = [0x13, 0x63, 4, 0] ∧ r.length = 52 ∧
          fieldAt r 8 4 = 2 ^ 7 ∧ fieldAt r 12 4 = 2 ^ 9 ∧ fieldAt r 16 4 = 2 ^ 6))) ∧
    (InOrder s via m 0x13 0x81 3 4 → tell (.getDigests via m) (fun t r =>
      r = [0x13, 0x01, 0, 1] ++ sm3 s.certChain ∧ t.conn via = { c with certs := c.certs ++ m ++ r })) ∧
    (InOrder s via m 0x13 0x82 3 8 →
      let off := fieldAt m 4 2
      let n := Nat.min (fieldAt m 6 2) (s.certChain.length - off)
      (byteAt m 2 = 0 → off < s.certChain.length → tell (.getCertificate via m) (fun t r =>
        r = [0x13, 0x02, 0, 0] ++ leBytes 2 n ++ leBytes 2 (s.certChain.length - off - n) ++ (s.certChain.drop off).take n ∧
          t.conn via = { c with certs := c.certs ++ m ++ r })) ∧
      (byteAt m 2 ≠ 0 ∨ s.certChain.length ≤ off → tell (.getCertificate via m) (fun t r => r = [0x13, 0x7F, 1, 0] ∧ SecKept s t))) ∧
    (InOrder s via m 0x13 0x83 3 44 → byteAt m 2 = 0 → tell (.challenge via m) (fun t r =>
      t.conn via = { c with certs := [] } ∧ ∃ nonce k, nonce.length = 32 ∧
        let body := [0x13, 0x03, 0, 1] ++ sm3 s.certChain ++ nonce ++ s.measSummary (byteAt m 3) ++ [0, 0] ++ (m.drop 36).take 8
        r = body ++ sm2Sign s.aliasD k s.aliasPub
          (spdmSigned "responder-challenge_auth signing" (c.vca ++ c.certs ++ m ++ body)))) ∧
    (InOrder s via m 0x13 0xE0 3 4 → ∀ bs, measAsked (byteAt m 3) = some bs →
      let blocks := bs.flatMap s.measBlock
      let head := [0x13, 0x60, (if byteAt m 3 = 0 then 10 else 0), 0] ++ leBytes 1 bs.length ++ leBytes 3 blocks.length ++ blocks
      (bit (byteAt m 2) 0 = false → tell (.getMeasurements via m) (fun t r =>
        t.conn via = { c with meas := c.meas ++ m ++ r } ∧ ∃ nonce, nonce.length = 32 ∧
          r = head ++ nonce ++ [0, 0] ++ padTo 8 ((m.drop 4).take 8))) ∧
      (bit (byteAt m 2) 0 = true → 45 ≤ m.length → byteAt m 36 = 0 → tell (.getMeasurements via m) (fun t r =>
        t.conn via = { c with meas := [] } ∧ ∃ nonce k, nonce.length = 32 ∧
          let body := head ++ nonce ++ [0, 0] ++ padTo 8 ((m.drop 37).take 8)
          r = body ++ sm2Sign s.aliasD k s.aliasPub
            (spdmSigned "responder-measurements signing" (c.vca ++ c.meas ++ m ++ body))))) ∧
    (InOrder s via m 0x13 0xE4 3 106 → byteAt m 3 = 0 → tell (.keyExchange via m) (fun t r =>
      r.take 4 = [0x13, 0x64, 0, 0] ∧ fieldAt r 4 2 = s.freeHalf % 65536 ∧
        ∃ x, t.sec.sessions = s.sec.sessions ++ [x] ∧ x.id = fieldAt m 4 2 + 65536 * s.freeHalf ∧
          x.via = viaKey via ∧ x.done = false ∧ x.secret.length = 32 ∧ x.reqGen = 0 ∧ x.rspGen = 0 ∧ x.seen = s.now)) ∧
    (∀ row ∈ spdmRows via sid m mac, row.2.2.1 ∈ [0xE5, 0xE8, 0xE9, 0xEC] → InOrder s via m 0x13 row.2.2.1 3 4 →
      (s.session? via sid = none → tell row.1 (fun t r => r = [0x13, 0x7F, 2, 0] ∧ SecKept s t)) ∧
      (∀ x, s.session? via sid = some x → x.done ≠ decide (row.2.2.1 ≠ 0xE5) →
        tell row.1 (fun t r => r = [0x13, 0x7F, 4, 0] ∧ SecKept s t))) ∧
    (∀ x, s.session? via sid = some x →
      let y := { x with seen := s.now }
      (InOrder s via m 0x13 0xE5 3 4 → x.done = false →
        (mac = true → tell (.finish via sid m mac) (fun t r =>
          r = [0x13, 0x65, 0, 0] ∧ t.session? via sid = some { y with done := true })) ∧
        (mac = false → tell (.finish via sid m mac) (fun t r => r = [0x13, 0x7F, 6, 0] ∧ t.session? via sid = none))) ∧
      (x.done = true →
        (InOrder s via m 0x13 0xE8 3 4 →
          tell (.heartbeat via sid m) (fun t r => r = [0x13, 0x68, 0, 0] ∧ t.session? via sid = some y)) ∧
        (InOrder s via m 0x13 0xE9 3 4 → byteAt m 2 ∈ [1, 2, 3] → tell (.keyUpdate via sid m) (fun t r =>
          r = [0x13, 0x69, BitVec.ofNat 8 (byteAt m 2), BitVec.ofNat 8 (byteAt m 3)] ∧
            t.session? via sid = some { y with
              reqGen := if byteAt m 2 < 3 then x.reqGen + 1 else x.reqGen
              rspGen := if byteAt m 2 = 2 then x.rspGen + 1 else x.rspGen })) ∧
        (InOrder s via m 0x13 0xEC 3 4 →
          tell (.endSession via sid m) (fun t r => r = [0x13, 0x6C, 0, 0] ∧ t.session? via sid = none)) ∧
        (∀ link,
          let key := byteAt m 5 + 256 * byteAt m 3 + (if link then 65536 else 0)
          (byteAt m 0 = 0 → tell (.ideKm via sid link m) (fun _ r => r.take 3 = [1, 0, 0] ∧ r.length = 15)) ∧
          (byteAt m 0 = 2 → 47 ≤ m.length → tell (.ideKm via sid link m) (fun t r =>
            r.take 4 = [3, 0, 0, BitVec.ofNat 8 (byteAt m 3)] ∧ t.sec.ideKeys.get key [] = (m.drop 7).take 40)) ∧
          (byteAt m 0 = 4 → s.sec.ideKeys.get key [] ≠ [] → tell (.ideKm via sid link m) (fun t r =>
            r.take 3 = [6, 0, 0] ∧ key ∈ t.sec.ideGo ∧ (link = true → t.flag F.HIF_ST_IDE_LINK = true))) ∧
          (byteAt m 0 = 5 → tell (.ideKm via sid link m) (fun t r => r.take 3 = [6, 0, 0] ∧ key ∉ t.sec.ideGo))) ∧
        (∀ f : Fin 64, byteAt m 0 = 0x10 →
          (f.val = 0 → tell (.tdisp via sid f m) (fun t r => r.take 2 = [0x10, 0x7F] ∧ t.sec.tdiLocked = s.sec.tdiLocked)) ∧
          (f.val ≠ 0 →
            (byteAt m 1 = 0x83 → s.tdiState f.val = 0 → tell (.tdisp via sid f m) (fun t r =>
              r.take 2 = [0x10, 0x03] ∧ ∃ n, n.length = 32 ∧ r.drop 16 = n ∧ t.sec.tdiLocked = s.sec.tdiLocked ++ [(f.val, n)])) ∧
            (byteAt m 1 = 0x85 → tell (.tdisp via sid f m) (fun _ r =>
              r.take 2 = [0x10, 0x05] ∧ r.drop 16 = [BitVec.ofNat 8 (s.tdiState f.val)])) ∧
            (∀ x, byteAt m 1 = 0x86 → firstWhere (fun (x : Nat × List Byte) => x.1 == f.val) s.sec.tdiLocked = some x →
              ((m.drop 16).take 32 = x.2 → tell (.tdisp via sid f m) (fun t r =>
                r.take 2 = [0x10, 0x06] ∧ t.flag F.HIF_FN_ST_TDI_RUN f.val = true ∧ t.tdiState f.val = 2)) ∧
              ((m.drop 16).take 32 ≠ x.2 → tell (.tdisp via sid f m) (fun t r =>
                r.take 2 = [0x10, 0x7F] ∧ t.sec.tdiLocked = s.sec.tdiLocked))) ∧
            (byteAt m 1 = 0x87 → (∀ j, s.job = some j → j.fn ≠ f.val) → tell (.tdisp via sid f m) (fun t r =>
              r.take 2 = [0x10, 0x07] ∧ t.tdiState f.val = 0 ∧ t.flag F.HIF_FN_ST_TDI_RUN f.val = false))))))
namespace Sys2Proof.Machine

/-- A restart of a processor has begun (R467 to R472): PEER_DOWN at the others, the counts and cause, no active source at its
gatherer, and it is restarting; one crash too many in 600 s leaves it dead. -/
def Restarted (s t : State) (n cause : Nat) : Prop :=
  let fatal := cause ≤ 2 ∧ Nat.max (s.fld F.BC_FW_WD_X_CRASH_LIM) 1 < (s.recentCrashes n).length
  (∀ q, q < 5 → q ≠ n → t.evgPend q (104 + n) = true ∧ t.proc q = s.proc q) ∧
  t.fld F.BC_FW_RST_RESTARTS n = Nat.min (s.fld F.BC_FW_RST_RESTARTS n + 1) F.BC_FW_RST_RESTARTS.max ∧
  t.fld F.BC_FW_CAUSE_CAUSE n = cause ∧
  (cause ≤ 2 → t.fld F.BC_FW_RST_CRASHES n = Nat.min (s.fld F.BC_FW_RST_CRASHES n + 1) F.BC_FW_RST_CRASHES.max) ∧
  (∀ k, k < 32 → t.rd .EVG_ACT n k = 0) ∧ (t.proc n).active = [] ∧
  t.fld F.LNT_SEQ_SEQ n = (s.fld F.LNT_SEQ_SEQ n + 1) % 4294967296 ∧
  (n = 3 → t.ckpt = none) ∧ (n = 1 → cause = 4 → t.sec.sessions = []) ∧
  (¬ fatal → (t.proc n).run = .restarting ∧ (t.proc n).began = s.now ∧ bit (t.fld F.BC_FW_ST_RESTARTING) n = true) ∧
  (fatal → (t.proc n).run = .dead ∧ bit (t.fld F.BC_FW_ST_DEAD) n = true ∧ (n < 2 → t.flag F.BC_BOOT_ST_READY = false))

/-- MGT takes the entry `e` at the head of its host mailbox, and `u` is the state with HEAD moved on. -/
abbrev Mail (s : State) (host e : List Byte) (u : State) : Prop :=
  let q := s.fld F.HIF_FWQBASE_QBASE
  (s.proc 0).run = .running ∧ s.flag F.BC_BOOT_ST_READY = true ∧ s.qClass q = 5 ∧ s.qState q = 1 ∧ s.qEmpty q = false ∧
    s.fwBusy = false ∧ s.fwTodo = [] ∧ e = s.entryAt q host ∧ u = s.setQf q 36 4 ((s.qHead q + 1) % s.qSize q)

/-- An event of the mailbox (R478) goes to the PF's admin event queue: TAG, PROC and more. -/
def Told (o : Out?) (u : State) (code tag p : Nat) (d : List Nat) : Prop :=
  o = .next (u.postAdmin 0 code 0x80 0 (tag :: p :: d))

/-- An activation of a processor is carried out: an empty slot refuses it, else its bank flips and it restarts. -/
def Activated (o : Out?) (u : State) (p tag : Nat) : Prop :=
  (u.slotEmpty (u.otherBank p) p = true → Told o u 0x14 tag p [4]) ∧
  (u.slotEmpty (u.otherBank p) p = false → ∃ t, o = .next t ∧ Restarted u t p 4 ∧ t.activeBank p = u.otherBank p ∧
    (t.proc p).tag = some tag ∧ (t.proc p).activating = true ∧ (t.proc p).back = false)

end Sys2Proof.Machine

/-- R467, R468, R472 to R478, R480, R481, and R495's WAKE. -/
def Obligations.ProcessorsRestartAndTheirMailboxIsServed : Prop :=
  (∀ (src : Src) (v : Word) (s u : State), Reaches s src .BC_FW_KICK 0 u →
    (∀ p h, src = .fw p h → exec (.bcFwKick src v) s = .next (if bit v.toNat (procNum p) then
      u.setProc (procNum p) { u.proc (procNum p) with kick := u.now, half := false } else u)) ∧
    (∀ f, src = .fn f → bits v.toNat 4 0 = 0 → exec (.bcFwKick src v) s = .next u) ∧
    (∀ f, src = .fn f → bits v.toNat 4 0 ≠ 0 →
      ∃ t, exec (.bcFwKick src v) s = .next t ∧ Violation 1 (0x40 + f.val) (RegId.addr .BC_FW_KICK 0 0) u t)) ∧
  (∀ (src : Src) (k : Fin 8) (s u : State), Reaches s src .BC_CL k.val u →
    (u.fld F.BC_CL_STATE k.val = 2 → k.val ∉ u.wakeReq →
      exec (.wake src k) s = .next { u with wakeReq := u.wakeReq ++ [k.val] }) ∧
    (u.fld F.BC_CL_STATE k.val ≠ 2 ∨ k.val ∈ u.wakeReq → exec (.wake src k) s = .next u)) ∧
  (∀ (p : Proc) (cls : Fin 32) (point : Fin 65536) (args : List Word) (s : State),
    let n := procNum p
    let on := cls.val = 0 ∨ cls.val = 2 ∨ bit (s.rd .LNT_MASK n).toNat cls.val = true
    let sq := (s.fld F.LNT_SEQ_SEQ n + 1) % 4294967296
    let a := s.lntBase n + 64 * s.fld F.LNT_HEAD_HEAD n
    let record := padTo 64 (leBytes 8 s.now ++ leBytes 4 sq ++ leBytes 1 n ++ leBytes 1 cls.val ++ leBytes 2 point.val
      ++ leBytes 4 (s.fld F.CMD_STEP_STEP) ++ (args.take 11).flatMap (fun w => leBytes 4 w.toNat))
    (s.proc n).run = .running →
    (on → ∃ t, exec (.tracePoint p cls point args) s = .next t ∧ t.fld F.LNT_SEQ_SEQ n = sq ∧
      t.fld F.LNT_HEAD_HEAD n = (s.fld F.LNT_HEAD_HEAD n + 1) % 16384 ∧
      (s.place (s.lntBase n) = .hbm → t.bytes a 64 = record ∧ MemOutside s t a 64) ∧
      (s.place (s.lntBase n) ≠ .hbm → t.mem = s.mem) ∧
      RegsOnly { s with mem := t.mem } t [F.LNT_HEAD_HEAD.off n, F.LNT_SEQ_SEQ.off n]) ∧
    (¬ on → exec (.tracePoint p cls point args) s = .next s)) ∧
  (∀ (p : Proc) (s : State), s.UnitsInRange →
    let n := procNum p
    (s.proc n).run = .running →
    (∃ t, exec (.processorFault p) s = .next t ∧ Restarted s t n 2) ∧
    ((s.proc n).kick + s.wdTicks ≤ s.now → ∃ t, exec (.watchdogExpiry p) s = .next t ∧ Restarted s t n 1) ∧
    (s.now < (s.proc n).kick + s.wdTicks → exec (.watchdogExpiry p) s = .next s) ∧
    ((s.proc n).half = false → 2 * (s.proc n).kick + s.wdTicks ≤ 2 * s.now → ∃ t, exec (.wdHalf p) s = .next t ∧
      t.proc n = { s.proc n with half := true } ∧ t.evgPend n 0 = true ∧
      t = { s with procs := t.procs, regs := t.regs, fires := t.fires }) ∧
    ((s.proc n).half = true → exec (.wdHalf p) s = .next s)) ∧
  (∀ (p : Proc) (s : State), s.UnitsInRange →
    let n := procNum p
    let base := slotBase (s.activeBank n) n
    let h := s.norRead base 256
    let ok := s.imageOk n base (s.fld F.BC_FW_SVN_FLOOR n)
    (s.proc n).run = .restarting → (n = 1 ∨ (s.proc 1).run = .running) →
    (ok = true → s.fwTodo = [] → ∃ t, exec (.peerUp p) s = .next t ∧ (t.proc n).run = .running ∧ (t.proc n).kick = s.now ∧
      (t.proc n).tag = none ∧ bit (t.fld F.BC_FW_ST_RESTARTING) n = false ∧ t.fld F.BC_FW_VER_VERSION n = fieldAt h 8 4 ∧
      t.fld F.BC_FW_SVN_SVN n = fieldAt h 12 4 % 65536 ∧
      t.fld F.BC_FW_SVN_FLOOR n = Nat.max (s.fld F.BC_FW_SVN_FLOOR n) (fieldAt h 12 4) % 65536 ∧
      ∀ q, q < 5 → q ≠ n → t.evgPend q (96 + n) = true ∧ t.proc q = s.proc q) ∧
    (ok = false → (s.proc n).activating = true → (s.proc n).back = false →
      ∃ t, exec (.peerUp p) s = .next t ∧ t.activeBank n = s.otherBank n ∧ (t.proc n).back = true ∧ Restarted s t n 4) ∧
    (ok = false → ((s.proc n).activating = false ∨ (s.proc n).back = true) → exec (.peerUp p) s = .next s)) ∧
  (∀ (s u : State) (host img e : List Byte), Mail s host e u → s.UnitsInRange →
    let o := byteAt e 0
    let p := byteAt e 1
    let tag := fieldAt e 2 2
    let len := fieldAt e 16 4
    let each := fun (i : Instr) (code : Nat) (go : Out? → Prop) => o = code →
      (mbBad e = true → Told (exec i s) u 0x14 tag p [1]) ∧ (mbBad e = false → go (exec i s))
    ((o = 0 ∨ 4 < o) → (s.proc 1).run = .running → Told (exec (.stage host img) s) u 0x14 tag p [1]) ∧
    ((s.proc 1).run = .running → each (.stage host img) 1 (fun r =>
      let base := slotBase (u.otherBank p) p
      let w := u.norWrite base (padTo len img)
      ((u.proc p).deferTag ≠ none → Told r u 0x14 tag p [3]) ∧
      ((u.proc p).deferTag = none → bodyMax + 256 < len → Told r u 0x14 tag p [1]) ∧
      ((u.proc p).deferTag = none → len ≤ bodyMax + 256 → 256 ≤ len → w.imageOk p base (u.fld F.BC_FW_SVN_FLOOR p) = true →
        w.norRead base len = padTo len img ∧ Told r w 0x10 tag p [w.norField (base + 8) 4, w.norField (base + 12) 4]) ∧
      ((u.proc p).deferTag = none → len ≤ bodyMax + 256 → (len < 256 ∨ w.imageOk p base (u.fld F.BC_FW_SVN_FLOOR p) = false) →
        ∃ v, v = { u with nor := v.nor } ∧ v.slotEmpty (u.otherBank p) p = true ∧ Told r v 0x14 tag p [2]))) ∧
    each (.activate host) 2 (fun r => ∀ x rest, mbMask e = x :: rest →
      let y := u.proc x
      let up := y.run ≠ .dead ∧ y.run ≠ .held
      (¬ up → rest = [] → Told r u 0x14 tag x [1]) ∧
      (up → y.deferTag = none → u.deferReason x = none → rest = [] → Activated r u x tag) ∧
      (up → y.deferTag = none → u.deferReason x = none → u.slotEmpty (u.otherBank x) x = false →
        ∃ t, r = .next t ∧ Restarted u t x 4 ∧ t.fwTodo = rest.map (fun z => (z, tag, true))) ∧
      (up → y.deferTag = none → ∀ k, u.deferReason x = some k → rest = [] →
        ∃ v, Told r v 0x12 tag x [k] ∧ v = { u with procs := v.procs, regs := v.regs } ∧ (v.proc x).deferTag = some tag ∧
          bit (v.fld F.BC_FW_ST_DEFER) x = true)) ∧
    each (.restart host) 3 (fun r => ∀ x rest, mbMask e = x :: rest →
      ((u.proc x).run = .running → ∃ t, r = .next t ∧ Restarted u t x 3 ∧ (t.proc x).tag = some tag ∧
        t.fwTodo = rest.map (fun z => (z, tag, false))) ∧
      ((u.proc x).run = .dead ∨ (u.proc x).run = .held → rest = [] → Told r u 0x14 tag x [1]) ∧
      ((u.proc x).run = .restarting → (u.proc x).tag = none → ∃ t, r = .next t ∧ t.proc x = { u.proc x with tag := some tag } ∧
        t.fwTodo = rest.map (fun z => (z, tag, false)) ∧ t.regs = u.regs ∧ t.mem = u.mem)) ∧
    each (.logRead host) 4 (fun r =>
      let last := u.fld F.LNT_SEQ_SEQ p
      let first := Nat.max (fieldAt e 20 4) (Nat.max 1 (last + 1 - 16384))
      let n := Nat.min (last + 1 - first) (fieldAt e 16 4 / 64)
      let at_ := fun q => u.lntBase p + 64 * ((u.fld F.LNT_HEAD_HEAD p + 16384 - 1 - (last - q)) % 16384)
      (u.flag F.SEC_ST_SEALED = true → Told r u 0x14 tag p [5]) ∧
      (u.flag F.SEC_ST_SEALED = false → n = 0 → Told r u 0x16 tag p [0, 0]) ∧
      (u.flag F.SEC_ST_SEALED = false → n ≠ 0 → Told r
        (u.emit (.hostWrite 0 .n (fieldAt e 8 8) ((upFrom first n).flatMap (fun q => u.bytes (at_ q) 64)))) 0x16 tag p
        [n, first + n - 1]))) ∧
  (∀ (s : State) p, s.UnitsInRange → (s.proc 0).run = .running →
    firstWhere (fun p => s.releasable p) (List.range 5) = some p →
    ∃ u, Activated (exec .activationRelease s) u p ((s.proc p).deferTag.getD 0) ∧ (u.proc p).deferTag = none ∧
      bit (u.fld F.BC_FW_ST_DEFER) p = false ∧ u = { s with procs := u.procs, regs := u.regs })
namespace Sys2Proof.Machine

/-- The limit keeper's registers show its state: each cluster's ceiling, effective point, divider, clock and supply, what is
throttled, and EMERG. -/
def LimitsShown (t : State) : Prop :=
  (∀ k, k < 8 → t.fld F.BC_CL_CEIL k = t.ceilOf k % 16 ∧ t.fld F.BC_CL_EFF k = t.effOf k % 16 ∧ t.fld F.BC_CL_DIV k = t.divOf k ∧
    t.fld F.BC_CL_F_FREQ_MHZ k = t.lk.freq.getD k 0 / t.divOf k % 4096 ∧ t.fld F.BC_CL_F_VOLT_MV k = t.lk.volt.getD k 0 % 4096) ∧
  (∀ k, k < 8 → bit (t.fld F.BC_LK_ST_THROT) k = t.throttled k) ∧
  (∀ d, d < 4 → bit (t.fld F.BC_LK_ST_OC) d = t.lk.oc.getD d false) ∧
  t.flag F.BC_LK_ST_PCAP = t.lk.ceilP.any (fun c => decide (0 < c)) ∧ t.flag F.BC_LK_ST_PWRBRK = !t.pins.pwrbrkN ∧
  (t.flag F.BC_FW_ST_EMERG = true ↔ t.fld F.BC_LK_ST_THROT ≠ 0 ∨ t.fld F.BC_LK_ST_OC ≠ 0 ∨ t.flag F.BC_LK_ST_PWRBRK = true)

/-- The limit keeper moves to the state `l` (but for the time EMERG ended), its registers show it, and a change of throttle,
overcurrent or brake fires MGT's source; memory and all else are the same. -/
def LimitsMove (s t : State) (l : LimitSt) : Prop :=
  t = { s with lk := t.lk, pins := t.pins, regs := t.regs, fires := t.fires, out := t.out, ibiByte := t.ibiByte } ∧
  t.lk = { l with emergOff := t.lk.emergOff } ∧ LimitsShown t ∧
  (t.fld F.BC_LK_ST_THROT ≠ s.fld F.BC_LK_ST_THROT → t.evgPend 0 137 = true) ∧
  (t.fld F.BC_LK_ST_OC ≠ s.fld F.BC_LK_ST_OC → t.evgPend 0 138 = true) ∧
  (t.fld F.BC_LK_ST_PWRBRK ≠ s.fld F.BC_LK_ST_PWRBRK → t.evgPend 0 139 = true)

/-- A counter of the limit keeper has risen by 1, or stands. -/
def Counted (s t : State) (f : Fld) (yes : Prop) : Prop :=
  (yes → t.fld f = Nat.min (s.fld f + 1) f.max) ∧ (¬ yes → t.fld f = s.fld f)

/-- Power cycles of a cluster leave its stores at zero and every other byte of memory as it was. -/
def StoresZero (s t : State) (k : Nat) : Prop :=
  ∀ a, (inCore (2 * k) a ∨ inCore (2 * k + 1) a ∨ inCluster k a → t.byte a = 0) ∧
    (¬ (inCore (2 * k) a ∨ inCore (2 * k + 1) a ∨ inCluster k a) → t.byte a = s.byte a)

end Sys2Proof.Machine

/-- R492 to R495, R498 to R501, R503, R505, R507 and R508. -/
def Obligations.LimitsSleepAndClocksFollowTheirRules : Prop :=
  (∀ (s : State) (k : Fin 8),
    (s.fld F.BC_CL_STATE k.val = 2 → exec (.vfChange k) s = .next s) ∧
    (s.fld F.BC_CL_STATE k.val ≠ 2 → ∃ t, exec (.vfChange k) s = .next t ∧
      LimitsMove s t { s.lk with freq := setAt s.lk.freq k.val (s.pointFV (s.effOf k.val)).1,
                                 volt := setAt s.lk.volt k.val (s.pointFV (s.effOf k.val)).2 })) ∧
  (∀ (s : State) (c : Fin 9),
    let now := s.lk.therm c.val
    let last := s.lk.stepAt.getD c.val 0
    let hot := ∃ i ∈ throttleSensors c.val, 95 ≤ s.tempOf i
    let cool := ∀ i ∈ throttleSensors c.val, s.tempOf i ≤ 93
    let moved := fun (o : Out?) (v : Nat) => ∃ t, o = .next t ∧ Counted s t F.BC_LK_CNT_THERM True ∧
      LimitsMove s t (if c.val < 8 then { s.lk with ceilT := setAt s.lk.ceilT c.val v, stepAt := setAt s.lk.stepAt c.val s.now }
        else { s.lk with ceilS := v, stepAt := setAt s.lk.stepAt c.val s.now })
    (hot → last + usTicks 100 ≤ s.now → now < s.vfUsable - 1 → moved (exec (.thermalThrottleStep c) s) (now + 1)) ∧
    (¬ (hot ∧ last + usTicks 100 ≤ s.now ∧ now < s.vfUsable - 1) → exec (.thermalThrottleStep c) s = .next s) ∧
    (cool → last + msTicks 1 ≤ s.now → 0 < now → moved (exec (.thermalReleaseStep c) s) (now - 1)) ∧
    (¬ (cool ∧ last + msTicks 1 ≤ s.now ∧ 0 < now) → exec (.thermalReleaseStep c) s = .next s)) ∧
  (∀ (s : State) (k : Fin 8),
    let on := s.lk.fast.getD k.val false
    let turns := fun (b : Bool) => ∃ t, exec (.thermalFast k) s = .next t ∧
      LimitsMove s t { s.lk with fast := setAt s.lk.fast k.val b }
    (on = false → 100 ≤ s.tempOf k.val → turns true) ∧ (on = true → s.tempOf k.val < 98 → turns false) ∧
    (on = false → s.tempOf k.val < 100 → exec (.thermalFast k) s = .next s) ∧
    (on = true → 98 ≤ s.tempOf k.val → exec (.thermalFast k) s = .next s)) ∧
  (∀ (s : State) (d : Fin 4) amps,
    let on := s.lk.oc.getD d.val false
    (400 < amps → s.boot.island = true → ∃ t, exec (.railCurrentLimit d amps) s = .next t ∧
      Counted s t F.BC_LK_CNT_OC (on = false) ∧
      t.fld F.BC_RAIL_PEAK d.val = Nat.max (s.fld F.BC_RAIL_PEAK d.val) (Nat.min amps 1023) ∧
      LimitsMove s t { s.lk with oc := setAt s.lk.oc d.val true, ocSince := setAt s.lk.ocSince d.val s.now }) ∧
    (amps ≤ 400 ∨ s.boot.island = false → exec (.railCurrentLimit d amps) s = .next s) ∧
    (on = true → s.lk.ocSince.getD d.val 0 + usTicks 100 ≤ s.now → ∃ t, exec (.railCurrentRelease d) s = .next t ∧
      LimitsMove s t { s.lk with oc := setAt s.lk.oc d.val false }) ∧
    (on = false → exec (.railCurrentRelease d) s = .next s)) ∧
  (∀ (s : State),
    let uj := s.lk.winUJ
    let l := { s.lk with winNo := s.now / msTicks 1, winUJ := 0, winCl := List.replicate 8 0, lastUJ := uj, lastCl := s.lk.winCl }
    let nine := uj < 2520000 ∧ 9 ≤ s.lk.below
    let caps := if 2800000 < uj then s.capDown else if nine then s.lk.ceilP.map (· - 1) else s.lk.ceilP
    let below := if 2800000 < uj ∨ 2520000 ≤ uj ∨ nine then 0 else s.lk.below + 1
    (s.now / msTicks 1 ≤ s.lk.winNo → exec .packagePowerWindow s = .next s) ∧
    (s.lk.winNo < s.now / msTicks 1 → ∃ t, exec .packagePowerWindow s = .next t ∧
      t.fld F.BC_PKG_PWR_WATTS = Nat.min (uj / 1000) 65535 ∧
      (∀ k, k < 8 → t.fld F.BC_CL_T_WATTS k = Nat.min (s.lk.winCl.getD k 0 / 1000) 65535) ∧
      Counted s t F.BC_LK_CNT_PCAP (caps ≠ s.lk.ceilP) ∧ LimitsMove s t { l with ceilP := caps, below := below })) ∧
  (∀ (s : State),
    (s.pins.pwrbrkN = true → ∃ t, exec .pwrbrkNAssert s = .next t ∧ t.pins = { s.pins with pwrbrkN := false } ∧
      Counted s t F.BC_LK_CNT_BRAKE True ∧ LimitsMove s t s.lk ∧ ∀ k, k < 8 → t.fld F.BC_CL_DIV k = 4) ∧
    (s.pins.pwrbrkN = false → exec .pwrbrkNAssert s = .next s ∧
      ∃ t, exec .pwrbrkNDeassert s = .next t ∧ t.pins = { s.pins with pwrbrkN := true } ∧ LimitsMove s t s.lk) ∧
    (s.pins.pwrbrkN = true → exec .pwrbrkNDeassert s = .next s)) ∧
  (∀ (s : State) (temps amps cl : List Nat) uj,
    let due := s.boot.island = true ∧ ∀ a, s.lk.sampleAt = some a → a + usTicks 10 ≤ s.now
    let c := Instr.telemetrySample temps amps uj cl
    (¬ due → exec c s = .next s) ∧
    (due → ∃ t, exec c s = .next t ∧
      (∀ k, k < 8 → t.fld F.BC_CL_T_TEMP k = temps.getD k 0 % 256) ∧ (∀ i, i < 22 → t.tempOf i = temps.getD i 0) ∧
      (∀ d, d < 4 → t.fld F.BC_RAIL_AMPS d = Nat.min (amps.getD d 0) 1023 ∧
        t.fld F.BC_RAIL_PEAK d = Nat.max (s.fld F.BC_RAIL_PEAK d) (Nat.min (amps.getD d 0) 1023)) ∧
      t.energy = s.energy + BitVec.ofNat 64 ((s.energyRem + uj) / 1000) ∧ t.energyRem = (s.energyRem + uj) % 1000 ∧
      t.lk.winUJ = s.lk.winUJ + uj ∧ t.lk.sampleAt = some s.now ∧
      t = { s with regs := t.regs, lk := t.lk, energy := t.energy, energyRem := t.energyRem })) ∧
  (∀ (s : State), (s.proc 0).run = .running →
    let l := { s.lk with mgtNo := s.now / msTicks 1 }
    (s.now / msTicks 1 ≤ s.lk.mgtNo → exec .mgtWindow s = .next s) ∧
    (s.lk.mgtNo < s.now / msTicks 1 → s.flag F.BC_PWR_PWR_HELD = true → exec .mgtWindow s = .next { s with lk := l }) ∧
    (s.lk.mgtNo < s.now / msTicks 1 → s.flag F.BC_PWR_PWR_HELD = false → ∃ t, exec .mgtWindow s = .next t ∧
      (∀ k, k < 8 → t.fld F.BC_CL_REQ k = s.requestPoint k % 16) ∧ LimitsMove s t l)) ∧
  (∀ (s : State) (k : Fin 8),
    let us := Nat.max (s.fld F.BC_SLEEP_X_DOZE_IDLE_US) 1
    (∀ a, s.fld F.BC_CL_STATE k.val = 0 → s.flag F.BC_SLEEP_X_DOZE_EN = true → s.slp.idleAt.getD k.val none = some a →
      a + usTicks us ≤ s.now → s.clIdle k.val = true → s.rampingDown k.val = false →
      ∃ t, exec (.dozeEntry k) s = .next t ∧ t.fld F.BC_CL_STATE k.val = 1 ∧ t.fld F.CL_PST_STATE k.val = 1 ∧
        t.fld F.CL_DOZES_COUNT k.val = (s.fld F.CL_DOZES_COUNT k.val + 1) % (F.CL_DOZES_COUNT.max + 1) ∧
        RegsOnly { s with slp := { s.slp with dozeAt := setAt s.slp.dozeAt k.val s.now } } t
          [F.BC_CL_STATE.off k.val, F.CL_PST_STATE.off k.val, F.CL_DOZES_COUNT.off k.val]) ∧
    (s.flag F.BC_SLEEP_X_DOZE_EN = false → exec (.dozeEntry k) s = .next s) ∧
    (s.fld F.BC_CL_STATE k.val = 1 → ∃ t, exec (.dozeExit k) s = .next t ∧ t.fld F.BC_CL_STATE k.val = 0 ∧
      t.fld F.CL_PST_STATE k.val = 0 ∧ k.val ∉ t.wakeReq ∧
      RegsOnly { s with wakeReq := t.wakeReq } t (F.BC_CL_STATE.off k.val :: F.CL_PST_STATE.off k.val ::
        ((List.range 6).flatMap (fun sl => [F.CO_STN_ASLEEP_COUNT.off (2 * k.val) sl, F.CO_STN_ASLEEP_COUNT.off (2 * k.val + 1) sl])))) ∧
    (s.fld F.BC_CL_STATE k.val ≠ 1 → exec (.dozeExit k) s = .next s)) ∧
  (∀ (s : State) (k : Fin 8), s.UnitsInRange → (s.proc 0).run = .running →
    let ms := Nat.max (s.fld F.BC_SLEEP_X_BIV_IDLE_MS) 1
    let epoch := fun (u : State) (n : Nat) => if n % 2 = 0 then u.fld F.CL_WEP0_EPOCH (n / 2) else u.fld F.CL_WEP1_EPOCH (n / 2)
    (∀ a, s.fld F.BC_CL_STATE k.val ≠ 2 → s.flag F.BC_SLEEP_X_BIV_EN = true → s.slp.unboundAt.getD k.val none = some a →
      a + msTicks ms ≤ s.now → s.clBound k.val = false → s.poolStuck k.val = false →
      ∃ t, exec (.bivouacEntry k) s = .next t ∧ t.fld F.BC_CL_STATE k.val = 2 ∧ StoresZero s t k.val ∧ LimitsShown t ∧
        t.lk.freq = setAt s.lk.freq k.val 0 ∧ (∀ b ∈ t.pool, b.place ≠ .cluster k.val) ∧
        (∀ r i j, regAt (r.addr i j) = some (r, i, j) → lostWith k.val r i = true → (∀ fd ∈ r.fields, fd.ret = false) →
          t.rd r i j = r.resetWord i j) ∧
        ∀ n, n < 16 → epoch t n = epoch s n) ∧
    (s.flag F.BC_SLEEP_X_BIV_EN = false ∨ s.clBound k.val = true → exec (.bivouacEntry k) s = .next s) ∧
    (s.fld F.BC_CL_STATE k.val = 2 → k.val ∈ s.wakeReq → ∃ t, exec (.bivouacExit k) s = .next t ∧
      t.fld F.BC_CL_STATE k.val = 0 ∧ StoresZero s t k.val ∧ LimitsShown t ∧ k.val ∉ t.wakeReq ∧
      t.lk.freq = setAt s.lk.freq k.val (s.pointFV (s.effOf k.val)).1 ∧
      t.lk.volt = setAt s.lk.volt k.val (s.pointFV (s.effOf k.val)).2 ∧
      (∀ n ∈ [2 * k.val, 2 * k.val + 1], epoch t n = (epoch s n + 1) % (F.CL_WEP0_EPOCH.max + 1))) ∧
    (s.fld F.BC_CL_STATE k.val ≠ 2 ∨ k.val ∉ s.wakeReq → exec (.bivouacExit k) s = .next s)) ∧
  (∀ (s : State), (s.proc 0).run = .running →
    let due := s.flag F.BC_SLEEP_X_SR_EN = true ∧ (∃ a, s.slp.allBiv = some a ∧ a + msTicks 1 ≤ s.now) ∧
      (∀ k, k < 8 → s.fld F.BC_CL_STATE k = 2) ∧ s.hbmLast + msTicks 1 ≤ s.now
    let offs := F.BC_PWR_ST_HBM_SR.off :: (List.range 8).map (fun h => F.HBM_STATUS_SELFREF.off h)
    (due → ∃ t, exec .selfRefreshEntry s = .next t ∧ t.flag F.BC_PWR_ST_HBM_SR = true ∧
      (∀ h, h < 8 → t.flag F.HBM_STATUS_SELFREF h = true) ∧ RegsOnly s t offs) ∧
    (¬ due → exec .selfRefreshEntry s = .next s) ∧
    (s.flag F.BC_PWR_ST_HBM_SR = true → ∃ t, exec .selfRefreshExit s = .next t ∧ t.flag F.BC_PWR_ST_HBM_SR = false ∧
      (∀ h, h < 8 → t.flag F.HBM_STATUS_SELFREF h = false) ∧ RegsOnly { s with hbmLast := s.now } t offs) ∧
    (s.flag F.BC_PWR_ST_HBM_SR = false → exec .selfRefreshExit s = .next { s with hbmLast := s.now }))
namespace Sys2Proof.Machine

/-- What a reset of every domain but Base Camp leaves (R526, Table 20.7): memory, units, jobs and queues are as after
power-up, clusters are in bivouac, FAB, STO and CMD are held; time, the boot store, the keys of the device and the sources of
MGT and SEC stay. -/
def DomainsReset (s t : State) : Prop :=
  (∀ a, t.byte a = 0) ∧ t.cores = .empty ∧ t.job = none ∧ t.sect = none ∧ t.saved = [] ∧ t.streams = [] ∧ t.fetched = [] ∧ t.arbs = [] ∧
  t.faults = [] ∧ t.pool = [] ∧ t.fabIn = [] ∧ t.node = [] ∧ t.xfers = [] ∧ t.ckpt = none ∧ t.snap = none ∧
  (∀ k, k < 8 → t.fld F.BC_CL_STATE k = 2) ∧ t.flag F.BC_BOOT_ST_READY = false ∧ t.fld F.BC_BOOT_ST_FAIL = 0 ∧
  (∀ p, p < 2 → t.proc p = s.proc p) ∧ (∀ p, 2 ≤ p → (t.proc p).run = .held) ∧
  (∀ r i j, regAt (r.addr i j) = some (r, i, j) → inDomain1 r i = false → r ∉ regsOfEvg → (∀ fd ∈ r.fields, fd.ret = false) →
    t.rd r i j = r.resetWord i j) ∧
  t.sec.hbmS = [] ∧ t.sec.flashS = [] ∧ t.sec.jobKeys = [] ∧ t.sec.seed = s.sec.seed ∧ t.sec.hbmN = s.sec.hbmN ∧
  t.lcnt = s.lcnt ∧ t.nor = s.nor ∧ t.energy = s.energy ∧ t.pending = s.pending ∧ t.sto.blocks = s.sto.blocks

/-- A bank of retained state is written: the losing one holds the image with the next number, and wins. -/
def BankWritten (s t : State) : Prop :=
  let img := retBank s.nextSeq s.retImage
  (img.length ≤ retSize → t.norRead (retBase s.loser) img.length = img) ∧ t.boot.winner = some s.loser ∧ t.boot.retNow = false ∧
    t.fld F.BC_RET_SEQ_LO_SEQ = s.nextSeq % 4294967296 ∧
    t.fld F.BC_RET_WR_WRITES = Nat.min (s.fld F.BC_RET_WR_WRITES + 1) F.BC_RET_WR_WRITES.max ∧ t.mem = s.mem

/-- A bank write that the NOR fails leaves the losing bank erased and the winner as it was. -/
def BankErased (s t : State) : Prop :=
  t.norRead (retBase s.loser) retSize = List.replicate retSize 255 ∧ t.boot.winner = s.boot.winner

/-- The stall counters of a station (R197). -/
def stallCounters : List Fld := [F.CO_STN_BUSY_COUNT, F.CO_STN_BLOCKED_COUNT, F.CO_STN_STARVED_COUNT, F.CO_STN_ASLEEP_COUNT]

end Sys2Proof.Machine

/-- R502, R513, R516, R517, R519, R520, R522, R526, R535, R551 and R556. -/
def Obligations.StartUpResetsAndPinsFollowTheirRules : Prop :=
  (∀ (s : State) (asel : Fin 4),
    (s.boot.island = true → exec (.islandPowerUp asel) s = .next s) ∧
    (s.boot.island = false → ∃ t, exec (.islandPowerUp asel) s = .next t ∧ t.boot = {} ∧ t.lcnt = 0 ∧ (∀ a, t.byte a = 0) ∧
      t.pins = { s.pins with asel := asel.val } ∧ t.fld F.BC_I3C_ASEL = asel.val ∧ t.fld F.BC_I3C_SADDR = 0x54 + asel.val ∧
      t.nor = s.nor ∧ t.sto = s.sto ∧ t.pending = s.pending ∧ LimitsShown t)) ∧
  (∀ (s : State),
    (s.boot.island = false → exec .islandPowerLoss s = .next s) ∧
    (s.boot.island = true → ∃ t, exec .islandPowerLoss s = .next t ∧ t.boot.island = false ∧ t.regs = .empty ∧ t.mem = .empty ∧
      t.nor = s.nor ∧ t.sto.blocks = s.sto.blocks ∧ t.pins = s.pins ∧ t.pending = s.pending ∧ t.out = s.out ∧ t.job = none ∧
      t.procs = .empty ∧ t.sec = {})) ∧
  (∀ (s : State),
    (s.pins.perstN = false → exec .perstNAssert s = .next s) ∧
    (s.pins.perstN = true → s.boot.island = false → exec .perstNAssert s = .next { s with pins := { s.pins with perstN := false } }) ∧
    (s.pins.perstN = true → s.boot.island = true →
      ∃ t, exec .perstNAssert s = .next t ∧ t.pins = { s.pins with perstN := false } ∧ DomainsReset s t)) ∧
  (∀ (s : State) (b : StartIn),
    let c := Instr.perstNDeassert b
    let good := s.fld F.BC_RAIL_GOOD_GOOD = 0x1FFF ∧ s.flag F.BC_LK_ST_TRIP = false
    (s.pins.perstN = true ∨ s.boot.island = false → exec c s = .next s) ∧
    (s.pins.perstN = false → s.boot.island = true → ¬ good →
      exec c s = .next { s with pins := { s.pins with perstN := true }, boot := { s.boot with railHold := true } }) ∧
    (Instr.wf c = true → s.pins.perstN = false → s.boot.island = true → good → ∃ t, exec c s = .next t ∧ t.pins = { s.pins with perstN := true } ∧
      t.boot.cold = false ∧ t.boot.railHold = false ∧ t.boot.stage1 = s.now ∧ t.pending = s.pending ∧
      (t.fld F.BC_BOOT_ST_FAIL ≠ 0 → (t.fld F.BC_BOOT_ST_STAGE, t.fld F.BC_BOOT_ST_FAIL) ∈ [(2, 1), (2, 2), (4, 3), (4, 4), (5, 4), (5, 5)]) ∧
      (t.fld F.BC_BOOT_ST_FAIL = 0 → b.norOk = true ∧ b.hbmOk = true ∧ b.slicesOk = true ∧ b.rowsOk = true ∧ t.fld F.BC_BOOT_ST_STAGE = 6 ∧
        t.boot.bistOk = true ∧ (∀ p, p < 5 → (t.proc p).run = .running) ∧
        (∀ h, h < 8 → t.flag F.HBM_STATUS_READY h = true) ∧ t.flag F.STO_ST_READY = true) ∧
      (b.norOk = false → t.fld F.BC_BOOT_ST_STAGE = 2 ∧ t.fld F.BC_BOOT_ST_FAIL = 2))) ∧
  (∀ (s : State) (r : Fin 13),
    (s.boot.island = false → exec (.railGood r) s = .next s ∧ exec (.railLost r) s = .next s) ∧
    (s.boot.island = true → (∃ t, exec (.railGood r) s = .next t ∧ bit (t.fld F.BC_RAIL_GOOD_GOOD) r.val = true ∧
        (∀ i, i < 13 → i ≠ r.val → bit (t.fld F.BC_RAIL_GOOD_GOOD) i = bit (s.fld F.BC_RAIL_GOOD_GOOD) i) ∧
        RegsOnly s t [F.BC_RAIL_GOOD_GOOD.off]) ∧
      ∃ t, exec (.railLost r) s = .next t ∧ bit (t.fld F.BC_RAIL_GOOD_GOOD) r.val = false ∧
        (s.pins.perstN = false → RegsOnly s t [F.BC_RAIL_GOOD_GOOD.off]) ∧
        (s.pins.perstN = true → bit (t.rd .BC_RAIL_ST).toNat r.val = true ∧ t.boot.railHold = true ∧ DomainsReset s t))) ∧
  (∀ (s : State),
    let trips := (∃ i, i < 14 ∧ 110 ≤ s.tempOf i) ∧ s.flag F.BC_LK_ST_TRIP = false
    (trips → ∃ t, exec .thermalTrip s = .next t ∧ t.flag F.BC_LK_ST_TRIP = true ∧ DomainsReset s t) ∧
    (¬ trips → exec .thermalTrip s = .next s)) ∧
  (∀ (s : State),
    let up := s.inReset = false ∧ s.boot.bistOk = true ∧ s.fld F.BC_BOOT_ST_FAIL = 0 ∧ s.flag F.BC_BOOT_ST_READY = false ∧
      s.fld F.HIF_ST_WIDTH ≠ 0 ∧ (∀ p, p < 6 → s.fld F.IKF_PST_STATE p ≠ 1) ∧ (s.proc 0).run ≠ .dead ∧ (s.proc 1).run ≠ .dead
    let late := s.inReset = false ∧ s.fld F.HIF_ST_WIDTH = 0 ∧ s.fld F.BC_BOOT_ST_FAIL = 0 ∧ s.flag F.BC_BOOT_ST_READY = false ∧
      s.boot.stage1 + msTicks 1000 ≤ s.now
    let waited := s.boot.bistOk = true ∧ s.flag F.BC_BOOT_ST_READY = false ∧
      s.boot.stage6 + msTicks (Nat.max (s.fld F.BC_BOOT_X_FAB_WAIT_MS) 1) ≤ s.now
    (up → ∃ t, exec .ready s = .next t ∧ t.flag F.BC_BOOT_ST_READY = true ∧ t.fld F.BC_BOOT_ST_STAGE = 7 ∧
      t.fld F.BC_READY_T_TICKS = Nat.min (s.now - s.boot.stage1) 0xFFFFFFFF ∧
      RegsOnly s t [F.BC_BOOT_ST_READY.off, F.BC_READY_T_TICKS.off]) ∧
    (¬ up → exec .ready s = .next s) ∧
    (waited → ∃ t, exec .fabWaitExpiry s = .next t ∧
      (∀ p, p < 6 → t.fld F.IKF_PST_STATE p = if s.fld F.IKF_PST_STATE p = 1 then 0 else s.fld F.IKF_PST_STATE p) ∧
      RegsOnly s t ((List.range 6).map (fun p => F.IKF_PST_STATE.off p))) ∧
    (¬ waited → exec .fabWaitExpiry s = .next s) ∧
    (late → ∃ t, exec .pcieLinkTimeout s = .next t ∧ t.fld F.BC_BOOT_ST_FAIL = 6 ∧
      RegsOnly { s with out := t.out, ibiByte := t.ibiByte } t [F.BC_BOOT_ST_FAIL.off]) ∧
    (¬ late → exec .pcieLinkTimeout s = .next s) ∧
    (∃ t, exec .pcieLinkDown s = .next t ∧ t.fld F.HIF_ST_WIDTH = 0 ∧ BitsKept s t F.HIF_ST_WIDTH ∧
      RegsOnly s t [F.HIF_ST_WIDTH.off]) ∧
    (∀ (w : Fin 3) (rate : Fin 7) flit,
      (s.inReset = true ∨ s.fld F.HIF_ST_WIDTH ≠ 0 → exec (.pcieLinkUp w rate flit) s = .next s) ∧
      (s.inReset = false → s.fld F.HIF_ST_WIDTH = 0 → ∃ t, exec (.pcieLinkUp w rate flit) s = .next t ∧
        t.fld F.HIF_ST_WIDTH = 16 / 2 ^ w.val ∧ t.fld F.HIF_ST_RATE = rate.val ∧ t.flag F.HIF_ST_FLIT = flit ∧
        (s.fld F.BC_BOOT_ST_FAIL = 6 → t.fld F.BC_BOOT_ST_FAIL = 0) ∧
        (s.fld F.BC_BOOT_ST_FAIL ≠ 6 → RegsOnly s t [F.HIF_ST_WIDTH.off])))) ∧
  (∀ (s : State) err, (s.proc 0).run = .running →
    let due := s.boot.retNow = true ∨
      ∀ a, s.boot.lastWrite = some a → a + msTicks 60000 * Nat.max (s.fld F.BC_BOOT_X_WR_MIN) 1 ≤ s.now
    (s.boot.retryAt = none → due → s.retDiffers = true → ∃ t, exec (.retainedBankWrite err) s = .next t ∧
      t.boot.lastWrite = some s.now ∧ (err = false → BankWritten s t ∧ t.boot.retryAt = none) ∧
      (err = true → BankErased s t ∧ t.boot.retryAt = some s.now)) ∧
    (s.boot.retryAt ≠ none ∨ ¬ due ∨ s.retDiffers = false → exec (.retainedBankWrite err) s = .next s) ∧
    (s.boot.retryAt = none → exec (.norWriteRetry err) s = .next s) ∧
    (∀ a, s.boot.retryAt = some a → (s.now < a + msTicks 1000 → exec (.norWriteRetry err) s = .next s) ∧
      (a + msTicks 1000 ≤ s.now → ∃ t, exec (.norWriteRetry err) s = .next t ∧ t.boot.retryAt = none ∧
        (err = false → BankWritten s t) ∧ (err = true → BankErased s t ∧ t.flag F.BC_BOOT_ST_WR_FAIL = true)))) ∧
  (∀ (s : State) (n : Fin 16) reps un0 un1 hard, s.UnitsInRange → (s.proc 0).run = .running →
    let e := 2 * n.val
    let bad := un0 = true ∨ un1 = true ∨ hard = true
    (s.flag F.ME_STATUS_CORE_FENCED e = false → exec (.coreTested n reps un0 un1 hard) s = .next s) ∧
    (s.flag F.ME_STATUS_CORE_FENCED e = true → ∃ t, exec (.coreTested n reps un0 un1 hard) s = .next t ∧
      t.fld F.CMD_FLT_LOG_CODE = 0x23 ∧
      (un0 = true → t.flag F.ME_STATUS_UNAVAIL e = true) ∧ (un1 = true → t.flag F.ME_STATUS_UNAVAIL (e + 1) = true) ∧
      (bad → bit (t.fld F.BC_BOOT_UNAV_CORE) n.val = true ∧ t.flag F.ME_STATUS_CORE_FENCED e = true) ∧
      (¬ bad → t.flag F.ME_STATUS_CORE_FENCED e = false ∧ t.flag F.ME_STATUS_CORE_FENCED (e + 1) = false ∧
        (s.job = none → n.val ∉ t.fenced))))

/-- R32, R197, R287, R463, R551 and R558 to R560. -/
def Obligations.SidebandTapAndClocksStep : Prop :=
  (∀ (s : State), s.boot.island = true →
    (s.i3cServed = true → ∃ t, exec .i3cPrivateRead s = .next t ∧ t.out = s.out ++ [.readData (leBytes 4 (s.rd .BC_BOOT_ST).toNat
        ++ leBytes 4 (s.rd .BC_FW_ST).toNat ++ leBytes 4 (s.rd .BC_LK_ST).toNat
        ++ [BitVec.ofNat 8 s.alertByte, BitVec.ofNat 8 (s.fld F.BC_TJ_MAX_TEMP), 0, 0])] ∧
      t.evgPend 0 140 = true ∧ t = { s with out := t.out, regs := t.regs, fires := t.fires }) ∧
    (s.i3cServed = false → exec .i3cPrivateRead s = .next { s with out := s.out ++ [.nack] })) ∧
  (∀ (s : State) (addr : Fin 128),
    (s.i3cServed = true → ∃ t, exec (.i3cAddressAssign addr) s = .next t ∧ t.flag F.BC_I3C_DYN = true ∧
      t.fld F.BC_I3C_DADDR = addr.val ∧ RegsOnly s t [F.BC_I3C_DYN.off]) ∧
    (s.i3cServed = false → exec (.i3cAddressAssign addr) s = .next s)) ∧
  (∀ (s : State) (op : TapOp),
    let pins := fun (ir : Nat) => { s.pins with trstN := true, tap := ir }
    let shown := fun (u : State) (xs : List Bool) => if s.inReset then u else { u with out := s.out ++ [.tdo xs] }
    (s.boot.island = false → exec (.jtagTapAccess op) s = .next s) ∧
    (s.boot.island = true →
      (op = .idcode → exec (.jtagTapAccess op) s = .next (shown { s with pins := pins 0 } ((List.range 32).map (bit 0x1539096F)))) ∧
      (∀ data, op = .bypass data →
        exec (.jtagTapAccess op) s = .next (shown { s with pins := pins 1 } ((false :: data).take data.length))) ∧
      (∀ n, op = .boundary n →
        (s.fld F.SEC_DBG_JTAG_MODE = 0 ∨ s.fld F.SEC_DBG_JTAG_MODE = 3 →
          exec (.jtagTapAccess op) s = .next (shown { s with pins := pins 1 } ((List.replicate (n + 1) false).take n))) ∧
        (s.fld F.SEC_DBG_JTAG_MODE = 1 ∨ s.fld F.SEC_DBG_JTAG_MODE = 2 → ∃ xs : List Bool, xs.length = n ∧
          exec (.jtagTapAccess op) s = .next (shown { s with pins := pins 2, freeIx := s.freeIx + n } xs))) ∧
      (op = .debug →
        (s.fld F.SEC_DBG_JTAG_MODE = 2 → exec (.jtagTapAccess op) s = .refused .debugUnit) ∧
        (s.fld F.SEC_DBG_JTAG_MODE ≠ 2 → exec (.jtagTapAccess op) s = .next (shown { s with pins := pins 1 } []))))) ∧
  (∀ (s : State), exec .trstNAssert s = .next { s with pins := { s.pins with trstN := false, tap := 0 } }) ∧
  (∀ (s : State),
    (s.boot.island = false → exec .localCounterTick s = .next s) ∧
    (s.boot.island = true → ∃ t, exec .localCounterTick s = .next t ∧ t.lcnt = s.lcnt + 1 ∧
      RegsOnly { s with lcnt := t.lcnt, slp := t.slp, out := t.out, ibiByte := t.ibiByte, freeIx := t.freeIx } t
        ((List.range 8).map (fun k => F.CL_PST_IDLE.off k) ++ ((List.range 8).filter (fun h =>
          s.flag F.HBM_STATUS_READY h && !s.flag F.HBM_STATUS_SELFREF h)).flatMap (fun h => slotCounters.map (fun f => f.off h))))) ∧
  (∀ (s : State) (k : Fin 8) errs,
    (s.fld F.BC_CL_STATE k.val ≠ 0 → exec (.clusterClockCycle k errs) s = .next s) ∧
    (s.fld F.BC_CL_STATE k.val = 0 → s.UnitsInRange →
      (∀ x ∈ errs, x.bad = false) → ∃ t, exec (.clusterClockCycle k errs) s = .next t ∧ t.mem = s.mem ∧
        (errs.length = 1 → t.fld F.CL_ECC_CE_COUNT k.val = Nat.min (s.fld F.CL_ECC_CE_COUNT k.val + 1) F.CL_ECC_CE_COUNT.max) ∧
        (∀ n sl x, n / 2 = k.val → sl < 6 → s.stn? n sl = some x →
          (∃ y, t.stn? n sl = some y ∧ y = { x with acted := false }) ∧
          (s.flag F.CO_CNT_X_STN_EN n = false → ∀ f ∈ stallCounters, t.fld f n sl = s.fld f n sl) ∧
          (s.flag F.CO_CNT_X_STN_EN n = true → ∃ f ∈ stallCounters, t.fld f n sl = (s.fld f n sl + 1) % 4294967296 ∧
            ∀ g ∈ stallCounters, g ≠ f → t.fld g n sl = s.fld g n sl))))
namespace Sys2Proof.Machine

/-- The invariant of the machine: units that streams, the section and waiting work name lie on the device, and memory is in
its canonical form. -/
abbrev State.Inv (s : State) : Prop := s.UnitsInRange ∧ Memory.wf s.mem = true

end Sys2Proof.Machine

/-- Commands act one at a time, in the order they came. The idle step is the model's choice. -/
def Obligations.StepRunsTheFrontCommand : Prop :=
  (∀ (c : Instr) (rest : List Instr) (s : State), step { s with pending := c :: rest } = exec c { s with pending := rest }) ∧
    ∀ s : State, step { s with pending := [] } = .next { s with pending := [] }

/-- R32, over every command. -/
def Obligations.LocalCounterCountsAndNothingElseMovesIt : Prop :=
  (∀ (c : Instr) (s t : State), exec c s = .next t → s.boot.island = true → c ≠ .islandPowerLoss →
    (c = .localCounterTick → t.lcnt = s.lcnt + 1) ∧ (c ≠ .localCounterTick → t.lcnt = s.lcnt)) ∧
  (∀ s : State, s.boot.island = true → ∃ t, exec .localCounterTick s = .next t ∧ t.lcnt.toNat = (s.lcnt.toNat + 1) % 2 ^ 64) ∧
  (∀ (s : State) asel, s.boot.island = false → ∃ t, exec (.islandPowerUp asel) s = .next t ∧ t.lcnt = 0) ∧ State.reset.lcnt = 0

/-- The invariant of the model, over every command and state. -/
def Obligations.EveryStepKeepsTheInvariant : Prop :=
  ∀ s t : State, s.Inv → step s = .next t → t.Inv ∧ t.pending = s.pending.tail

/-- R8 and Table 20.7's first column. -/
def Obligations.ResetLeavesEveryRegisterAtItsColumn : Prop :=
  (∀ r i j, State.reset.rd r i j = r.resetWord i j) ∧ (∀ a, State.reset.byte a = 0) ∧ State.reset.Inv ∧
  State.reset.pending = [] ∧ State.reset.lcnt = 0 ∧ State.reset.job = none ∧ State.reset.sect = none ∧ State.reset.streams = [] ∧
  State.reset.node = [] ∧ State.reset.fabIn = [] ∧ (∀ p, (State.reset.proc p).run = .held) ∧
  (∀ k, k < 8 → State.reset.fld F.BC_CL_STATE k = 2) ∧ State.reset.pins.perstN = false ∧
  State.reset.flag F.BC_BOOT_ST_READY = false ∧ State.reset.fld F.BC_BOOT_ST_FAIL = 0 ∧
  State.reset.fld F.BC_PWR_X_BUDGET_W = 0xAF0
end

