-- ==== Sys2Proof/Laws/Bits.lean ====
section
/-! SUPPORT. What a field of a value reads after a field is written. -/

namespace Sys2Proof.Machine

theorem putBits_low (v h l x : Nat) (hl : l ≤ h) :
    putBits v h l x = v / 2 ^ (h + 1) * 2 ^ (h + 1) + (x % 2 ^ (h + 1 - l) * 2 ^ l + v % 2 ^ l) ∧
      x % 2 ^ (h + 1 - l) * 2 ^ l + v % 2 ^ l < 2 ^ (h + 1) := by
  refine ⟨by simp [putBits, Nat.add_assoc], ?_⟩
  have h1 : 2 ^ (h + 1) = 2 ^ (h + 1 - l) * 2 ^ l := by rw [← Nat.pow_add]; congr 1; omega
  have h2 : x % 2 ^ (h + 1 - l) < 2 ^ (h + 1 - l) := Nat.mod_lt _ (Nat.two_pow_pos _)
  have h3 : v % 2 ^ l < 2 ^ l := Nat.mod_lt _ (Nat.two_pow_pos _)
  rw [h1]
  calc x % 2 ^ (h + 1 - l) * 2 ^ l + v % 2 ^ l < x % 2 ^ (h + 1 - l) * 2 ^ l + 2 ^ l := by omega
    _ = (x % 2 ^ (h + 1 - l) + 1) * 2 ^ l := by rw [Nat.add_mul, Nat.one_mul]
    _ ≤ 2 ^ (h + 1 - l) * 2 ^ l := Nat.mul_le_mul_right _ h2

/-- A field reads what was last written to it. -/
theorem bits_putBits_same (v h l x : Nat) (hl : l ≤ h) : bits (putBits v h l x) h l = x % 2 ^ (h + 1 - l) := by
  obtain ⟨e, b⟩ := putBits_low v h l x hl
  have h3 : v % 2 ^ l < 2 ^ l := Nat.mod_lt _ (Nat.two_pow_pos _)
  have h1 : 2 ^ (h + 1) = 2 ^ l * 2 ^ (h + 1 - l) := by rw [← Nat.pow_add]; congr 1; omega
  have e2 : putBits v h l x = v % 2 ^ l + 2 ^ l * (x % 2 ^ (h + 1 - l) + 2 ^ (h + 1 - l) * (v / 2 ^ (h + 1))) := by
    rw [e, h1]
    generalize v / (2 ^ l * 2 ^ (h + 1 - l)) = a
    simp only [Nat.mul_add, Nat.mul_comm, Nat.mul_left_comm, Nat.add_comm, Nat.add_left_comm]
  rw [bits, e2, Nat.add_mul_div_left _ _ (Nat.two_pow_pos l), Nat.div_eq_of_lt h3, Nat.zero_add, Nat.add_mul_mod_self_left,
    Nat.mod_mod]

/-- A field above the one written is as it was. -/
theorem bits_putBits_above (v h l x h' l' : Nat) (hl : l ≤ h) (hd : h < l') : bits (putBits v h l x) h' l' = bits v h' l' := by
  obtain ⟨e, b⟩ := putBits_low v h l x hl
  have key : putBits v h l x / 2 ^ (h + 1) = v / 2 ^ (h + 1) := by
    rw [e, Nat.mul_comm, Nat.mul_add_div (Nat.two_pow_pos _), Nat.div_eq_of_lt b, Nat.add_zero]
  have hp : 2 ^ l' = 2 ^ (h + 1) * 2 ^ (l' - (h + 1)) := by rw [← Nat.pow_add]; congr 1; omega
  simp only [bits, hp, ← Nat.div_div_eq_div_mul, key]

/-- A field below the one written is as it was. -/
theorem bits_putBits_below (v h l x h' l' : Nat) (hl : l ≤ h) (hh : l' ≤ h') (hd : h' < l) :
    bits (putBits v h l x) h' l' = bits v h' l' := by
  obtain ⟨e, b⟩ := putBits_low v h l x hl
  have key : putBits v h l x % 2 ^ l = v % 2 ^ l := by
    have h1 : 2 ^ (h + 1) = 2 ^ l * 2 ^ (h + 1 - l) := by rw [← Nat.pow_add]; congr 1; omega
    rw [e, h1, show v / (2 ^ l * 2 ^ (h + 1 - l)) * (2 ^ l * 2 ^ (h + 1 - l)) + (x % 2 ^ (h + 1 - l) * 2 ^ l + v % 2 ^ l)
      = v % 2 ^ l + 2 ^ l * (2 ^ (h + 1 - l) * (v / (2 ^ l * 2 ^ (h + 1 - l))) + x % 2 ^ (h + 1 - l)) from by
        generalize v / (2 ^ l * 2 ^ (h + 1 - l)) = a
        simp only [Nat.mul_add, Nat.mul_comm, Nat.mul_left_comm, Nat.add_comm, Nat.add_left_comm],
      Nat.add_mul_mod_self_left, Nat.mod_mod]
  have aux : ∀ w, bits w h' l' = bits (w % 2 ^ l) h' l' := by
    intro w
    have hp : 2 ^ l = 2 ^ l' * (2 ^ (h' + 1 - l') * 2 ^ (l - (h' + 1))) := by
      rw [← Nat.pow_add, ← Nat.pow_add]; congr 1; omega
    simp only [bits]
    rw [hp, Nat.mod_mul_right_div_self, Nat.mod_mul_right_mod]
  rw [aux, key, ← aux]

theorem putBits_lt {v h l x n : Nat} (hl : l ≤ h) (hn : h < n) (hv : v < 2 ^ n) : putBits v h l x < 2 ^ n := by
  obtain ⟨e, b⟩ := putBits_low v h l x hl
  have hp : 2 ^ n = 2 ^ (h + 1) * 2 ^ (n - (h + 1)) := by rw [← Nat.pow_add]; congr 1; omega
  have hq : v / 2 ^ (h + 1) < 2 ^ (n - (h + 1)) := by
    rw [Nat.div_lt_iff_lt_mul (Nat.two_pow_pos _), Nat.mul_comm, ← hp]; exact hv
  rw [e, hp]
  calc v / 2 ^ (h + 1) * 2 ^ (h + 1) + (x % 2 ^ (h + 1 - l) * 2 ^ l + v % 2 ^ l)
      < v / 2 ^ (h + 1) * 2 ^ (h + 1) + 2 ^ (h + 1) := by omega
    _ = (v / 2 ^ (h + 1) + 1) * 2 ^ (h + 1) := by rw [Nat.add_mul, Nat.one_mul]
    _ ≤ 2 ^ (n - (h + 1)) * 2 ^ (h + 1) := Nat.mul_le_mul_right _ hq
    _ = 2 ^ (h + 1) * 2 ^ (n - (h + 1)) := Nat.mul_comm _ _

theorem bits_lt (v h l : Nat) : bits v h l < 2 ^ (h + 1 - l) := Nat.mod_lt _ (Nat.two_pow_pos _)

end Sys2Proof.Machine
end

