-- ==== Sys2Proof/Laws/State.lean ====
section
/-! SUPPORT. What each basic update leaves alone: one lemma for each update and each field of State that it does not change. -/

namespace Sys2Proof.Machine

variable (s : State)

/-! Writing a register changes `regs` alone. -/

@[simp] theorem State.wr_pending (r : RegId) (v : Word) (i j : Nat) : (s.wr r v i j).pending = s.pending := rfl
@[simp] theorem State.wr_lcnt (r : RegId) (v : Word) (i j : Nat) : (s.wr r v i j).lcnt = s.lcnt := rfl
@[simp] theorem State.wr_lcntHiN (r : RegId) (v : Word) (i j : Nat) : (s.wr r v i j).lcntHiN = s.lcntHiN := rfl
@[simp] theorem State.wr_lcntHiS (r : RegId) (v : Word) (i j : Nat) : (s.wr r v i j).lcntHiS = s.lcntHiS := rfl
@[simp] theorem State.wr_energyHiN (r : RegId) (v : Word) (i j : Nat) : (s.wr r v i j).energyHiN = s.energyHiN := rfl
@[simp] theorem State.wr_energyHiS (r : RegId) (v : Word) (i j : Nat) : (s.wr r v i j).energyHiS = s.energyHiS := rfl
@[simp] theorem State.wr_energy (r : RegId) (v : Word) (i j : Nat) : (s.wr r v i j).energy = s.energy := rfl
@[simp] theorem State.wr_energyRem (r : RegId) (v : Word) (i j : Nat) : (s.wr r v i j).energyRem = s.energyRem := rfl
@[simp] theorem State.wr_mem (r : RegId) (v : Word) (i j : Nat) : (s.wr r v i j).mem = s.mem := rfl
@[simp] theorem State.wr_pins (r : RegId) (v : Word) (i j : Nat) : (s.wr r v i j).pins = s.pins := rfl
@[simp] theorem State.wr_out (r : RegId) (v : Word) (i j : Nat) : (s.wr r v i j).out = s.out := rfl
@[simp] theorem State.wr_msix (r : RegId) (v : Word) (i j : Nat) : (s.wr r v i j).msix = s.msix := rfl
@[simp] theorem State.wr_qLost (r : RegId) (v : Word) (i j : Nat) : (s.wr r v i j).qLost = s.qLost := rfl
@[simp] theorem State.wr_fetched (r : RegId) (v : Word) (i j : Nat) : (s.wr r v i j).fetched = s.fetched := rfl
@[simp] theorem State.wr_arbs (r : RegId) (v : Word) (i j : Nat) : (s.wr r v i j).arbs = s.arbs := rfl
@[simp] theorem State.wr_fires (r : RegId) (v : Word) (i j : Nat) : (s.wr r v i j).fires = s.fires := rfl
@[simp] theorem State.wr_procs (r : RegId) (v : Word) (i j : Nat) : (s.wr r v i j).procs = s.procs := rfl
@[simp] theorem State.wr_faults (r : RegId) (v : Word) (i j : Nat) : (s.wr r v i j).faults = s.faults := rfl
@[simp] theorem State.wr_lk (r : RegId) (v : Word) (i j : Nat) : (s.wr r v i j).lk = s.lk := rfl
@[simp] theorem State.wr_boot (r : RegId) (v : Word) (i j : Nat) : (s.wr r v i j).boot = s.boot := rfl
@[simp] theorem State.wr_sec (r : RegId) (v : Word) (i j : Nat) : (s.wr r v i j).sec = s.sec := rfl
@[simp] theorem State.wr_nor (r : RegId) (v : Word) (i j : Nat) : (s.wr r v i j).nor = s.nor := rfl
@[simp] theorem State.wr_cores (r : RegId) (v : Word) (i j : Nat) : (s.wr r v i j).cores = s.cores := rfl
@[simp] theorem State.wr_engines (r : RegId) (v : Word) (i j : Nat) : (s.wr r v i j).engines = s.engines := rfl
@[simp] theorem State.wr_drains (r : RegId) (v : Word) (i j : Nat) : (s.wr r v i j).drains = s.drains := rfl
@[simp] theorem State.wr_streams (r : RegId) (v : Word) (i j : Nat) : (s.wr r v i j).streams = s.streams := rfl
@[simp] theorem State.wr_sect (r : RegId) (v : Word) (i j : Nat) : (s.wr r v i j).sect = s.sect := rfl
@[simp] theorem State.wr_saved (r : RegId) (v : Word) (i j : Nat) : (s.wr r v i j).saved = s.saved := rfl
@[simp] theorem State.wr_examine (r : RegId) (v : Word) (i j : Nat) : (s.wr r v i j).examine = s.examine := rfl
@[simp] theorem State.wr_job (r : RegId) (v : Word) (i j : Nat) : (s.wr r v i j).job = s.job := rfl
@[simp] theorem State.wr_hbmLast (r : RegId) (v : Word) (i j : Nat) : (s.wr r v i j).hbmLast = s.hbmLast := rfl
@[simp] theorem State.wr_node (r : RegId) (v : Word) (i j : Nat) : (s.wr r v i j).node = s.node := rfl
@[simp] theorem State.wr_fabIn (r : RegId) (v : Word) (i j : Nat) : (s.wr r v i j).fabIn = s.fabIn := rfl
@[simp] theorem State.wr_ports (r : RegId) (v : Word) (i j : Nat) : (s.wr r v i j).ports = s.ports := rfl
@[simp] theorem State.wr_xfers (r : RegId) (v : Word) (i j : Nat) : (s.wr r v i j).xfers = s.xfers := rfl
@[simp] theorem State.wr_reqs (r : RegId) (v : Word) (i j : Nat) : (s.wr r v i j).reqs = s.reqs := rfl
@[simp] theorem State.wr_nextTag (r : RegId) (v : Word) (i j : Nat) : (s.wr r v i j).nextTag = s.nextTag := rfl
@[simp] theorem State.wr_atoms (r : RegId) (v : Word) (i j : Nat) : (s.wr r v i j).atoms = s.atoms := rfl
@[simp] theorem State.wr_held (r : RegId) (v : Word) (i j : Nat) : (s.wr r v i j).held = s.held := rfl
@[simp] theorem State.wr_chans (r : RegId) (v : Word) (i j : Nat) : (s.wr r v i j).chans = s.chans := rfl
@[simp] theorem State.wr_routers (r : RegId) (v : Word) (i j : Nat) : (s.wr r v i j).routers = s.routers := rfl
@[simp] theorem State.wr_rtags (r : RegId) (v : Word) (i j : Nat) : (s.wr r v i j).rtags = s.rtags := rfl
@[simp] theorem State.wr_reads (r : RegId) (v : Word) (i j : Nat) : (s.wr r v i j).reads = s.reads := rfl
@[simp] theorem State.wr_ues (r : RegId) (v : Word) (i j : Nat) : (s.wr r v i j).ues = s.ues := rfl
@[simp] theorem State.wr_pool (r : RegId) (v : Word) (i j : Nat) : (s.wr r v i j).pool = s.pool := rfl
@[simp] theorem State.wr_poolMd (r : RegId) (v : Word) (i j : Nat) : (s.wr r v i j).poolMd = s.poolMd := rfl
@[simp] theorem State.wr_poolCl (r : RegId) (v : Word) (i j : Nat) : (s.wr r v i j).poolCl = s.poolCl := rfl
@[simp] theorem State.wr_pf (r : RegId) (v : Word) (i j : Nat) : (s.wr r v i j).pf = s.pf := rfl
@[simp] theorem State.wr_bar (r : RegId) (v : Word) (i j : Nat) : (s.wr r v i j).bar = s.bar := rfl
@[simp] theorem State.wr_wcSnap (r : RegId) (v : Word) (i j : Nat) : (s.wr r v i j).wcSnap = s.wcSnap := rfl
@[simp] theorem State.wr_replays (r : RegId) (v : Word) (i j : Nat) : (s.wr r v i j).replays = s.replays := rfl
@[simp] theorem State.wr_fenced (r : RegId) (v : Word) (i j : Nat) : (s.wr r v i j).fenced = s.fenced := rfl
@[simp] theorem State.wr_mapChanged (r : RegId) (v : Word) (i j : Nat) : (s.wr r v i j).mapChanged = s.mapChanged := rfl
@[simp] theorem State.wr_wakeReq (r : RegId) (v : Word) (i j : Nat) : (s.wr r v i j).wakeReq = s.wakeReq := rfl
@[simp] theorem State.wr_prms (r : RegId) (v : Word) (i j : Nat) : (s.wr r v i j).prms = s.prms := rfl
@[simp] theorem State.wr_upds (r : RegId) (v : Word) (i j : Nat) : (s.wr r v i j).upds = s.upds := rfl
@[simp] theorem State.wr_snap (r : RegId) (v : Word) (i j : Nat) : (s.wr r v i j).snap = s.snap := rfl
@[simp] theorem State.wr_ckpt (r : RegId) (v : Word) (i j : Nat) : (s.wr r v i j).ckpt = s.ckpt := rfl
@[simp] theorem State.wr_arbLast (r : RegId) (v : Word) (i j : Nat) : (s.wr r v i j).arbLast = s.arbLast := rfl
@[simp] theorem State.wr_copies (r : RegId) (v : Word) (i j : Nat) : (s.wr r v i j).copies = s.copies := rfl
@[simp] theorem State.wr_sto (r : RegId) (v : Word) (i j : Nat) : (s.wr r v i j).sto = s.sto := rfl
@[simp] theorem State.wr_regPend (r : RegId) (v : Word) (i j : Nat) : (s.wr r v i j).regPend = s.regPend := rfl
@[simp] theorem State.wr_scaleRets (r : RegId) (v : Word) (i j : Nat) : (s.wr r v i j).scaleRets = s.scaleRets := rfl
@[simp] theorem State.wr_netTrain (r : RegId) (v : Word) (i j : Nat) : (s.wr r v i j).netTrain = s.netTrain := rfl
@[simp] theorem State.wr_slp (r : RegId) (v : Word) (i j : Nat) : (s.wr r v i j).slp = s.slp := rfl
@[simp] theorem State.wr_fwTodo (r : RegId) (v : Word) (i j : Nat) : (s.wr r v i j).fwTodo = s.fwTodo := rfl
@[simp] theorem State.wr_ibiByte (r : RegId) (v : Word) (i j : Nat) : (s.wr r v i j).ibiByte = s.ibiByte := rfl
@[simp] theorem State.wr_freeIx (r : RegId) (v : Word) (i j : Nat) : (s.wr r v i j).freeIx = s.freeIx := rfl

/-! Writing a field changes `regs` alone. -/

@[simp] theorem State.put_pending (f : Fld) (x i j : Nat) : (s.put f x i j).pending = s.pending := rfl
@[simp] theorem State.put_lcnt (f : Fld) (x i j : Nat) : (s.put f x i j).lcnt = s.lcnt := rfl
@[simp] theorem State.put_lcntHiN (f : Fld) (x i j : Nat) : (s.put f x i j).lcntHiN = s.lcntHiN := rfl
@[simp] theorem State.put_lcntHiS (f : Fld) (x i j : Nat) : (s.put f x i j).lcntHiS = s.lcntHiS := rfl
@[simp] theorem State.put_energyHiN (f : Fld) (x i j : Nat) : (s.put f x i j).energyHiN = s.energyHiN := rfl
@[simp] theorem State.put_energyHiS (f : Fld) (x i j : Nat) : (s.put f x i j).energyHiS = s.energyHiS := rfl
@[simp] theorem State.put_energy (f : Fld) (x i j : Nat) : (s.put f x i j).energy = s.energy := rfl
@[simp] theorem State.put_energyRem (f : Fld) (x i j : Nat) : (s.put f x i j).energyRem = s.energyRem := rfl
@[simp] theorem State.put_mem (f : Fld) (x i j : Nat) : (s.put f x i j).mem = s.mem := rfl
@[simp] theorem State.put_pins (f : Fld) (x i j : Nat) : (s.put f x i j).pins = s.pins := rfl
@[simp] theorem State.put_out (f : Fld) (x i j : Nat) : (s.put f x i j).out = s.out := rfl
@[simp] theorem State.put_msix (f : Fld) (x i j : Nat) : (s.put f x i j).msix = s.msix := rfl
@[simp] theorem State.put_qLost (f : Fld) (x i j : Nat) : (s.put f x i j).qLost = s.qLost := rfl
@[simp] theorem State.put_fetched (f : Fld) (x i j : Nat) : (s.put f x i j).fetched = s.fetched := rfl
@[simp] theorem State.put_arbs (f : Fld) (x i j : Nat) : (s.put f x i j).arbs = s.arbs := rfl
@[simp] theorem State.put_fires (f : Fld) (x i j : Nat) : (s.put f x i j).fires = s.fires := rfl
@[simp] theorem State.put_procs (f : Fld) (x i j : Nat) : (s.put f x i j).procs = s.procs := rfl
@[simp] theorem State.put_faults (f : Fld) (x i j : Nat) : (s.put f x i j).faults = s.faults := rfl
@[simp] theorem State.put_lk (f : Fld) (x i j : Nat) : (s.put f x i j).lk = s.lk := rfl
@[simp] theorem State.put_boot (f : Fld) (x i j : Nat) : (s.put f x i j).boot = s.boot := rfl
@[simp] theorem State.put_sec (f : Fld) (x i j : Nat) : (s.put f x i j).sec = s.sec := rfl
@[simp] theorem State.put_nor (f : Fld) (x i j : Nat) : (s.put f x i j).nor = s.nor := rfl
@[simp] theorem State.put_cores (f : Fld) (x i j : Nat) : (s.put f x i j).cores = s.cores := rfl
@[simp] theorem State.put_engines (f : Fld) (x i j : Nat) : (s.put f x i j).engines = s.engines := rfl
@[simp] theorem State.put_drains (f : Fld) (x i j : Nat) : (s.put f x i j).drains = s.drains := rfl
@[simp] theorem State.put_streams (f : Fld) (x i j : Nat) : (s.put f x i j).streams = s.streams := rfl
@[simp] theorem State.put_sect (f : Fld) (x i j : Nat) : (s.put f x i j).sect = s.sect := rfl
@[simp] theorem State.put_saved (f : Fld) (x i j : Nat) : (s.put f x i j).saved = s.saved := rfl
@[simp] theorem State.put_examine (f : Fld) (x i j : Nat) : (s.put f x i j).examine = s.examine := rfl
@[simp] theorem State.put_job (f : Fld) (x i j : Nat) : (s.put f x i j).job = s.job := rfl
@[simp] theorem State.put_hbmLast (f : Fld) (x i j : Nat) : (s.put f x i j).hbmLast = s.hbmLast := rfl
@[simp] theorem State.put_node (f : Fld) (x i j : Nat) : (s.put f x i j).node = s.node := rfl
@[simp] theorem State.put_fabIn (f : Fld) (x i j : Nat) : (s.put f x i j).fabIn = s.fabIn := rfl
@[simp] theorem State.put_ports (f : Fld) (x i j : Nat) : (s.put f x i j).ports = s.ports := rfl
@[simp] theorem State.put_xfers (f : Fld) (x i j : Nat) : (s.put f x i j).xfers = s.xfers := rfl
@[simp] theorem State.put_reqs (f : Fld) (x i j : Nat) : (s.put f x i j).reqs = s.reqs := rfl
@[simp] theorem State.put_nextTag (f : Fld) (x i j : Nat) : (s.put f x i j).nextTag = s.nextTag := rfl
@[simp] theorem State.put_atoms (f : Fld) (x i j : Nat) : (s.put f x i j).atoms = s.atoms := rfl
@[simp] theorem State.put_held (f : Fld) (x i j : Nat) : (s.put f x i j).held = s.held := rfl
@[simp] theorem State.put_chans (f : Fld) (x i j : Nat) : (s.put f x i j).chans = s.chans := rfl
@[simp] theorem State.put_routers (f : Fld) (x i j : Nat) : (s.put f x i j).routers = s.routers := rfl
@[simp] theorem State.put_rtags (f : Fld) (x i j : Nat) : (s.put f x i j).rtags = s.rtags := rfl
@[simp] theorem State.put_reads (f : Fld) (x i j : Nat) : (s.put f x i j).reads = s.reads := rfl
@[simp] theorem State.put_ues (f : Fld) (x i j : Nat) : (s.put f x i j).ues = s.ues := rfl
@[simp] theorem State.put_pool (f : Fld) (x i j : Nat) : (s.put f x i j).pool = s.pool := rfl
@[simp] theorem State.put_poolMd (f : Fld) (x i j : Nat) : (s.put f x i j).poolMd = s.poolMd := rfl
@[simp] theorem State.put_poolCl (f : Fld) (x i j : Nat) : (s.put f x i j).poolCl = s.poolCl := rfl
@[simp] theorem State.put_pf (f : Fld) (x i j : Nat) : (s.put f x i j).pf = s.pf := rfl
@[simp] theorem State.put_bar (f : Fld) (x i j : Nat) : (s.put f x i j).bar = s.bar := rfl
@[simp] theorem State.put_wcSnap (f : Fld) (x i j : Nat) : (s.put f x i j).wcSnap = s.wcSnap := rfl
@[simp] theorem State.put_replays (f : Fld) (x i j : Nat) : (s.put f x i j).replays = s.replays := rfl
@[simp] theorem State.put_fenced (f : Fld) (x i j : Nat) : (s.put f x i j).fenced = s.fenced := rfl
@[simp] theorem State.put_mapChanged (f : Fld) (x i j : Nat) : (s.put f x i j).mapChanged = s.mapChanged := rfl
@[simp] theorem State.put_wakeReq (f : Fld) (x i j : Nat) : (s.put f x i j).wakeReq = s.wakeReq := rfl
@[simp] theorem State.put_prms (f : Fld) (x i j : Nat) : (s.put f x i j).prms = s.prms := rfl
@[simp] theorem State.put_upds (f : Fld) (x i j : Nat) : (s.put f x i j).upds = s.upds := rfl
@[simp] theorem State.put_snap (f : Fld) (x i j : Nat) : (s.put f x i j).snap = s.snap := rfl
@[simp] theorem State.put_ckpt (f : Fld) (x i j : Nat) : (s.put f x i j).ckpt = s.ckpt := rfl
@[simp] theorem State.put_arbLast (f : Fld) (x i j : Nat) : (s.put f x i j).arbLast = s.arbLast := rfl
@[simp] theorem State.put_copies (f : Fld) (x i j : Nat) : (s.put f x i j).copies = s.copies := rfl
@[simp] theorem State.put_sto (f : Fld) (x i j : Nat) : (s.put f x i j).sto = s.sto := rfl
@[simp] theorem State.put_regPend (f : Fld) (x i j : Nat) : (s.put f x i j).regPend = s.regPend := rfl
@[simp] theorem State.put_scaleRets (f : Fld) (x i j : Nat) : (s.put f x i j).scaleRets = s.scaleRets := rfl
@[simp] theorem State.put_netTrain (f : Fld) (x i j : Nat) : (s.put f x i j).netTrain = s.netTrain := rfl
@[simp] theorem State.put_slp (f : Fld) (x i j : Nat) : (s.put f x i j).slp = s.slp := rfl
@[simp] theorem State.put_fwTodo (f : Fld) (x i j : Nat) : (s.put f x i j).fwTodo = s.fwTodo := rfl
@[simp] theorem State.put_ibiByte (f : Fld) (x i j : Nat) : (s.put f x i j).ibiByte = s.ibiByte := rfl
@[simp] theorem State.put_freeIx (f : Fld) (x i j : Nat) : (s.put f x i j).freeIx = s.freeIx := rfl

/-! Sending something out changes `out` alone. -/

@[simp] theorem State.emit_pending (o : Out) : (s.emit o).pending = s.pending := rfl
@[simp] theorem State.emit_lcnt (o : Out) : (s.emit o).lcnt = s.lcnt := rfl
@[simp] theorem State.emit_regs (o : Out) : (s.emit o).regs = s.regs := rfl
@[simp] theorem State.emit_lcntHiN (o : Out) : (s.emit o).lcntHiN = s.lcntHiN := rfl
@[simp] theorem State.emit_lcntHiS (o : Out) : (s.emit o).lcntHiS = s.lcntHiS := rfl
@[simp] theorem State.emit_energyHiN (o : Out) : (s.emit o).energyHiN = s.energyHiN := rfl
@[simp] theorem State.emit_energyHiS (o : Out) : (s.emit o).energyHiS = s.energyHiS := rfl
@[simp] theorem State.emit_energy (o : Out) : (s.emit o).energy = s.energy := rfl
@[simp] theorem State.emit_energyRem (o : Out) : (s.emit o).energyRem = s.energyRem := rfl
@[simp] theorem State.emit_mem (o : Out) : (s.emit o).mem = s.mem := rfl
@[simp] theorem State.emit_pins (o : Out) : (s.emit o).pins = s.pins := rfl
@[simp] theorem State.emit_msix (o : Out) : (s.emit o).msix = s.msix := rfl
@[simp] theorem State.emit_qLost (o : Out) : (s.emit o).qLost = s.qLost := rfl
@[simp] theorem State.emit_fetched (o : Out) : (s.emit o).fetched = s.fetched := rfl
@[simp] theorem State.emit_arbs (o : Out) : (s.emit o).arbs = s.arbs := rfl
@[simp] theorem State.emit_fires (o : Out) : (s.emit o).fires = s.fires := rfl
@[simp] theorem State.emit_procs (o : Out) : (s.emit o).procs = s.procs := rfl
@[simp] theorem State.emit_faults (o : Out) : (s.emit o).faults = s.faults := rfl
@[simp] theorem State.emit_lk (o : Out) : (s.emit o).lk = s.lk := rfl
@[simp] theorem State.emit_boot (o : Out) : (s.emit o).boot = s.boot := rfl
@[simp] theorem State.emit_sec (o : Out) : (s.emit o).sec = s.sec := rfl
@[simp] theorem State.emit_nor (o : Out) : (s.emit o).nor = s.nor := rfl
@[simp] theorem State.emit_cores (o : Out) : (s.emit o).cores = s.cores := rfl
@[simp] theorem State.emit_engines (o : Out) : (s.emit o).engines = s.engines := rfl
@[simp] theorem State.emit_drains (o : Out) : (s.emit o).drains = s.drains := rfl
@[simp] theorem State.emit_streams (o : Out) : (s.emit o).streams = s.streams := rfl
@[simp] theorem State.emit_sect (o : Out) : (s.emit o).sect = s.sect := rfl
@[simp] theorem State.emit_saved (o : Out) : (s.emit o).saved = s.saved := rfl
@[simp] theorem State.emit_examine (o : Out) : (s.emit o).examine = s.examine := rfl
@[simp] theorem State.emit_job (o : Out) : (s.emit o).job = s.job := rfl
@[simp] theorem State.emit_hbmLast (o : Out) : (s.emit o).hbmLast = s.hbmLast := rfl
@[simp] theorem State.emit_node (o : Out) : (s.emit o).node = s.node := rfl
@[simp] theorem State.emit_fabIn (o : Out) : (s.emit o).fabIn = s.fabIn := rfl
@[simp] theorem State.emit_ports (o : Out) : (s.emit o).ports = s.ports := rfl
@[simp] theorem State.emit_xfers (o : Out) : (s.emit o).xfers = s.xfers := rfl
@[simp] theorem State.emit_reqs (o : Out) : (s.emit o).reqs = s.reqs := rfl
@[simp] theorem State.emit_nextTag (o : Out) : (s.emit o).nextTag = s.nextTag := rfl
@[simp] theorem State.emit_atoms (o : Out) : (s.emit o).atoms = s.atoms := rfl
@[simp] theorem State.emit_held (o : Out) : (s.emit o).held = s.held := rfl
@[simp] theorem State.emit_chans (o : Out) : (s.emit o).chans = s.chans := rfl
@[simp] theorem State.emit_routers (o : Out) : (s.emit o).routers = s.routers := rfl
@[simp] theorem State.emit_rtags (o : Out) : (s.emit o).rtags = s.rtags := rfl
@[simp] theorem State.emit_reads (o : Out) : (s.emit o).reads = s.reads := rfl
@[simp] theorem State.emit_ues (o : Out) : (s.emit o).ues = s.ues := rfl
@[simp] theorem State.emit_pool (o : Out) : (s.emit o).pool = s.pool := rfl
@[simp] theorem State.emit_poolMd (o : Out) : (s.emit o).poolMd = s.poolMd := rfl
@[simp] theorem State.emit_poolCl (o : Out) : (s.emit o).poolCl = s.poolCl := rfl
@[simp] theorem State.emit_pf (o : Out) : (s.emit o).pf = s.pf := rfl
@[simp] theorem State.emit_bar (o : Out) : (s.emit o).bar = s.bar := rfl
@[simp] theorem State.emit_wcSnap (o : Out) : (s.emit o).wcSnap = s.wcSnap := rfl
@[simp] theorem State.emit_replays (o : Out) : (s.emit o).replays = s.replays := rfl
@[simp] theorem State.emit_fenced (o : Out) : (s.emit o).fenced = s.fenced := rfl
@[simp] theorem State.emit_mapChanged (o : Out) : (s.emit o).mapChanged = s.mapChanged := rfl
@[simp] theorem State.emit_wakeReq (o : Out) : (s.emit o).wakeReq = s.wakeReq := rfl
@[simp] theorem State.emit_prms (o : Out) : (s.emit o).prms = s.prms := rfl
@[simp] theorem State.emit_upds (o : Out) : (s.emit o).upds = s.upds := rfl
@[simp] theorem State.emit_snap (o : Out) : (s.emit o).snap = s.snap := rfl
@[simp] theorem State.emit_ckpt (o : Out) : (s.emit o).ckpt = s.ckpt := rfl
@[simp] theorem State.emit_arbLast (o : Out) : (s.emit o).arbLast = s.arbLast := rfl
@[simp] theorem State.emit_copies (o : Out) : (s.emit o).copies = s.copies := rfl
@[simp] theorem State.emit_sto (o : Out) : (s.emit o).sto = s.sto := rfl
@[simp] theorem State.emit_regPend (o : Out) : (s.emit o).regPend = s.regPend := rfl
@[simp] theorem State.emit_scaleRets (o : Out) : (s.emit o).scaleRets = s.scaleRets := rfl
@[simp] theorem State.emit_netTrain (o : Out) : (s.emit o).netTrain = s.netTrain := rfl
@[simp] theorem State.emit_slp (o : Out) : (s.emit o).slp = s.slp := rfl
@[simp] theorem State.emit_fwTodo (o : Out) : (s.emit o).fwTodo = s.fwTodo := rfl
@[simp] theorem State.emit_ibiByte (o : Out) : (s.emit o).ibiByte = s.ibiByte := rfl
@[simp] theorem State.emit_freeIx (o : Out) : (s.emit o).freeIx = s.freeIx := rfl

/-! Writing a byte changes `mem` alone. -/

@[simp] theorem State.setByte_pending (a : Nat) (b : Byte) : (s.setByte a b).pending = s.pending := rfl
@[simp] theorem State.setByte_lcnt (a : Nat) (b : Byte) : (s.setByte a b).lcnt = s.lcnt := rfl
@[simp] theorem State.setByte_regs (a : Nat) (b : Byte) : (s.setByte a b).regs = s.regs := rfl
@[simp] theorem State.setByte_lcntHiN (a : Nat) (b : Byte) : (s.setByte a b).lcntHiN = s.lcntHiN := rfl
@[simp] theorem State.setByte_lcntHiS (a : Nat) (b : Byte) : (s.setByte a b).lcntHiS = s.lcntHiS := rfl
@[simp] theorem State.setByte_energyHiN (a : Nat) (b : Byte) : (s.setByte a b).energyHiN = s.energyHiN := rfl
@[simp] theorem State.setByte_energyHiS (a : Nat) (b : Byte) : (s.setByte a b).energyHiS = s.energyHiS := rfl
@[simp] theorem State.setByte_energy (a : Nat) (b : Byte) : (s.setByte a b).energy = s.energy := rfl
@[simp] theorem State.setByte_energyRem (a : Nat) (b : Byte) : (s.setByte a b).energyRem = s.energyRem := rfl
@[simp] theorem State.setByte_pins (a : Nat) (b : Byte) : (s.setByte a b).pins = s.pins := rfl
@[simp] theorem State.setByte_out (a : Nat) (b : Byte) : (s.setByte a b).out = s.out := rfl
@[simp] theorem State.setByte_msix (a : Nat) (b : Byte) : (s.setByte a b).msix = s.msix := rfl
@[simp] theorem State.setByte_qLost (a : Nat) (b : Byte) : (s.setByte a b).qLost = s.qLost := rfl
@[simp] theorem State.setByte_fetched (a : Nat) (b : Byte) : (s.setByte a b).fetched = s.fetched := rfl
@[simp] theorem State.setByte_arbs (a : Nat) (b : Byte) : (s.setByte a b).arbs = s.arbs := rfl
@[simp] theorem State.setByte_fires (a : Nat) (b : Byte) : (s.setByte a b).fires = s.fires := rfl
@[simp] theorem State.setByte_procs (a : Nat) (b : Byte) : (s.setByte a b).procs = s.procs := rfl
@[simp] theorem State.setByte_faults (a : Nat) (b : Byte) : (s.setByte a b).faults = s.faults := rfl
@[simp] theorem State.setByte_lk (a : Nat) (b : Byte) : (s.setByte a b).lk = s.lk := rfl
@[simp] theorem State.setByte_boot (a : Nat) (b : Byte) : (s.setByte a b).boot = s.boot := rfl
@[simp] theorem State.setByte_sec (a : Nat) (b : Byte) : (s.setByte a b).sec = s.sec := rfl
@[simp] theorem State.setByte_nor (a : Nat) (b : Byte) : (s.setByte a b).nor = s.nor := rfl
@[simp] theorem State.setByte_cores (a : Nat) (b : Byte) : (s.setByte a b).cores = s.cores := rfl
@[simp] theorem State.setByte_engines (a : Nat) (b : Byte) : (s.setByte a b).engines = s.engines := rfl
@[simp] theorem State.setByte_drains (a : Nat) (b : Byte) : (s.setByte a b).drains = s.drains := rfl
@[simp] theorem State.setByte_streams (a : Nat) (b : Byte) : (s.setByte a b).streams = s.streams := rfl
@[simp] theorem State.setByte_sect (a : Nat) (b : Byte) : (s.setByte a b).sect = s.sect := rfl
@[simp] theorem State.setByte_saved (a : Nat) (b : Byte) : (s.setByte a b).saved = s.saved := rfl
@[simp] theorem State.setByte_examine (a : Nat) (b : Byte) : (s.setByte a b).examine = s.examine := rfl
@[simp] theorem State.setByte_job (a : Nat) (b : Byte) : (s.setByte a b).job = s.job := rfl
@[simp] theorem State.setByte_hbmLast (a : Nat) (b : Byte) : (s.setByte a b).hbmLast = s.hbmLast := rfl
@[simp] theorem State.setByte_node (a : Nat) (b : Byte) : (s.setByte a b).node = s.node := rfl
@[simp] theorem State.setByte_fabIn (a : Nat) (b : Byte) : (s.setByte a b).fabIn = s.fabIn := rfl
@[simp] theorem State.setByte_ports (a : Nat) (b : Byte) : (s.setByte a b).ports = s.ports := rfl
@[simp] theorem State.setByte_xfers (a : Nat) (b : Byte) : (s.setByte a b).xfers = s.xfers := rfl
@[simp] theorem State.setByte_reqs (a : Nat) (b : Byte) : (s.setByte a b).reqs = s.reqs := rfl
@[simp] theorem State.setByte_nextTag (a : Nat) (b : Byte) : (s.setByte a b).nextTag = s.nextTag := rfl
@[simp] theorem State.setByte_atoms (a : Nat) (b : Byte) : (s.setByte a b).atoms = s.atoms := rfl
@[simp] theorem State.setByte_held (a : Nat) (b : Byte) : (s.setByte a b).held = s.held := rfl
@[simp] theorem State.setByte_chans (a : Nat) (b : Byte) : (s.setByte a b).chans = s.chans := rfl
@[simp] theorem State.setByte_routers (a : Nat) (b : Byte) : (s.setByte a b).routers = s.routers := rfl
@[simp] theorem State.setByte_rtags (a : Nat) (b : Byte) : (s.setByte a b).rtags = s.rtags := rfl
@[simp] theorem State.setByte_reads (a : Nat) (b : Byte) : (s.setByte a b).reads = s.reads := rfl
@[simp] theorem State.setByte_ues (a : Nat) (b : Byte) : (s.setByte a b).ues = s.ues := rfl
@[simp] theorem State.setByte_pool (a : Nat) (b : Byte) : (s.setByte a b).pool = s.pool := rfl
@[simp] theorem State.setByte_poolMd (a : Nat) (b : Byte) : (s.setByte a b).poolMd = s.poolMd := rfl
@[simp] theorem State.setByte_poolCl (a : Nat) (b : Byte) : (s.setByte a b).poolCl = s.poolCl := rfl
@[simp] theorem State.setByte_pf (a : Nat) (b : Byte) : (s.setByte a b).pf = s.pf := rfl
@[simp] theorem State.setByte_bar (a : Nat) (b : Byte) : (s.setByte a b).bar = s.bar := rfl
@[simp] theorem State.setByte_wcSnap (a : Nat) (b : Byte) : (s.setByte a b).wcSnap = s.wcSnap := rfl
@[simp] theorem State.setByte_replays (a : Nat) (b : Byte) : (s.setByte a b).replays = s.replays := rfl
@[simp] theorem State.setByte_fenced (a : Nat) (b : Byte) : (s.setByte a b).fenced = s.fenced := rfl
@[simp] theorem State.setByte_mapChanged (a : Nat) (b : Byte) : (s.setByte a b).mapChanged = s.mapChanged := rfl
@[simp] theorem State.setByte_wakeReq (a : Nat) (b : Byte) : (s.setByte a b).wakeReq = s.wakeReq := rfl
@[simp] theorem State.setByte_prms (a : Nat) (b : Byte) : (s.setByte a b).prms = s.prms := rfl
@[simp] theorem State.setByte_upds (a : Nat) (b : Byte) : (s.setByte a b).upds = s.upds := rfl
@[simp] theorem State.setByte_snap (a : Nat) (b : Byte) : (s.setByte a b).snap = s.snap := rfl
@[simp] theorem State.setByte_ckpt (a : Nat) (b : Byte) : (s.setByte a b).ckpt = s.ckpt := rfl
@[simp] theorem State.setByte_arbLast (a : Nat) (b : Byte) : (s.setByte a b).arbLast = s.arbLast := rfl
@[simp] theorem State.setByte_copies (a : Nat) (b : Byte) : (s.setByte a b).copies = s.copies := rfl
@[simp] theorem State.setByte_sto (a : Nat) (b : Byte) : (s.setByte a b).sto = s.sto := rfl
@[simp] theorem State.setByte_regPend (a : Nat) (b : Byte) : (s.setByte a b).regPend = s.regPend := rfl
@[simp] theorem State.setByte_scaleRets (a : Nat) (b : Byte) : (s.setByte a b).scaleRets = s.scaleRets := rfl
@[simp] theorem State.setByte_netTrain (a : Nat) (b : Byte) : (s.setByte a b).netTrain = s.netTrain := rfl
@[simp] theorem State.setByte_slp (a : Nat) (b : Byte) : (s.setByte a b).slp = s.slp := rfl
@[simp] theorem State.setByte_fwTodo (a : Nat) (b : Byte) : (s.setByte a b).fwTodo = s.fwTodo := rfl
@[simp] theorem State.setByte_ibiByte (a : Nat) (b : Byte) : (s.setByte a b).ibiByte = s.ibiByte := rfl
@[simp] theorem State.setByte_freeIx (a : Nat) (b : Byte) : (s.setByte a b).freeIx = s.freeIx := rfl

/-! Writing bytes changes `mem` alone. -/

@[simp] theorem State.setBytes_pending (a : Nat) (bs : List Byte) : (s.setBytes a bs).pending = s.pending := rfl
@[simp] theorem State.setBytes_lcnt (a : Nat) (bs : List Byte) : (s.setBytes a bs).lcnt = s.lcnt := rfl
@[simp] theorem State.setBytes_regs (a : Nat) (bs : List Byte) : (s.setBytes a bs).regs = s.regs := rfl
@[simp] theorem State.setBytes_lcntHiN (a : Nat) (bs : List Byte) : (s.setBytes a bs).lcntHiN = s.lcntHiN := rfl
@[simp] theorem State.setBytes_lcntHiS (a : Nat) (bs : List Byte) : (s.setBytes a bs).lcntHiS = s.lcntHiS := rfl
@[simp] theorem State.setBytes_energyHiN (a : Nat) (bs : List Byte) : (s.setBytes a bs).energyHiN = s.energyHiN := rfl
@[simp] theorem State.setBytes_energyHiS (a : Nat) (bs : List Byte) : (s.setBytes a bs).energyHiS = s.energyHiS := rfl
@[simp] theorem State.setBytes_energy (a : Nat) (bs : List Byte) : (s.setBytes a bs).energy = s.energy := rfl
@[simp] theorem State.setBytes_energyRem (a : Nat) (bs : List Byte) : (s.setBytes a bs).energyRem = s.energyRem := rfl
@[simp] theorem State.setBytes_pins (a : Nat) (bs : List Byte) : (s.setBytes a bs).pins = s.pins := rfl
@[simp] theorem State.setBytes_out (a : Nat) (bs : List Byte) : (s.setBytes a bs).out = s.out := rfl
@[simp] theorem State.setBytes_msix (a : Nat) (bs : List Byte) : (s.setBytes a bs).msix = s.msix := rfl
@[simp] theorem State.setBytes_qLost (a : Nat) (bs : List Byte) : (s.setBytes a bs).qLost = s.qLost := rfl
@[simp] theorem State.setBytes_fetched (a : Nat) (bs : List Byte) : (s.setBytes a bs).fetched = s.fetched := rfl
@[simp] theorem State.setBytes_arbs (a : Nat) (bs : List Byte) : (s.setBytes a bs).arbs = s.arbs := rfl
@[simp] theorem State.setBytes_fires (a : Nat) (bs : List Byte) : (s.setBytes a bs).fires = s.fires := rfl
@[simp] theorem State.setBytes_procs (a : Nat) (bs : List Byte) : (s.setBytes a bs).procs = s.procs := rfl
@[simp] theorem State.setBytes_faults (a : Nat) (bs : List Byte) : (s.setBytes a bs).faults = s.faults := rfl
@[simp] theorem State.setBytes_lk (a : Nat) (bs : List Byte) : (s.setBytes a bs).lk = s.lk := rfl
@[simp] theorem State.setBytes_boot (a : Nat) (bs : List Byte) : (s.setBytes a bs).boot = s.boot := rfl
@[simp] theorem State.setBytes_sec (a : Nat) (bs : List Byte) : (s.setBytes a bs).sec = s.sec := rfl
@[simp] theorem State.setBytes_nor (a : Nat) (bs : List Byte) : (s.setBytes a bs).nor = s.nor := rfl
@[simp] theorem State.setBytes_cores (a : Nat) (bs : List Byte) : (s.setBytes a bs).cores = s.cores := rfl
@[simp] theorem State.setBytes_engines (a : Nat) (bs : List Byte) : (s.setBytes a bs).engines = s.engines := rfl
@[simp] theorem State.setBytes_drains (a : Nat) (bs : List Byte) : (s.setBytes a bs).drains = s.drains := rfl
@[simp] theorem State.setBytes_streams (a : Nat) (bs : List Byte) : (s.setBytes a bs).streams = s.streams := rfl
@[simp] theorem State.setBytes_sect (a : Nat) (bs : List Byte) : (s.setBytes a bs).sect = s.sect := rfl
@[simp] theorem State.setBytes_saved (a : Nat) (bs : List Byte) : (s.setBytes a bs).saved = s.saved := rfl
@[simp] theorem State.setBytes_examine (a : Nat) (bs : List Byte) : (s.setBytes a bs).examine = s.examine := rfl
@[simp] theorem State.setBytes_job (a : Nat) (bs : List Byte) : (s.setBytes a bs).job = s.job := rfl
@[simp] theorem State.setBytes_hbmLast (a : Nat) (bs : List Byte) : (s.setBytes a bs).hbmLast = s.hbmLast := rfl
@[simp] theorem State.setBytes_node (a : Nat) (bs : List Byte) : (s.setBytes a bs).node = s.node := rfl
@[simp] theorem State.setBytes_fabIn (a : Nat) (bs : List Byte) : (s.setBytes a bs).fabIn = s.fabIn := rfl
@[simp] theorem State.setBytes_ports (a : Nat) (bs : List Byte) : (s.setBytes a bs).ports = s.ports := rfl
@[simp] theorem State.setBytes_xfers (a : Nat) (bs : List Byte) : (s.setBytes a bs).xfers = s.xfers := rfl
@[simp] theorem State.setBytes_reqs (a : Nat) (bs : List Byte) : (s.setBytes a bs).reqs = s.reqs := rfl
@[simp] theorem State.setBytes_nextTag (a : Nat) (bs : List Byte) : (s.setBytes a bs).nextTag = s.nextTag := rfl
@[simp] theorem State.setBytes_atoms (a : Nat) (bs : List Byte) : (s.setBytes a bs).atoms = s.atoms := rfl
@[simp] theorem State.setBytes_held (a : Nat) (bs : List Byte) : (s.setBytes a bs).held = s.held := rfl
@[simp] theorem State.setBytes_chans (a : Nat) (bs : List Byte) : (s.setBytes a bs).chans = s.chans := rfl
@[simp] theorem State.setBytes_routers (a : Nat) (bs : List Byte) : (s.setBytes a bs).routers = s.routers := rfl
@[simp] theorem State.setBytes_rtags (a : Nat) (bs : List Byte) : (s.setBytes a bs).rtags = s.rtags := rfl
@[simp] theorem State.setBytes_reads (a : Nat) (bs : List Byte) : (s.setBytes a bs).reads = s.reads := rfl
@[simp] theorem State.setBytes_ues (a : Nat) (bs : List Byte) : (s.setBytes a bs).ues = s.ues := rfl
@[simp] theorem State.setBytes_pool (a : Nat) (bs : List Byte) : (s.setBytes a bs).pool = s.pool := rfl
@[simp] theorem State.setBytes_poolMd (a : Nat) (bs : List Byte) : (s.setBytes a bs).poolMd = s.poolMd := rfl
@[simp] theorem State.setBytes_poolCl (a : Nat) (bs : List Byte) : (s.setBytes a bs).poolCl = s.poolCl := rfl
@[simp] theorem State.setBytes_pf (a : Nat) (bs : List Byte) : (s.setBytes a bs).pf = s.pf := rfl
@[simp] theorem State.setBytes_bar (a : Nat) (bs : List Byte) : (s.setBytes a bs).bar = s.bar := rfl
@[simp] theorem State.setBytes_wcSnap (a : Nat) (bs : List Byte) : (s.setBytes a bs).wcSnap = s.wcSnap := rfl
@[simp] theorem State.setBytes_replays (a : Nat) (bs : List Byte) : (s.setBytes a bs).replays = s.replays := rfl
@[simp] theorem State.setBytes_fenced (a : Nat) (bs : List Byte) : (s.setBytes a bs).fenced = s.fenced := rfl
@[simp] theorem State.setBytes_mapChanged (a : Nat) (bs : List Byte) : (s.setBytes a bs).mapChanged = s.mapChanged := rfl
@[simp] theorem State.setBytes_wakeReq (a : Nat) (bs : List Byte) : (s.setBytes a bs).wakeReq = s.wakeReq := rfl
@[simp] theorem State.setBytes_prms (a : Nat) (bs : List Byte) : (s.setBytes a bs).prms = s.prms := rfl
@[simp] theorem State.setBytes_upds (a : Nat) (bs : List Byte) : (s.setBytes a bs).upds = s.upds := rfl
@[simp] theorem State.setBytes_snap (a : Nat) (bs : List Byte) : (s.setBytes a bs).snap = s.snap := rfl
@[simp] theorem State.setBytes_ckpt (a : Nat) (bs : List Byte) : (s.setBytes a bs).ckpt = s.ckpt := rfl
@[simp] theorem State.setBytes_arbLast (a : Nat) (bs : List Byte) : (s.setBytes a bs).arbLast = s.arbLast := rfl
@[simp] theorem State.setBytes_copies (a : Nat) (bs : List Byte) : (s.setBytes a bs).copies = s.copies := rfl
@[simp] theorem State.setBytes_sto (a : Nat) (bs : List Byte) : (s.setBytes a bs).sto = s.sto := rfl
@[simp] theorem State.setBytes_regPend (a : Nat) (bs : List Byte) : (s.setBytes a bs).regPend = s.regPend := rfl
@[simp] theorem State.setBytes_scaleRets (a : Nat) (bs : List Byte) : (s.setBytes a bs).scaleRets = s.scaleRets := rfl
@[simp] theorem State.setBytes_netTrain (a : Nat) (bs : List Byte) : (s.setBytes a bs).netTrain = s.netTrain := rfl
@[simp] theorem State.setBytes_slp (a : Nat) (bs : List Byte) : (s.setBytes a bs).slp = s.slp := rfl
@[simp] theorem State.setBytes_fwTodo (a : Nat) (bs : List Byte) : (s.setBytes a bs).fwTodo = s.fwTodo := rfl
@[simp] theorem State.setBytes_ibiByte (a : Nat) (bs : List Byte) : (s.setBytes a bs).ibiByte = s.ibiByte := rfl
@[simp] theorem State.setBytes_freeIx (a : Nat) (bs : List Byte) : (s.setBytes a bs).freeIx = s.freeIx := rfl

/-! Writing a number changes `mem` alone. -/

@[simp] theorem State.store_pending (a w v : Nat) : (s.store a w v).pending = s.pending := rfl
@[simp] theorem State.store_lcnt (a w v : Nat) : (s.store a w v).lcnt = s.lcnt := rfl
@[simp] theorem State.store_regs (a w v : Nat) : (s.store a w v).regs = s.regs := rfl
@[simp] theorem State.store_lcntHiN (a w v : Nat) : (s.store a w v).lcntHiN = s.lcntHiN := rfl
@[simp] theorem State.store_lcntHiS (a w v : Nat) : (s.store a w v).lcntHiS = s.lcntHiS := rfl
@[simp] theorem State.store_energyHiN (a w v : Nat) : (s.store a w v).energyHiN = s.energyHiN := rfl
@[simp] theorem State.store_energyHiS (a w v : Nat) : (s.store a w v).energyHiS = s.energyHiS := rfl
@[simp] theorem State.store_energy (a w v : Nat) : (s.store a w v).energy = s.energy := rfl
@[simp] theorem State.store_energyRem (a w v : Nat) : (s.store a w v).energyRem = s.energyRem := rfl
@[simp] theorem State.store_pins (a w v : Nat) : (s.store a w v).pins = s.pins := rfl
@[simp] theorem State.store_out (a w v : Nat) : (s.store a w v).out = s.out := rfl
@[simp] theorem State.store_msix (a w v : Nat) : (s.store a w v).msix = s.msix := rfl
@[simp] theorem State.store_qLost (a w v : Nat) : (s.store a w v).qLost = s.qLost := rfl
@[simp] theorem State.store_fetched (a w v : Nat) : (s.store a w v).fetched = s.fetched := rfl
@[simp] theorem State.store_arbs (a w v : Nat) : (s.store a w v).arbs = s.arbs := rfl
@[simp] theorem State.store_fires (a w v : Nat) : (s.store a w v).fires = s.fires := rfl
@[simp] theorem State.store_procs (a w v : Nat) : (s.store a w v).procs = s.procs := rfl
@[simp] theorem State.store_faults (a w v : Nat) : (s.store a w v).faults = s.faults := rfl
@[simp] theorem State.store_lk (a w v : Nat) : (s.store a w v).lk = s.lk := rfl
@[simp] theorem State.store_boot (a w v : Nat) : (s.store a w v).boot = s.boot := rfl
@[simp] theorem State.store_sec (a w v : Nat) : (s.store a w v).sec = s.sec := rfl
@[simp] theorem State.store_nor (a w v : Nat) : (s.store a w v).nor = s.nor := rfl
@[simp] theorem State.store_cores (a w v : Nat) : (s.store a w v).cores = s.cores := rfl
@[simp] theorem State.store_engines (a w v : Nat) : (s.store a w v).engines = s.engines := rfl
@[simp] theorem State.store_drains (a w v : Nat) : (s.store a w v).drains = s.drains := rfl
@[simp] theorem State.store_streams (a w v : Nat) : (s.store a w v).streams = s.streams := rfl
@[simp] theorem State.store_sect (a w v : Nat) : (s.store a w v).sect = s.sect := rfl
@[simp] theorem State.store_saved (a w v : Nat) : (s.store a w v).saved = s.saved := rfl
@[simp] theorem State.store_examine (a w v : Nat) : (s.store a w v).examine = s.examine := rfl
@[simp] theorem State.store_job (a w v : Nat) : (s.store a w v).job = s.job := rfl
@[simp] theorem State.store_hbmLast (a w v : Nat) : (s.store a w v).hbmLast = s.hbmLast := rfl
@[simp] theorem State.store_node (a w v : Nat) : (s.store a w v).node = s.node := rfl
@[simp] theorem State.store_fabIn (a w v : Nat) : (s.store a w v).fabIn = s.fabIn := rfl
@[simp] theorem State.store_ports (a w v : Nat) : (s.store a w v).ports = s.ports := rfl
@[simp] theorem State.store_xfers (a w v : Nat) : (s.store a w v).xfers = s.xfers := rfl
@[simp] theorem State.store_reqs (a w v : Nat) : (s.store a w v).reqs = s.reqs := rfl
@[simp] theorem State.store_nextTag (a w v : Nat) : (s.store a w v).nextTag = s.nextTag := rfl
@[simp] theorem State.store_atoms (a w v : Nat) : (s.store a w v).atoms = s.atoms := rfl
@[simp] theorem State.store_held (a w v : Nat) : (s.store a w v).held = s.held := rfl
@[simp] theorem State.store_chans (a w v : Nat) : (s.store a w v).chans = s.chans := rfl
@[simp] theorem State.store_routers (a w v : Nat) : (s.store a w v).routers = s.routers := rfl
@[simp] theorem State.store_rtags (a w v : Nat) : (s.store a w v).rtags = s.rtags := rfl
@[simp] theorem State.store_reads (a w v : Nat) : (s.store a w v).reads = s.reads := rfl
@[simp] theorem State.store_ues (a w v : Nat) : (s.store a w v).ues = s.ues := rfl
@[simp] theorem State.store_pool (a w v : Nat) : (s.store a w v).pool = s.pool := rfl
@[simp] theorem State.store_poolMd (a w v : Nat) : (s.store a w v).poolMd = s.poolMd := rfl
@[simp] theorem State.store_poolCl (a w v : Nat) : (s.store a w v).poolCl = s.poolCl := rfl
@[simp] theorem State.store_pf (a w v : Nat) : (s.store a w v).pf = s.pf := rfl
@[simp] theorem State.store_bar (a w v : Nat) : (s.store a w v).bar = s.bar := rfl
@[simp] theorem State.store_wcSnap (a w v : Nat) : (s.store a w v).wcSnap = s.wcSnap := rfl
@[simp] theorem State.store_replays (a w v : Nat) : (s.store a w v).replays = s.replays := rfl
@[simp] theorem State.store_fenced (a w v : Nat) : (s.store a w v).fenced = s.fenced := rfl
@[simp] theorem State.store_mapChanged (a w v : Nat) : (s.store a w v).mapChanged = s.mapChanged := rfl
@[simp] theorem State.store_wakeReq (a w v : Nat) : (s.store a w v).wakeReq = s.wakeReq := rfl
@[simp] theorem State.store_prms (a w v : Nat) : (s.store a w v).prms = s.prms := rfl
@[simp] theorem State.store_upds (a w v : Nat) : (s.store a w v).upds = s.upds := rfl
@[simp] theorem State.store_snap (a w v : Nat) : (s.store a w v).snap = s.snap := rfl
@[simp] theorem State.store_ckpt (a w v : Nat) : (s.store a w v).ckpt = s.ckpt := rfl
@[simp] theorem State.store_arbLast (a w v : Nat) : (s.store a w v).arbLast = s.arbLast := rfl
@[simp] theorem State.store_copies (a w v : Nat) : (s.store a w v).copies = s.copies := rfl
@[simp] theorem State.store_sto (a w v : Nat) : (s.store a w v).sto = s.sto := rfl
@[simp] theorem State.store_regPend (a w v : Nat) : (s.store a w v).regPend = s.regPend := rfl
@[simp] theorem State.store_scaleRets (a w v : Nat) : (s.store a w v).scaleRets = s.scaleRets := rfl
@[simp] theorem State.store_netTrain (a w v : Nat) : (s.store a w v).netTrain = s.netTrain := rfl
@[simp] theorem State.store_slp (a w v : Nat) : (s.store a w v).slp = s.slp := rfl
@[simp] theorem State.store_fwTodo (a w v : Nat) : (s.store a w v).fwTodo = s.fwTodo := rfl
@[simp] theorem State.store_ibiByte (a w v : Nat) : (s.store a w v).ibiByte = s.ibiByte := rfl
@[simp] theorem State.store_freeIx (a w v : Nat) : (s.store a w v).freeIx = s.freeIx := rfl

/-! Zeroing a range changes `mem` alone. -/

@[simp] theorem State.zero_pending (lo hi : Nat) : (s.zero lo hi).pending = s.pending := rfl
@[simp] theorem State.zero_lcnt (lo hi : Nat) : (s.zero lo hi).lcnt = s.lcnt := rfl
@[simp] theorem State.zero_regs (lo hi : Nat) : (s.zero lo hi).regs = s.regs := rfl
@[simp] theorem State.zero_lcntHiN (lo hi : Nat) : (s.zero lo hi).lcntHiN = s.lcntHiN := rfl
@[simp] theorem State.zero_lcntHiS (lo hi : Nat) : (s.zero lo hi).lcntHiS = s.lcntHiS := rfl
@[simp] theorem State.zero_energyHiN (lo hi : Nat) : (s.zero lo hi).energyHiN = s.energyHiN := rfl
@[simp] theorem State.zero_energyHiS (lo hi : Nat) : (s.zero lo hi).energyHiS = s.energyHiS := rfl
@[simp] theorem State.zero_energy (lo hi : Nat) : (s.zero lo hi).energy = s.energy := rfl
@[simp] theorem State.zero_energyRem (lo hi : Nat) : (s.zero lo hi).energyRem = s.energyRem := rfl
@[simp] theorem State.zero_pins (lo hi : Nat) : (s.zero lo hi).pins = s.pins := rfl
@[simp] theorem State.zero_out (lo hi : Nat) : (s.zero lo hi).out = s.out := rfl
@[simp] theorem State.zero_msix (lo hi : Nat) : (s.zero lo hi).msix = s.msix := rfl
@[simp] theorem State.zero_qLost (lo hi : Nat) : (s.zero lo hi).qLost = s.qLost := rfl
@[simp] theorem State.zero_fetched (lo hi : Nat) : (s.zero lo hi).fetched = s.fetched := rfl
@[simp] theorem State.zero_arbs (lo hi : Nat) : (s.zero lo hi).arbs = s.arbs := rfl
@[simp] theorem State.zero_fires (lo hi : Nat) : (s.zero lo hi).fires = s.fires := rfl
@[simp] theorem State.zero_procs (lo hi : Nat) : (s.zero lo hi).procs = s.procs := rfl
@[simp] theorem State.zero_faults (lo hi : Nat) : (s.zero lo hi).faults = s.faults := rfl
@[simp] theorem State.zero_lk (lo hi : Nat) : (s.zero lo hi).lk = s.lk := rfl
@[simp] theorem State.zero_boot (lo hi : Nat) : (s.zero lo hi).boot = s.boot := rfl
@[simp] theorem State.zero_sec (lo hi : Nat) : (s.zero lo hi).sec = s.sec := rfl
@[simp] theorem State.zero_nor (lo hi : Nat) : (s.zero lo hi).nor = s.nor := rfl
@[simp] theorem State.zero_cores (lo hi : Nat) : (s.zero lo hi).cores = s.cores := rfl
@[simp] theorem State.zero_engines (lo hi : Nat) : (s.zero lo hi).engines = s.engines := rfl
@[simp] theorem State.zero_drains (lo hi : Nat) : (s.zero lo hi).drains = s.drains := rfl
@[simp] theorem State.zero_streams (lo hi : Nat) : (s.zero lo hi).streams = s.streams := rfl
@[simp] theorem State.zero_sect (lo hi : Nat) : (s.zero lo hi).sect = s.sect := rfl
@[simp] theorem State.zero_saved (lo hi : Nat) : (s.zero lo hi).saved = s.saved := rfl
@[simp] theorem State.zero_examine (lo hi : Nat) : (s.zero lo hi).examine = s.examine := rfl
@[simp] theorem State.zero_job (lo hi : Nat) : (s.zero lo hi).job = s.job := rfl
@[simp] theorem State.zero_hbmLast (lo hi : Nat) : (s.zero lo hi).hbmLast = s.hbmLast := rfl
@[simp] theorem State.zero_node (lo hi : Nat) : (s.zero lo hi).node = s.node := rfl
@[simp] theorem State.zero_fabIn (lo hi : Nat) : (s.zero lo hi).fabIn = s.fabIn := rfl
@[simp] theorem State.zero_ports (lo hi : Nat) : (s.zero lo hi).ports = s.ports := rfl
@[simp] theorem State.zero_xfers (lo hi : Nat) : (s.zero lo hi).xfers = s.xfers := rfl
@[simp] theorem State.zero_reqs (lo hi : Nat) : (s.zero lo hi).reqs = s.reqs := rfl
@[simp] theorem State.zero_nextTag (lo hi : Nat) : (s.zero lo hi).nextTag = s.nextTag := rfl
@[simp] theorem State.zero_atoms (lo hi : Nat) : (s.zero lo hi).atoms = s.atoms := rfl
@[simp] theorem State.zero_held (lo hi : Nat) : (s.zero lo hi).held = s.held := rfl
@[simp] theorem State.zero_chans (lo hi : Nat) : (s.zero lo hi).chans = s.chans := rfl
@[simp] theorem State.zero_routers (lo hi : Nat) : (s.zero lo hi).routers = s.routers := rfl
@[simp] theorem State.zero_rtags (lo hi : Nat) : (s.zero lo hi).rtags = s.rtags := rfl
@[simp] theorem State.zero_reads (lo hi : Nat) : (s.zero lo hi).reads = s.reads := rfl
@[simp] theorem State.zero_ues (lo hi : Nat) : (s.zero lo hi).ues = s.ues := rfl
@[simp] theorem State.zero_pool (lo hi : Nat) : (s.zero lo hi).pool = s.pool := rfl
@[simp] theorem State.zero_poolMd (lo hi : Nat) : (s.zero lo hi).poolMd = s.poolMd := rfl
@[simp] theorem State.zero_poolCl (lo hi : Nat) : (s.zero lo hi).poolCl = s.poolCl := rfl
@[simp] theorem State.zero_pf (lo hi : Nat) : (s.zero lo hi).pf = s.pf := rfl
@[simp] theorem State.zero_bar (lo hi : Nat) : (s.zero lo hi).bar = s.bar := rfl
@[simp] theorem State.zero_wcSnap (lo hi : Nat) : (s.zero lo hi).wcSnap = s.wcSnap := rfl
@[simp] theorem State.zero_replays (lo hi : Nat) : (s.zero lo hi).replays = s.replays := rfl
@[simp] theorem State.zero_fenced (lo hi : Nat) : (s.zero lo hi).fenced = s.fenced := rfl
@[simp] theorem State.zero_mapChanged (lo hi : Nat) : (s.zero lo hi).mapChanged = s.mapChanged := rfl
@[simp] theorem State.zero_wakeReq (lo hi : Nat) : (s.zero lo hi).wakeReq = s.wakeReq := rfl
@[simp] theorem State.zero_prms (lo hi : Nat) : (s.zero lo hi).prms = s.prms := rfl
@[simp] theorem State.zero_upds (lo hi : Nat) : (s.zero lo hi).upds = s.upds := rfl
@[simp] theorem State.zero_snap (lo hi : Nat) : (s.zero lo hi).snap = s.snap := rfl
@[simp] theorem State.zero_ckpt (lo hi : Nat) : (s.zero lo hi).ckpt = s.ckpt := rfl
@[simp] theorem State.zero_arbLast (lo hi : Nat) : (s.zero lo hi).arbLast = s.arbLast := rfl
@[simp] theorem State.zero_copies (lo hi : Nat) : (s.zero lo hi).copies = s.copies := rfl
@[simp] theorem State.zero_sto (lo hi : Nat) : (s.zero lo hi).sto = s.sto := rfl
@[simp] theorem State.zero_regPend (lo hi : Nat) : (s.zero lo hi).regPend = s.regPend := rfl
@[simp] theorem State.zero_scaleRets (lo hi : Nat) : (s.zero lo hi).scaleRets = s.scaleRets := rfl
@[simp] theorem State.zero_netTrain (lo hi : Nat) : (s.zero lo hi).netTrain = s.netTrain := rfl
@[simp] theorem State.zero_slp (lo hi : Nat) : (s.zero lo hi).slp = s.slp := rfl
@[simp] theorem State.zero_fwTodo (lo hi : Nat) : (s.zero lo hi).fwTodo = s.fwTodo := rfl
@[simp] theorem State.zero_ibiByte (lo hi : Nat) : (s.zero lo hi).ibiByte = s.ibiByte := rfl
@[simp] theorem State.zero_freeIx (lo hi : Nat) : (s.zero lo hi).freeIx = s.freeIx := rfl

/-! Writing a field of a queue table entry changes `mem` alone. -/

@[simp] theorem State.setQf_pending (q o w v : Nat) : (s.setQf q o w v).pending = s.pending := rfl
@[simp] theorem State.setQf_lcnt (q o w v : Nat) : (s.setQf q o w v).lcnt = s.lcnt := rfl
@[simp] theorem State.setQf_regs (q o w v : Nat) : (s.setQf q o w v).regs = s.regs := rfl
@[simp] theorem State.setQf_lcntHiN (q o w v : Nat) : (s.setQf q o w v).lcntHiN = s.lcntHiN := rfl
@[simp] theorem State.setQf_lcntHiS (q o w v : Nat) : (s.setQf q o w v).lcntHiS = s.lcntHiS := rfl
@[simp] theorem State.setQf_energyHiN (q o w v : Nat) : (s.setQf q o w v).energyHiN = s.energyHiN := rfl
@[simp] theorem State.setQf_energyHiS (q o w v : Nat) : (s.setQf q o w v).energyHiS = s.energyHiS := rfl
@[simp] theorem State.setQf_energy (q o w v : Nat) : (s.setQf q o w v).energy = s.energy := rfl
@[simp] theorem State.setQf_energyRem (q o w v : Nat) : (s.setQf q o w v).energyRem = s.energyRem := rfl
@[simp] theorem State.setQf_pins (q o w v : Nat) : (s.setQf q o w v).pins = s.pins := rfl
@[simp] theorem State.setQf_out (q o w v : Nat) : (s.setQf q o w v).out = s.out := rfl
@[simp] theorem State.setQf_msix (q o w v : Nat) : (s.setQf q o w v).msix = s.msix := rfl
@[simp] theorem State.setQf_qLost (q o w v : Nat) : (s.setQf q o w v).qLost = s.qLost := rfl
@[simp] theorem State.setQf_fetched (q o w v : Nat) : (s.setQf q o w v).fetched = s.fetched := rfl
@[simp] theorem State.setQf_arbs (q o w v : Nat) : (s.setQf q o w v).arbs = s.arbs := rfl
@[simp] theorem State.setQf_fires (q o w v : Nat) : (s.setQf q o w v).fires = s.fires := rfl
@[simp] theorem State.setQf_procs (q o w v : Nat) : (s.setQf q o w v).procs = s.procs := rfl
@[simp] theorem State.setQf_faults (q o w v : Nat) : (s.setQf q o w v).faults = s.faults := rfl
@[simp] theorem State.setQf_lk (q o w v : Nat) : (s.setQf q o w v).lk = s.lk := rfl
@[simp] theorem State.setQf_boot (q o w v : Nat) : (s.setQf q o w v).boot = s.boot := rfl
@[simp] theorem State.setQf_sec (q o w v : Nat) : (s.setQf q o w v).sec = s.sec := rfl
@[simp] theorem State.setQf_nor (q o w v : Nat) : (s.setQf q o w v).nor = s.nor := rfl
@[simp] theorem State.setQf_cores (q o w v : Nat) : (s.setQf q o w v).cores = s.cores := rfl
@[simp] theorem State.setQf_engines (q o w v : Nat) : (s.setQf q o w v).engines = s.engines := rfl
@[simp] theorem State.setQf_drains (q o w v : Nat) : (s.setQf q o w v).drains = s.drains := rfl
@[simp] theorem State.setQf_streams (q o w v : Nat) : (s.setQf q o w v).streams = s.streams := rfl
@[simp] theorem State.setQf_sect (q o w v : Nat) : (s.setQf q o w v).sect = s.sect := rfl
@[simp] theorem State.setQf_saved (q o w v : Nat) : (s.setQf q o w v).saved = s.saved := rfl
@[simp] theorem State.setQf_examine (q o w v : Nat) : (s.setQf q o w v).examine = s.examine := rfl
@[simp] theorem State.setQf_job (q o w v : Nat) : (s.setQf q o w v).job = s.job := rfl
@[simp] theorem State.setQf_hbmLast (q o w v : Nat) : (s.setQf q o w v).hbmLast = s.hbmLast := rfl
@[simp] theorem State.setQf_node (q o w v : Nat) : (s.setQf q o w v).node = s.node := rfl
@[simp] theorem State.setQf_fabIn (q o w v : Nat) : (s.setQf q o w v).fabIn = s.fabIn := rfl
@[simp] theorem State.setQf_ports (q o w v : Nat) : (s.setQf q o w v).ports = s.ports := rfl
@[simp] theorem State.setQf_xfers (q o w v : Nat) : (s.setQf q o w v).xfers = s.xfers := rfl
@[simp] theorem State.setQf_reqs (q o w v : Nat) : (s.setQf q o w v).reqs = s.reqs := rfl
@[simp] theorem State.setQf_nextTag (q o w v : Nat) : (s.setQf q o w v).nextTag = s.nextTag := rfl
@[simp] theorem State.setQf_atoms (q o w v : Nat) : (s.setQf q o w v).atoms = s.atoms := rfl
@[simp] theorem State.setQf_held (q o w v : Nat) : (s.setQf q o w v).held = s.held := rfl
@[simp] theorem State.setQf_chans (q o w v : Nat) : (s.setQf q o w v).chans = s.chans := rfl
@[simp] theorem State.setQf_routers (q o w v : Nat) : (s.setQf q o w v).routers = s.routers := rfl
@[simp] theorem State.setQf_rtags (q o w v : Nat) : (s.setQf q o w v).rtags = s.rtags := rfl
@[simp] theorem State.setQf_reads (q o w v : Nat) : (s.setQf q o w v).reads = s.reads := rfl
@[simp] theorem State.setQf_ues (q o w v : Nat) : (s.setQf q o w v).ues = s.ues := rfl
@[simp] theorem State.setQf_pool (q o w v : Nat) : (s.setQf q o w v).pool = s.pool := rfl
@[simp] theorem State.setQf_poolMd (q o w v : Nat) : (s.setQf q o w v).poolMd = s.poolMd := rfl
@[simp] theorem State.setQf_poolCl (q o w v : Nat) : (s.setQf q o w v).poolCl = s.poolCl := rfl
@[simp] theorem State.setQf_pf (q o w v : Nat) : (s.setQf q o w v).pf = s.pf := rfl
@[simp] theorem State.setQf_bar (q o w v : Nat) : (s.setQf q o w v).bar = s.bar := rfl
@[simp] theorem State.setQf_wcSnap (q o w v : Nat) : (s.setQf q o w v).wcSnap = s.wcSnap := rfl
@[simp] theorem State.setQf_replays (q o w v : Nat) : (s.setQf q o w v).replays = s.replays := rfl
@[simp] theorem State.setQf_fenced (q o w v : Nat) : (s.setQf q o w v).fenced = s.fenced := rfl
@[simp] theorem State.setQf_mapChanged (q o w v : Nat) : (s.setQf q o w v).mapChanged = s.mapChanged := rfl
@[simp] theorem State.setQf_wakeReq (q o w v : Nat) : (s.setQf q o w v).wakeReq = s.wakeReq := rfl
@[simp] theorem State.setQf_prms (q o w v : Nat) : (s.setQf q o w v).prms = s.prms := rfl
@[simp] theorem State.setQf_upds (q o w v : Nat) : (s.setQf q o w v).upds = s.upds := rfl
@[simp] theorem State.setQf_snap (q o w v : Nat) : (s.setQf q o w v).snap = s.snap := rfl
@[simp] theorem State.setQf_ckpt (q o w v : Nat) : (s.setQf q o w v).ckpt = s.ckpt := rfl
@[simp] theorem State.setQf_arbLast (q o w v : Nat) : (s.setQf q o w v).arbLast = s.arbLast := rfl
@[simp] theorem State.setQf_copies (q o w v : Nat) : (s.setQf q o w v).copies = s.copies := rfl
@[simp] theorem State.setQf_sto (q o w v : Nat) : (s.setQf q o w v).sto = s.sto := rfl
@[simp] theorem State.setQf_regPend (q o w v : Nat) : (s.setQf q o w v).regPend = s.regPend := rfl
@[simp] theorem State.setQf_scaleRets (q o w v : Nat) : (s.setQf q o w v).scaleRets = s.scaleRets := rfl
@[simp] theorem State.setQf_netTrain (q o w v : Nat) : (s.setQf q o w v).netTrain = s.netTrain := rfl
@[simp] theorem State.setQf_slp (q o w v : Nat) : (s.setQf q o w v).slp = s.slp := rfl
@[simp] theorem State.setQf_fwTodo (q o w v : Nat) : (s.setQf q o w v).fwTodo = s.fwTodo := rfl
@[simp] theorem State.setQf_ibiByte (q o w v : Nat) : (s.setQf q o w v).ibiByte = s.ibiByte := rfl
@[simp] theorem State.setQf_freeIx (q o w v : Nat) : (s.setQf q o w v).freeIx = s.freeIx := rfl

/-! Replacing a firmware processor changes `procs` alone. -/

@[simp] theorem State.setProc_pending (p : Nat) (x : ProcSt) : (s.setProc p x).pending = s.pending := rfl
@[simp] theorem State.setProc_lcnt (p : Nat) (x : ProcSt) : (s.setProc p x).lcnt = s.lcnt := rfl
@[simp] theorem State.setProc_regs (p : Nat) (x : ProcSt) : (s.setProc p x).regs = s.regs := rfl
@[simp] theorem State.setProc_lcntHiN (p : Nat) (x : ProcSt) : (s.setProc p x).lcntHiN = s.lcntHiN := rfl
@[simp] theorem State.setProc_lcntHiS (p : Nat) (x : ProcSt) : (s.setProc p x).lcntHiS = s.lcntHiS := rfl
@[simp] theorem State.setProc_energyHiN (p : Nat) (x : ProcSt) : (s.setProc p x).energyHiN = s.energyHiN := rfl
@[simp] theorem State.setProc_energyHiS (p : Nat) (x : ProcSt) : (s.setProc p x).energyHiS = s.energyHiS := rfl
@[simp] theorem State.setProc_energy (p : Nat) (x : ProcSt) : (s.setProc p x).energy = s.energy := rfl
@[simp] theorem State.setProc_energyRem (p : Nat) (x : ProcSt) : (s.setProc p x).energyRem = s.energyRem := rfl
@[simp] theorem State.setProc_mem (p : Nat) (x : ProcSt) : (s.setProc p x).mem = s.mem := rfl
@[simp] theorem State.setProc_pins (p : Nat) (x : ProcSt) : (s.setProc p x).pins = s.pins := rfl
@[simp] theorem State.setProc_out (p : Nat) (x : ProcSt) : (s.setProc p x).out = s.out := rfl
@[simp] theorem State.setProc_msix (p : Nat) (x : ProcSt) : (s.setProc p x).msix = s.msix := rfl
@[simp] theorem State.setProc_qLost (p : Nat) (x : ProcSt) : (s.setProc p x).qLost = s.qLost := rfl
@[simp] theorem State.setProc_fetched (p : Nat) (x : ProcSt) : (s.setProc p x).fetched = s.fetched := rfl
@[simp] theorem State.setProc_arbs (p : Nat) (x : ProcSt) : (s.setProc p x).arbs = s.arbs := rfl
@[simp] theorem State.setProc_fires (p : Nat) (x : ProcSt) : (s.setProc p x).fires = s.fires := rfl
@[simp] theorem State.setProc_faults (p : Nat) (x : ProcSt) : (s.setProc p x).faults = s.faults := rfl
@[simp] theorem State.setProc_lk (p : Nat) (x : ProcSt) : (s.setProc p x).lk = s.lk := rfl
@[simp] theorem State.setProc_boot (p : Nat) (x : ProcSt) : (s.setProc p x).boot = s.boot := rfl
@[simp] theorem State.setProc_sec (p : Nat) (x : ProcSt) : (s.setProc p x).sec = s.sec := rfl
@[simp] theorem State.setProc_nor (p : Nat) (x : ProcSt) : (s.setProc p x).nor = s.nor := rfl
@[simp] theorem State.setProc_cores (p : Nat) (x : ProcSt) : (s.setProc p x).cores = s.cores := rfl
@[simp] theorem State.setProc_engines (p : Nat) (x : ProcSt) : (s.setProc p x).engines = s.engines := rfl
@[simp] theorem State.setProc_drains (p : Nat) (x : ProcSt) : (s.setProc p x).drains = s.drains := rfl
@[simp] theorem State.setProc_streams (p : Nat) (x : ProcSt) : (s.setProc p x).streams = s.streams := rfl
@[simp] theorem State.setProc_sect (p : Nat) (x : ProcSt) : (s.setProc p x).sect = s.sect := rfl
@[simp] theorem State.setProc_saved (p : Nat) (x : ProcSt) : (s.setProc p x).saved = s.saved := rfl
@[simp] theorem State.setProc_examine (p : Nat) (x : ProcSt) : (s.setProc p x).examine = s.examine := rfl
@[simp] theorem State.setProc_job (p : Nat) (x : ProcSt) : (s.setProc p x).job = s.job := rfl
@[simp] theorem State.setProc_hbmLast (p : Nat) (x : ProcSt) : (s.setProc p x).hbmLast = s.hbmLast := rfl
@[simp] theorem State.setProc_node (p : Nat) (x : ProcSt) : (s.setProc p x).node = s.node := rfl
@[simp] theorem State.setProc_fabIn (p : Nat) (x : ProcSt) : (s.setProc p x).fabIn = s.fabIn := rfl
@[simp] theorem State.setProc_ports (p : Nat) (x : ProcSt) : (s.setProc p x).ports = s.ports := rfl
@[simp] theorem State.setProc_xfers (p : Nat) (x : ProcSt) : (s.setProc p x).xfers = s.xfers := rfl
@[simp] theorem State.setProc_reqs (p : Nat) (x : ProcSt) : (s.setProc p x).reqs = s.reqs := rfl
@[simp] theorem State.setProc_nextTag (p : Nat) (x : ProcSt) : (s.setProc p x).nextTag = s.nextTag := rfl
@[simp] theorem State.setProc_atoms (p : Nat) (x : ProcSt) : (s.setProc p x).atoms = s.atoms := rfl
@[simp] theorem State.setProc_held (p : Nat) (x : ProcSt) : (s.setProc p x).held = s.held := rfl
@[simp] theorem State.setProc_chans (p : Nat) (x : ProcSt) : (s.setProc p x).chans = s.chans := rfl
@[simp] theorem State.setProc_routers (p : Nat) (x : ProcSt) : (s.setProc p x).routers = s.routers := rfl
@[simp] theorem State.setProc_rtags (p : Nat) (x : ProcSt) : (s.setProc p x).rtags = s.rtags := rfl
@[simp] theorem State.setProc_reads (p : Nat) (x : ProcSt) : (s.setProc p x).reads = s.reads := rfl
@[simp] theorem State.setProc_ues (p : Nat) (x : ProcSt) : (s.setProc p x).ues = s.ues := rfl
@[simp] theorem State.setProc_pool (p : Nat) (x : ProcSt) : (s.setProc p x).pool = s.pool := rfl
@[simp] theorem State.setProc_poolMd (p : Nat) (x : ProcSt) : (s.setProc p x).poolMd = s.poolMd := rfl
@[simp] theorem State.setProc_poolCl (p : Nat) (x : ProcSt) : (s.setProc p x).poolCl = s.poolCl := rfl
@[simp] theorem State.setProc_pf (p : Nat) (x : ProcSt) : (s.setProc p x).pf = s.pf := rfl
@[simp] theorem State.setProc_bar (p : Nat) (x : ProcSt) : (s.setProc p x).bar = s.bar := rfl
@[simp] theorem State.setProc_wcSnap (p : Nat) (x : ProcSt) : (s.setProc p x).wcSnap = s.wcSnap := rfl
@[simp] theorem State.setProc_replays (p : Nat) (x : ProcSt) : (s.setProc p x).replays = s.replays := rfl
@[simp] theorem State.setProc_fenced (p : Nat) (x : ProcSt) : (s.setProc p x).fenced = s.fenced := rfl
@[simp] theorem State.setProc_mapChanged (p : Nat) (x : ProcSt) : (s.setProc p x).mapChanged = s.mapChanged := rfl
@[simp] theorem State.setProc_wakeReq (p : Nat) (x : ProcSt) : (s.setProc p x).wakeReq = s.wakeReq := rfl
@[simp] theorem State.setProc_prms (p : Nat) (x : ProcSt) : (s.setProc p x).prms = s.prms := rfl
@[simp] theorem State.setProc_upds (p : Nat) (x : ProcSt) : (s.setProc p x).upds = s.upds := rfl
@[simp] theorem State.setProc_snap (p : Nat) (x : ProcSt) : (s.setProc p x).snap = s.snap := rfl
@[simp] theorem State.setProc_ckpt (p : Nat) (x : ProcSt) : (s.setProc p x).ckpt = s.ckpt := rfl
@[simp] theorem State.setProc_arbLast (p : Nat) (x : ProcSt) : (s.setProc p x).arbLast = s.arbLast := rfl
@[simp] theorem State.setProc_copies (p : Nat) (x : ProcSt) : (s.setProc p x).copies = s.copies := rfl
@[simp] theorem State.setProc_sto (p : Nat) (x : ProcSt) : (s.setProc p x).sto = s.sto := rfl
@[simp] theorem State.setProc_regPend (p : Nat) (x : ProcSt) : (s.setProc p x).regPend = s.regPend := rfl
@[simp] theorem State.setProc_scaleRets (p : Nat) (x : ProcSt) : (s.setProc p x).scaleRets = s.scaleRets := rfl
@[simp] theorem State.setProc_netTrain (p : Nat) (x : ProcSt) : (s.setProc p x).netTrain = s.netTrain := rfl
@[simp] theorem State.setProc_slp (p : Nat) (x : ProcSt) : (s.setProc p x).slp = s.slp := rfl
@[simp] theorem State.setProc_fwTodo (p : Nat) (x : ProcSt) : (s.setProc p x).fwTodo = s.fwTodo := rfl
@[simp] theorem State.setProc_ibiByte (p : Nat) (x : ProcSt) : (s.setProc p x).ibiByte = s.ibiByte := rfl
@[simp] theorem State.setProc_freeIx (p : Nat) (x : ProcSt) : (s.setProc p x).freeIx = s.freeIx := rfl

/-! Replacing a core changes `cores` alone. -/

@[simp] theorem State.setCore_pending (n : Nat) (c : CoreSt) : (s.setCore n c).pending = s.pending := rfl
@[simp] theorem State.setCore_lcnt (n : Nat) (c : CoreSt) : (s.setCore n c).lcnt = s.lcnt := rfl
@[simp] theorem State.setCore_regs (n : Nat) (c : CoreSt) : (s.setCore n c).regs = s.regs := rfl
@[simp] theorem State.setCore_lcntHiN (n : Nat) (c : CoreSt) : (s.setCore n c).lcntHiN = s.lcntHiN := rfl
@[simp] theorem State.setCore_lcntHiS (n : Nat) (c : CoreSt) : (s.setCore n c).lcntHiS = s.lcntHiS := rfl
@[simp] theorem State.setCore_energyHiN (n : Nat) (c : CoreSt) : (s.setCore n c).energyHiN = s.energyHiN := rfl
@[simp] theorem State.setCore_energyHiS (n : Nat) (c : CoreSt) : (s.setCore n c).energyHiS = s.energyHiS := rfl
@[simp] theorem State.setCore_energy (n : Nat) (c : CoreSt) : (s.setCore n c).energy = s.energy := rfl
@[simp] theorem State.setCore_energyRem (n : Nat) (c : CoreSt) : (s.setCore n c).energyRem = s.energyRem := rfl
@[simp] theorem State.setCore_mem (n : Nat) (c : CoreSt) : (s.setCore n c).mem = s.mem := rfl
@[simp] theorem State.setCore_pins (n : Nat) (c : CoreSt) : (s.setCore n c).pins = s.pins := rfl
@[simp] theorem State.setCore_out (n : Nat) (c : CoreSt) : (s.setCore n c).out = s.out := rfl
@[simp] theorem State.setCore_msix (n : Nat) (c : CoreSt) : (s.setCore n c).msix = s.msix := rfl
@[simp] theorem State.setCore_qLost (n : Nat) (c : CoreSt) : (s.setCore n c).qLost = s.qLost := rfl
@[simp] theorem State.setCore_fetched (n : Nat) (c : CoreSt) : (s.setCore n c).fetched = s.fetched := rfl
@[simp] theorem State.setCore_arbs (n : Nat) (c : CoreSt) : (s.setCore n c).arbs = s.arbs := rfl
@[simp] theorem State.setCore_fires (n : Nat) (c : CoreSt) : (s.setCore n c).fires = s.fires := rfl
@[simp] theorem State.setCore_procs (n : Nat) (c : CoreSt) : (s.setCore n c).procs = s.procs := rfl
@[simp] theorem State.setCore_faults (n : Nat) (c : CoreSt) : (s.setCore n c).faults = s.faults := rfl
@[simp] theorem State.setCore_lk (n : Nat) (c : CoreSt) : (s.setCore n c).lk = s.lk := rfl
@[simp] theorem State.setCore_boot (n : Nat) (c : CoreSt) : (s.setCore n c).boot = s.boot := rfl
@[simp] theorem State.setCore_sec (n : Nat) (c : CoreSt) : (s.setCore n c).sec = s.sec := rfl
@[simp] theorem State.setCore_nor (n : Nat) (c : CoreSt) : (s.setCore n c).nor = s.nor := rfl
@[simp] theorem State.setCore_engines (n : Nat) (c : CoreSt) : (s.setCore n c).engines = s.engines := rfl
@[simp] theorem State.setCore_drains (n : Nat) (c : CoreSt) : (s.setCore n c).drains = s.drains := rfl
@[simp] theorem State.setCore_streams (n : Nat) (c : CoreSt) : (s.setCore n c).streams = s.streams := rfl
@[simp] theorem State.setCore_sect (n : Nat) (c : CoreSt) : (s.setCore n c).sect = s.sect := rfl
@[simp] theorem State.setCore_saved (n : Nat) (c : CoreSt) : (s.setCore n c).saved = s.saved := rfl
@[simp] theorem State.setCore_examine (n : Nat) (c : CoreSt) : (s.setCore n c).examine = s.examine := rfl
@[simp] theorem State.setCore_job (n : Nat) (c : CoreSt) : (s.setCore n c).job = s.job := rfl
@[simp] theorem State.setCore_hbmLast (n : Nat) (c : CoreSt) : (s.setCore n c).hbmLast = s.hbmLast := rfl
@[simp] theorem State.setCore_node (n : Nat) (c : CoreSt) : (s.setCore n c).node = s.node := rfl
@[simp] theorem State.setCore_fabIn (n : Nat) (c : CoreSt) : (s.setCore n c).fabIn = s.fabIn := rfl
@[simp] theorem State.setCore_ports (n : Nat) (c : CoreSt) : (s.setCore n c).ports = s.ports := rfl
@[simp] theorem State.setCore_xfers (n : Nat) (c : CoreSt) : (s.setCore n c).xfers = s.xfers := rfl
@[simp] theorem State.setCore_reqs (n : Nat) (c : CoreSt) : (s.setCore n c).reqs = s.reqs := rfl
@[simp] theorem State.setCore_nextTag (n : Nat) (c : CoreSt) : (s.setCore n c).nextTag = s.nextTag := rfl
@[simp] theorem State.setCore_atoms (n : Nat) (c : CoreSt) : (s.setCore n c).atoms = s.atoms := rfl
@[simp] theorem State.setCore_held (n : Nat) (c : CoreSt) : (s.setCore n c).held = s.held := rfl
@[simp] theorem State.setCore_chans (n : Nat) (c : CoreSt) : (s.setCore n c).chans = s.chans := rfl
@[simp] theorem State.setCore_routers (n : Nat) (c : CoreSt) : (s.setCore n c).routers = s.routers := rfl
@[simp] theorem State.setCore_rtags (n : Nat) (c : CoreSt) : (s.setCore n c).rtags = s.rtags := rfl
@[simp] theorem State.setCore_reads (n : Nat) (c : CoreSt) : (s.setCore n c).reads = s.reads := rfl
@[simp] theorem State.setCore_ues (n : Nat) (c : CoreSt) : (s.setCore n c).ues = s.ues := rfl
@[simp] theorem State.setCore_pool (n : Nat) (c : CoreSt) : (s.setCore n c).pool = s.pool := rfl
@[simp] theorem State.setCore_poolMd (n : Nat) (c : CoreSt) : (s.setCore n c).poolMd = s.poolMd := rfl
@[simp] theorem State.setCore_poolCl (n : Nat) (c : CoreSt) : (s.setCore n c).poolCl = s.poolCl := rfl
@[simp] theorem State.setCore_pf (n : Nat) (c : CoreSt) : (s.setCore n c).pf = s.pf := rfl
@[simp] theorem State.setCore_bar (n : Nat) (c : CoreSt) : (s.setCore n c).bar = s.bar := rfl
@[simp] theorem State.setCore_wcSnap (n : Nat) (c : CoreSt) : (s.setCore n c).wcSnap = s.wcSnap := rfl
@[simp] theorem State.setCore_replays (n : Nat) (c : CoreSt) : (s.setCore n c).replays = s.replays := rfl
@[simp] theorem State.setCore_fenced (n : Nat) (c : CoreSt) : (s.setCore n c).fenced = s.fenced := rfl
@[simp] theorem State.setCore_mapChanged (n : Nat) (c : CoreSt) : (s.setCore n c).mapChanged = s.mapChanged := rfl
@[simp] theorem State.setCore_wakeReq (n : Nat) (c : CoreSt) : (s.setCore n c).wakeReq = s.wakeReq := rfl
@[simp] theorem State.setCore_prms (n : Nat) (c : CoreSt) : (s.setCore n c).prms = s.prms := rfl
@[simp] theorem State.setCore_upds (n : Nat) (c : CoreSt) : (s.setCore n c).upds = s.upds := rfl
@[simp] theorem State.setCore_snap (n : Nat) (c : CoreSt) : (s.setCore n c).snap = s.snap := rfl
@[simp] theorem State.setCore_ckpt (n : Nat) (c : CoreSt) : (s.setCore n c).ckpt = s.ckpt := rfl
@[simp] theorem State.setCore_arbLast (n : Nat) (c : CoreSt) : (s.setCore n c).arbLast = s.arbLast := rfl
@[simp] theorem State.setCore_copies (n : Nat) (c : CoreSt) : (s.setCore n c).copies = s.copies := rfl
@[simp] theorem State.setCore_sto (n : Nat) (c : CoreSt) : (s.setCore n c).sto = s.sto := rfl
@[simp] theorem State.setCore_regPend (n : Nat) (c : CoreSt) : (s.setCore n c).regPend = s.regPend := rfl
@[simp] theorem State.setCore_scaleRets (n : Nat) (c : CoreSt) : (s.setCore n c).scaleRets = s.scaleRets := rfl
@[simp] theorem State.setCore_netTrain (n : Nat) (c : CoreSt) : (s.setCore n c).netTrain = s.netTrain := rfl
@[simp] theorem State.setCore_slp (n : Nat) (c : CoreSt) : (s.setCore n c).slp = s.slp := rfl
@[simp] theorem State.setCore_fwTodo (n : Nat) (c : CoreSt) : (s.setCore n c).fwTodo = s.fwTodo := rfl
@[simp] theorem State.setCore_ibiByte (n : Nat) (c : CoreSt) : (s.setCore n c).ibiByte = s.ibiByte := rfl
@[simp] theorem State.setCore_freeIx (n : Nat) (c : CoreSt) : (s.setCore n c).freeIx = s.freeIx := rfl

/-! Replacing an engine changes `engines` alone. -/

@[simp] theorem State.setEng_pending (e : Nat) (x : EngineSt) : (s.setEng e x).pending = s.pending := rfl
@[simp] theorem State.setEng_lcnt (e : Nat) (x : EngineSt) : (s.setEng e x).lcnt = s.lcnt := rfl
@[simp] theorem State.setEng_regs (e : Nat) (x : EngineSt) : (s.setEng e x).regs = s.regs := rfl
@[simp] theorem State.setEng_lcntHiN (e : Nat) (x : EngineSt) : (s.setEng e x).lcntHiN = s.lcntHiN := rfl
@[simp] theorem State.setEng_lcntHiS (e : Nat) (x : EngineSt) : (s.setEng e x).lcntHiS = s.lcntHiS := rfl
@[simp] theorem State.setEng_energyHiN (e : Nat) (x : EngineSt) : (s.setEng e x).energyHiN = s.energyHiN := rfl
@[simp] theorem State.setEng_energyHiS (e : Nat) (x : EngineSt) : (s.setEng e x).energyHiS = s.energyHiS := rfl
@[simp] theorem State.setEng_energy (e : Nat) (x : EngineSt) : (s.setEng e x).energy = s.energy := rfl
@[simp] theorem State.setEng_energyRem (e : Nat) (x : EngineSt) : (s.setEng e x).energyRem = s.energyRem := rfl
@[simp] theorem State.setEng_mem (e : Nat) (x : EngineSt) : (s.setEng e x).mem = s.mem := rfl
@[simp] theorem State.setEng_pins (e : Nat) (x : EngineSt) : (s.setEng e x).pins = s.pins := rfl
@[simp] theorem State.setEng_out (e : Nat) (x : EngineSt) : (s.setEng e x).out = s.out := rfl
@[simp] theorem State.setEng_msix (e : Nat) (x : EngineSt) : (s.setEng e x).msix = s.msix := rfl
@[simp] theorem State.setEng_qLost (e : Nat) (x : EngineSt) : (s.setEng e x).qLost = s.qLost := rfl
@[simp] theorem State.setEng_fetched (e : Nat) (x : EngineSt) : (s.setEng e x).fetched = s.fetched := rfl
@[simp] theorem State.setEng_arbs (e : Nat) (x : EngineSt) : (s.setEng e x).arbs = s.arbs := rfl
@[simp] theorem State.setEng_fires (e : Nat) (x : EngineSt) : (s.setEng e x).fires = s.fires := rfl
@[simp] theorem State.setEng_procs (e : Nat) (x : EngineSt) : (s.setEng e x).procs = s.procs := rfl
@[simp] theorem State.setEng_faults (e : Nat) (x : EngineSt) : (s.setEng e x).faults = s.faults := rfl
@[simp] theorem State.setEng_lk (e : Nat) (x : EngineSt) : (s.setEng e x).lk = s.lk := rfl
@[simp] theorem State.setEng_boot (e : Nat) (x : EngineSt) : (s.setEng e x).boot = s.boot := rfl
@[simp] theorem State.setEng_sec (e : Nat) (x : EngineSt) : (s.setEng e x).sec = s.sec := rfl
@[simp] theorem State.setEng_nor (e : Nat) (x : EngineSt) : (s.setEng e x).nor = s.nor := rfl
@[simp] theorem State.setEng_cores (e : Nat) (x : EngineSt) : (s.setEng e x).cores = s.cores := rfl
@[simp] theorem State.setEng_drains (e : Nat) (x : EngineSt) : (s.setEng e x).drains = s.drains := rfl
@[simp] theorem State.setEng_streams (e : Nat) (x : EngineSt) : (s.setEng e x).streams = s.streams := rfl
@[simp] theorem State.setEng_sect (e : Nat) (x : EngineSt) : (s.setEng e x).sect = s.sect := rfl
@[simp] theorem State.setEng_saved (e : Nat) (x : EngineSt) : (s.setEng e x).saved = s.saved := rfl
@[simp] theorem State.setEng_examine (e : Nat) (x : EngineSt) : (s.setEng e x).examine = s.examine := rfl
@[simp] theorem State.setEng_job (e : Nat) (x : EngineSt) : (s.setEng e x).job = s.job := rfl
@[simp] theorem State.setEng_hbmLast (e : Nat) (x : EngineSt) : (s.setEng e x).hbmLast = s.hbmLast := rfl
@[simp] theorem State.setEng_node (e : Nat) (x : EngineSt) : (s.setEng e x).node = s.node := rfl
@[simp] theorem State.setEng_fabIn (e : Nat) (x : EngineSt) : (s.setEng e x).fabIn = s.fabIn := rfl
@[simp] theorem State.setEng_ports (e : Nat) (x : EngineSt) : (s.setEng e x).ports = s.ports := rfl
@[simp] theorem State.setEng_xfers (e : Nat) (x : EngineSt) : (s.setEng e x).xfers = s.xfers := rfl
@[simp] theorem State.setEng_reqs (e : Nat) (x : EngineSt) : (s.setEng e x).reqs = s.reqs := rfl
@[simp] theorem State.setEng_nextTag (e : Nat) (x : EngineSt) : (s.setEng e x).nextTag = s.nextTag := rfl
@[simp] theorem State.setEng_atoms (e : Nat) (x : EngineSt) : (s.setEng e x).atoms = s.atoms := rfl
@[simp] theorem State.setEng_held (e : Nat) (x : EngineSt) : (s.setEng e x).held = s.held := rfl
@[simp] theorem State.setEng_chans (e : Nat) (x : EngineSt) : (s.setEng e x).chans = s.chans := rfl
@[simp] theorem State.setEng_routers (e : Nat) (x : EngineSt) : (s.setEng e x).routers = s.routers := rfl
@[simp] theorem State.setEng_rtags (e : Nat) (x : EngineSt) : (s.setEng e x).rtags = s.rtags := rfl
@[simp] theorem State.setEng_reads (e : Nat) (x : EngineSt) : (s.setEng e x).reads = s.reads := rfl
@[simp] theorem State.setEng_ues (e : Nat) (x : EngineSt) : (s.setEng e x).ues = s.ues := rfl
@[simp] theorem State.setEng_pool (e : Nat) (x : EngineSt) : (s.setEng e x).pool = s.pool := rfl
@[simp] theorem State.setEng_poolMd (e : Nat) (x : EngineSt) : (s.setEng e x).poolMd = s.poolMd := rfl
@[simp] theorem State.setEng_poolCl (e : Nat) (x : EngineSt) : (s.setEng e x).poolCl = s.poolCl := rfl
@[simp] theorem State.setEng_pf (e : Nat) (x : EngineSt) : (s.setEng e x).pf = s.pf := rfl
@[simp] theorem State.setEng_bar (e : Nat) (x : EngineSt) : (s.setEng e x).bar = s.bar := rfl
@[simp] theorem State.setEng_wcSnap (e : Nat) (x : EngineSt) : (s.setEng e x).wcSnap = s.wcSnap := rfl
@[simp] theorem State.setEng_replays (e : Nat) (x : EngineSt) : (s.setEng e x).replays = s.replays := rfl
@[simp] theorem State.setEng_fenced (e : Nat) (x : EngineSt) : (s.setEng e x).fenced = s.fenced := rfl
@[simp] theorem State.setEng_mapChanged (e : Nat) (x : EngineSt) : (s.setEng e x).mapChanged = s.mapChanged := rfl
@[simp] theorem State.setEng_wakeReq (e : Nat) (x : EngineSt) : (s.setEng e x).wakeReq = s.wakeReq := rfl
@[simp] theorem State.setEng_prms (e : Nat) (x : EngineSt) : (s.setEng e x).prms = s.prms := rfl
@[simp] theorem State.setEng_upds (e : Nat) (x : EngineSt) : (s.setEng e x).upds = s.upds := rfl
@[simp] theorem State.setEng_snap (e : Nat) (x : EngineSt) : (s.setEng e x).snap = s.snap := rfl
@[simp] theorem State.setEng_ckpt (e : Nat) (x : EngineSt) : (s.setEng e x).ckpt = s.ckpt := rfl
@[simp] theorem State.setEng_arbLast (e : Nat) (x : EngineSt) : (s.setEng e x).arbLast = s.arbLast := rfl
@[simp] theorem State.setEng_copies (e : Nat) (x : EngineSt) : (s.setEng e x).copies = s.copies := rfl
@[simp] theorem State.setEng_sto (e : Nat) (x : EngineSt) : (s.setEng e x).sto = s.sto := rfl
@[simp] theorem State.setEng_regPend (e : Nat) (x : EngineSt) : (s.setEng e x).regPend = s.regPend := rfl
@[simp] theorem State.setEng_scaleRets (e : Nat) (x : EngineSt) : (s.setEng e x).scaleRets = s.scaleRets := rfl
@[simp] theorem State.setEng_netTrain (e : Nat) (x : EngineSt) : (s.setEng e x).netTrain = s.netTrain := rfl
@[simp] theorem State.setEng_slp (e : Nat) (x : EngineSt) : (s.setEng e x).slp = s.slp := rfl
@[simp] theorem State.setEng_fwTodo (e : Nat) (x : EngineSt) : (s.setEng e x).fwTodo = s.fwTodo := rfl
@[simp] theorem State.setEng_ibiByte (e : Nat) (x : EngineSt) : (s.setEng e x).ibiByte = s.ibiByte := rfl
@[simp] theorem State.setEng_freeIx (e : Nat) (x : EngineSt) : (s.setEng e x).freeIx = s.freeIx := rfl

/-! Replacing a drain changes `drains` alone. -/

@[simp] theorem State.setDr_pending (e : Nat) (x : DrainSt) : (s.setDr e x).pending = s.pending := rfl
@[simp] theorem State.setDr_lcnt (e : Nat) (x : DrainSt) : (s.setDr e x).lcnt = s.lcnt := rfl
@[simp] theorem State.setDr_regs (e : Nat) (x : DrainSt) : (s.setDr e x).regs = s.regs := rfl
@[simp] theorem State.setDr_lcntHiN (e : Nat) (x : DrainSt) : (s.setDr e x).lcntHiN = s.lcntHiN := rfl
@[simp] theorem State.setDr_lcntHiS (e : Nat) (x : DrainSt) : (s.setDr e x).lcntHiS = s.lcntHiS := rfl
@[simp] theorem State.setDr_energyHiN (e : Nat) (x : DrainSt) : (s.setDr e x).energyHiN = s.energyHiN := rfl
@[simp] theorem State.setDr_energyHiS (e : Nat) (x : DrainSt) : (s.setDr e x).energyHiS = s.energyHiS := rfl
@[simp] theorem State.setDr_energy (e : Nat) (x : DrainSt) : (s.setDr e x).energy = s.energy := rfl
@[simp] theorem State.setDr_energyRem (e : Nat) (x : DrainSt) : (s.setDr e x).energyRem = s.energyRem := rfl
@[simp] theorem State.setDr_mem (e : Nat) (x : DrainSt) : (s.setDr e x).mem = s.mem := rfl
@[simp] theorem State.setDr_pins (e : Nat) (x : DrainSt) : (s.setDr e x).pins = s.pins := rfl
@[simp] theorem State.setDr_out (e : Nat) (x : DrainSt) : (s.setDr e x).out = s.out := rfl
@[simp] theorem State.setDr_msix (e : Nat) (x : DrainSt) : (s.setDr e x).msix = s.msix := rfl
@[simp] theorem State.setDr_qLost (e : Nat) (x : DrainSt) : (s.setDr e x).qLost = s.qLost := rfl
@[simp] theorem State.setDr_fetched (e : Nat) (x : DrainSt) : (s.setDr e x).fetched = s.fetched := rfl
@[simp] theorem State.setDr_arbs (e : Nat) (x : DrainSt) : (s.setDr e x).arbs = s.arbs := rfl
@[simp] theorem State.setDr_fires (e : Nat) (x : DrainSt) : (s.setDr e x).fires = s.fires := rfl
@[simp] theorem State.setDr_procs (e : Nat) (x : DrainSt) : (s.setDr e x).procs = s.procs := rfl
@[simp] theorem State.setDr_faults (e : Nat) (x : DrainSt) : (s.setDr e x).faults = s.faults := rfl
@[simp] theorem State.setDr_lk (e : Nat) (x : DrainSt) : (s.setDr e x).lk = s.lk := rfl
@[simp] theorem State.setDr_boot (e : Nat) (x : DrainSt) : (s.setDr e x).boot = s.boot := rfl
@[simp] theorem State.setDr_sec (e : Nat) (x : DrainSt) : (s.setDr e x).sec = s.sec := rfl
@[simp] theorem State.setDr_nor (e : Nat) (x : DrainSt) : (s.setDr e x).nor = s.nor := rfl
@[simp] theorem State.setDr_cores (e : Nat) (x : DrainSt) : (s.setDr e x).cores = s.cores := rfl
@[simp] theorem State.setDr_engines (e : Nat) (x : DrainSt) : (s.setDr e x).engines = s.engines := rfl
@[simp] theorem State.setDr_streams (e : Nat) (x : DrainSt) : (s.setDr e x).streams = s.streams := rfl
@[simp] theorem State.setDr_sect (e : Nat) (x : DrainSt) : (s.setDr e x).sect = s.sect := rfl
@[simp] theorem State.setDr_saved (e : Nat) (x : DrainSt) : (s.setDr e x).saved = s.saved := rfl
@[simp] theorem State.setDr_examine (e : Nat) (x : DrainSt) : (s.setDr e x).examine = s.examine := rfl
@[simp] theorem State.setDr_job (e : Nat) (x : DrainSt) : (s.setDr e x).job = s.job := rfl
@[simp] theorem State.setDr_hbmLast (e : Nat) (x : DrainSt) : (s.setDr e x).hbmLast = s.hbmLast := rfl
@[simp] theorem State.setDr_node (e : Nat) (x : DrainSt) : (s.setDr e x).node = s.node := rfl
@[simp] theorem State.setDr_fabIn (e : Nat) (x : DrainSt) : (s.setDr e x).fabIn = s.fabIn := rfl
@[simp] theorem State.setDr_ports (e : Nat) (x : DrainSt) : (s.setDr e x).ports = s.ports := rfl
@[simp] theorem State.setDr_xfers (e : Nat) (x : DrainSt) : (s.setDr e x).xfers = s.xfers := rfl
@[simp] theorem State.setDr_reqs (e : Nat) (x : DrainSt) : (s.setDr e x).reqs = s.reqs := rfl
@[simp] theorem State.setDr_nextTag (e : Nat) (x : DrainSt) : (s.setDr e x).nextTag = s.nextTag := rfl
@[simp] theorem State.setDr_atoms (e : Nat) (x : DrainSt) : (s.setDr e x).atoms = s.atoms := rfl
@[simp] theorem State.setDr_held (e : Nat) (x : DrainSt) : (s.setDr e x).held = s.held := rfl
@[simp] theorem State.setDr_chans (e : Nat) (x : DrainSt) : (s.setDr e x).chans = s.chans := rfl
@[simp] theorem State.setDr_routers (e : Nat) (x : DrainSt) : (s.setDr e x).routers = s.routers := rfl
@[simp] theorem State.setDr_rtags (e : Nat) (x : DrainSt) : (s.setDr e x).rtags = s.rtags := rfl
@[simp] theorem State.setDr_reads (e : Nat) (x : DrainSt) : (s.setDr e x).reads = s.reads := rfl
@[simp] theorem State.setDr_ues (e : Nat) (x : DrainSt) : (s.setDr e x).ues = s.ues := rfl
@[simp] theorem State.setDr_pool (e : Nat) (x : DrainSt) : (s.setDr e x).pool = s.pool := rfl
@[simp] theorem State.setDr_poolMd (e : Nat) (x : DrainSt) : (s.setDr e x).poolMd = s.poolMd := rfl
@[simp] theorem State.setDr_poolCl (e : Nat) (x : DrainSt) : (s.setDr e x).poolCl = s.poolCl := rfl
@[simp] theorem State.setDr_pf (e : Nat) (x : DrainSt) : (s.setDr e x).pf = s.pf := rfl
@[simp] theorem State.setDr_bar (e : Nat) (x : DrainSt) : (s.setDr e x).bar = s.bar := rfl
@[simp] theorem State.setDr_wcSnap (e : Nat) (x : DrainSt) : (s.setDr e x).wcSnap = s.wcSnap := rfl
@[simp] theorem State.setDr_replays (e : Nat) (x : DrainSt) : (s.setDr e x).replays = s.replays := rfl
@[simp] theorem State.setDr_fenced (e : Nat) (x : DrainSt) : (s.setDr e x).fenced = s.fenced := rfl
@[simp] theorem State.setDr_mapChanged (e : Nat) (x : DrainSt) : (s.setDr e x).mapChanged = s.mapChanged := rfl
@[simp] theorem State.setDr_wakeReq (e : Nat) (x : DrainSt) : (s.setDr e x).wakeReq = s.wakeReq := rfl
@[simp] theorem State.setDr_prms (e : Nat) (x : DrainSt) : (s.setDr e x).prms = s.prms := rfl
@[simp] theorem State.setDr_upds (e : Nat) (x : DrainSt) : (s.setDr e x).upds = s.upds := rfl
@[simp] theorem State.setDr_snap (e : Nat) (x : DrainSt) : (s.setDr e x).snap = s.snap := rfl
@[simp] theorem State.setDr_ckpt (e : Nat) (x : DrainSt) : (s.setDr e x).ckpt = s.ckpt := rfl
@[simp] theorem State.setDr_arbLast (e : Nat) (x : DrainSt) : (s.setDr e x).arbLast = s.arbLast := rfl
@[simp] theorem State.setDr_copies (e : Nat) (x : DrainSt) : (s.setDr e x).copies = s.copies := rfl
@[simp] theorem State.setDr_sto (e : Nat) (x : DrainSt) : (s.setDr e x).sto = s.sto := rfl
@[simp] theorem State.setDr_regPend (e : Nat) (x : DrainSt) : (s.setDr e x).regPend = s.regPend := rfl
@[simp] theorem State.setDr_scaleRets (e : Nat) (x : DrainSt) : (s.setDr e x).scaleRets = s.scaleRets := rfl
@[simp] theorem State.setDr_netTrain (e : Nat) (x : DrainSt) : (s.setDr e x).netTrain = s.netTrain := rfl
@[simp] theorem State.setDr_slp (e : Nat) (x : DrainSt) : (s.setDr e x).slp = s.slp := rfl
@[simp] theorem State.setDr_fwTodo (e : Nat) (x : DrainSt) : (s.setDr e x).fwTodo = s.fwTodo := rfl
@[simp] theorem State.setDr_ibiByte (e : Nat) (x : DrainSt) : (s.setDr e x).ibiByte = s.ibiByte := rfl
@[simp] theorem State.setDr_freeIx (e : Nat) (x : DrainSt) : (s.setDr e x).freeIx = s.freeIx := rfl

/-! Replacing a stream changes `streams` alone. -/

@[simp] theorem State.setStrm_pending (x : StreamSt) : (s.setStrm x).pending = s.pending := rfl
@[simp] theorem State.setStrm_lcnt (x : StreamSt) : (s.setStrm x).lcnt = s.lcnt := rfl
@[simp] theorem State.setStrm_regs (x : StreamSt) : (s.setStrm x).regs = s.regs := rfl
@[simp] theorem State.setStrm_lcntHiN (x : StreamSt) : (s.setStrm x).lcntHiN = s.lcntHiN := rfl
@[simp] theorem State.setStrm_lcntHiS (x : StreamSt) : (s.setStrm x).lcntHiS = s.lcntHiS := rfl
@[simp] theorem State.setStrm_energyHiN (x : StreamSt) : (s.setStrm x).energyHiN = s.energyHiN := rfl
@[simp] theorem State.setStrm_energyHiS (x : StreamSt) : (s.setStrm x).energyHiS = s.energyHiS := rfl
@[simp] theorem State.setStrm_energy (x : StreamSt) : (s.setStrm x).energy = s.energy := rfl
@[simp] theorem State.setStrm_energyRem (x : StreamSt) : (s.setStrm x).energyRem = s.energyRem := rfl
@[simp] theorem State.setStrm_mem (x : StreamSt) : (s.setStrm x).mem = s.mem := rfl
@[simp] theorem State.setStrm_pins (x : StreamSt) : (s.setStrm x).pins = s.pins := rfl
@[simp] theorem State.setStrm_out (x : StreamSt) : (s.setStrm x).out = s.out := rfl
@[simp] theorem State.setStrm_msix (x : StreamSt) : (s.setStrm x).msix = s.msix := rfl
@[simp] theorem State.setStrm_qLost (x : StreamSt) : (s.setStrm x).qLost = s.qLost := rfl
@[simp] theorem State.setStrm_fetched (x : StreamSt) : (s.setStrm x).fetched = s.fetched := rfl
@[simp] theorem State.setStrm_arbs (x : StreamSt) : (s.setStrm x).arbs = s.arbs := rfl
@[simp] theorem State.setStrm_fires (x : StreamSt) : (s.setStrm x).fires = s.fires := rfl
@[simp] theorem State.setStrm_procs (x : StreamSt) : (s.setStrm x).procs = s.procs := rfl
@[simp] theorem State.setStrm_faults (x : StreamSt) : (s.setStrm x).faults = s.faults := rfl
@[simp] theorem State.setStrm_lk (x : StreamSt) : (s.setStrm x).lk = s.lk := rfl
@[simp] theorem State.setStrm_boot (x : StreamSt) : (s.setStrm x).boot = s.boot := rfl
@[simp] theorem State.setStrm_sec (x : StreamSt) : (s.setStrm x).sec = s.sec := rfl
@[simp] theorem State.setStrm_nor (x : StreamSt) : (s.setStrm x).nor = s.nor := rfl
@[simp] theorem State.setStrm_cores (x : StreamSt) : (s.setStrm x).cores = s.cores := rfl
@[simp] theorem State.setStrm_engines (x : StreamSt) : (s.setStrm x).engines = s.engines := rfl
@[simp] theorem State.setStrm_drains (x : StreamSt) : (s.setStrm x).drains = s.drains := rfl
@[simp] theorem State.setStrm_sect (x : StreamSt) : (s.setStrm x).sect = s.sect := rfl
@[simp] theorem State.setStrm_saved (x : StreamSt) : (s.setStrm x).saved = s.saved := rfl
@[simp] theorem State.setStrm_examine (x : StreamSt) : (s.setStrm x).examine = s.examine := rfl
@[simp] theorem State.setStrm_job (x : StreamSt) : (s.setStrm x).job = s.job := rfl
@[simp] theorem State.setStrm_hbmLast (x : StreamSt) : (s.setStrm x).hbmLast = s.hbmLast := rfl
@[simp] theorem State.setStrm_node (x : StreamSt) : (s.setStrm x).node = s.node := rfl
@[simp] theorem State.setStrm_fabIn (x : StreamSt) : (s.setStrm x).fabIn = s.fabIn := rfl
@[simp] theorem State.setStrm_ports (x : StreamSt) : (s.setStrm x).ports = s.ports := rfl
@[simp] theorem State.setStrm_xfers (x : StreamSt) : (s.setStrm x).xfers = s.xfers := rfl
@[simp] theorem State.setStrm_reqs (x : StreamSt) : (s.setStrm x).reqs = s.reqs := rfl
@[simp] theorem State.setStrm_nextTag (x : StreamSt) : (s.setStrm x).nextTag = s.nextTag := rfl
@[simp] theorem State.setStrm_atoms (x : StreamSt) : (s.setStrm x).atoms = s.atoms := rfl
@[simp] theorem State.setStrm_held (x : StreamSt) : (s.setStrm x).held = s.held := rfl
@[simp] theorem State.setStrm_chans (x : StreamSt) : (s.setStrm x).chans = s.chans := rfl
@[simp] theorem State.setStrm_routers (x : StreamSt) : (s.setStrm x).routers = s.routers := rfl
@[simp] theorem State.setStrm_rtags (x : StreamSt) : (s.setStrm x).rtags = s.rtags := rfl
@[simp] theorem State.setStrm_reads (x : StreamSt) : (s.setStrm x).reads = s.reads := rfl
@[simp] theorem State.setStrm_ues (x : StreamSt) : (s.setStrm x).ues = s.ues := rfl
@[simp] theorem State.setStrm_pool (x : StreamSt) : (s.setStrm x).pool = s.pool := rfl
@[simp] theorem State.setStrm_poolMd (x : StreamSt) : (s.setStrm x).poolMd = s.poolMd := rfl
@[simp] theorem State.setStrm_poolCl (x : StreamSt) : (s.setStrm x).poolCl = s.poolCl := rfl
@[simp] theorem State.setStrm_pf (x : StreamSt) : (s.setStrm x).pf = s.pf := rfl
@[simp] theorem State.setStrm_bar (x : StreamSt) : (s.setStrm x).bar = s.bar := rfl
@[simp] theorem State.setStrm_wcSnap (x : StreamSt) : (s.setStrm x).wcSnap = s.wcSnap := rfl
@[simp] theorem State.setStrm_replays (x : StreamSt) : (s.setStrm x).replays = s.replays := rfl
@[simp] theorem State.setStrm_fenced (x : StreamSt) : (s.setStrm x).fenced = s.fenced := rfl
@[simp] theorem State.setStrm_mapChanged (x : StreamSt) : (s.setStrm x).mapChanged = s.mapChanged := rfl
@[simp] theorem State.setStrm_wakeReq (x : StreamSt) : (s.setStrm x).wakeReq = s.wakeReq := rfl
@[simp] theorem State.setStrm_prms (x : StreamSt) : (s.setStrm x).prms = s.prms := rfl
@[simp] theorem State.setStrm_upds (x : StreamSt) : (s.setStrm x).upds = s.upds := rfl
@[simp] theorem State.setStrm_snap (x : StreamSt) : (s.setStrm x).snap = s.snap := rfl
@[simp] theorem State.setStrm_ckpt (x : StreamSt) : (s.setStrm x).ckpt = s.ckpt := rfl
@[simp] theorem State.setStrm_arbLast (x : StreamSt) : (s.setStrm x).arbLast = s.arbLast := rfl
@[simp] theorem State.setStrm_copies (x : StreamSt) : (s.setStrm x).copies = s.copies := rfl
@[simp] theorem State.setStrm_sto (x : StreamSt) : (s.setStrm x).sto = s.sto := rfl
@[simp] theorem State.setStrm_regPend (x : StreamSt) : (s.setStrm x).regPend = s.regPend := rfl
@[simp] theorem State.setStrm_scaleRets (x : StreamSt) : (s.setStrm x).scaleRets = s.scaleRets := rfl
@[simp] theorem State.setStrm_netTrain (x : StreamSt) : (s.setStrm x).netTrain = s.netTrain := rfl
@[simp] theorem State.setStrm_slp (x : StreamSt) : (s.setStrm x).slp = s.slp := rfl
@[simp] theorem State.setStrm_fwTodo (x : StreamSt) : (s.setStrm x).fwTodo = s.fwTodo := rfl
@[simp] theorem State.setStrm_ibiByte (x : StreamSt) : (s.setStrm x).ibiByte = s.ibiByte := rfl
@[simp] theorem State.setStrm_freeIx (x : StreamSt) : (s.setStrm x).freeIx = s.freeIx := rfl

/-! Replacing a port changes `ports` alone. -/

@[simp] theorem State.setPort_pending (p : Nat) (x : PortSt) : (s.setPort p x).pending = s.pending := rfl
@[simp] theorem State.setPort_lcnt (p : Nat) (x : PortSt) : (s.setPort p x).lcnt = s.lcnt := rfl
@[simp] theorem State.setPort_regs (p : Nat) (x : PortSt) : (s.setPort p x).regs = s.regs := rfl
@[simp] theorem State.setPort_lcntHiN (p : Nat) (x : PortSt) : (s.setPort p x).lcntHiN = s.lcntHiN := rfl
@[simp] theorem State.setPort_lcntHiS (p : Nat) (x : PortSt) : (s.setPort p x).lcntHiS = s.lcntHiS := rfl
@[simp] theorem State.setPort_energyHiN (p : Nat) (x : PortSt) : (s.setPort p x).energyHiN = s.energyHiN := rfl
@[simp] theorem State.setPort_energyHiS (p : Nat) (x : PortSt) : (s.setPort p x).energyHiS = s.energyHiS := rfl
@[simp] theorem State.setPort_energy (p : Nat) (x : PortSt) : (s.setPort p x).energy = s.energy := rfl
@[simp] theorem State.setPort_energyRem (p : Nat) (x : PortSt) : (s.setPort p x).energyRem = s.energyRem := rfl
@[simp] theorem State.setPort_mem (p : Nat) (x : PortSt) : (s.setPort p x).mem = s.mem := rfl
@[simp] theorem State.setPort_pins (p : Nat) (x : PortSt) : (s.setPort p x).pins = s.pins := rfl
@[simp] theorem State.setPort_out (p : Nat) (x : PortSt) : (s.setPort p x).out = s.out := rfl
@[simp] theorem State.setPort_msix (p : Nat) (x : PortSt) : (s.setPort p x).msix = s.msix := rfl
@[simp] theorem State.setPort_qLost (p : Nat) (x : PortSt) : (s.setPort p x).qLost = s.qLost := rfl
@[simp] theorem State.setPort_fetched (p : Nat) (x : PortSt) : (s.setPort p x).fetched = s.fetched := rfl
@[simp] theorem State.setPort_arbs (p : Nat) (x : PortSt) : (s.setPort p x).arbs = s.arbs := rfl
@[simp] theorem State.setPort_fires (p : Nat) (x : PortSt) : (s.setPort p x).fires = s.fires := rfl
@[simp] theorem State.setPort_procs (p : Nat) (x : PortSt) : (s.setPort p x).procs = s.procs := rfl
@[simp] theorem State.setPort_faults (p : Nat) (x : PortSt) : (s.setPort p x).faults = s.faults := rfl
@[simp] theorem State.setPort_lk (p : Nat) (x : PortSt) : (s.setPort p x).lk = s.lk := rfl
@[simp] theorem State.setPort_boot (p : Nat) (x : PortSt) : (s.setPort p x).boot = s.boot := rfl
@[simp] theorem State.setPort_sec (p : Nat) (x : PortSt) : (s.setPort p x).sec = s.sec := rfl
@[simp] theorem State.setPort_nor (p : Nat) (x : PortSt) : (s.setPort p x).nor = s.nor := rfl
@[simp] theorem State.setPort_cores (p : Nat) (x : PortSt) : (s.setPort p x).cores = s.cores := rfl
@[simp] theorem State.setPort_engines (p : Nat) (x : PortSt) : (s.setPort p x).engines = s.engines := rfl
@[simp] theorem State.setPort_drains (p : Nat) (x : PortSt) : (s.setPort p x).drains = s.drains := rfl
@[simp] theorem State.setPort_streams (p : Nat) (x : PortSt) : (s.setPort p x).streams = s.streams := rfl
@[simp] theorem State.setPort_sect (p : Nat) (x : PortSt) : (s.setPort p x).sect = s.sect := rfl
@[simp] theorem State.setPort_saved (p : Nat) (x : PortSt) : (s.setPort p x).saved = s.saved := rfl
@[simp] theorem State.setPort_examine (p : Nat) (x : PortSt) : (s.setPort p x).examine = s.examine := rfl
@[simp] theorem State.setPort_job (p : Nat) (x : PortSt) : (s.setPort p x).job = s.job := rfl
@[simp] theorem State.setPort_hbmLast (p : Nat) (x : PortSt) : (s.setPort p x).hbmLast = s.hbmLast := rfl
@[simp] theorem State.setPort_node (p : Nat) (x : PortSt) : (s.setPort p x).node = s.node := rfl
@[simp] theorem State.setPort_fabIn (p : Nat) (x : PortSt) : (s.setPort p x).fabIn = s.fabIn := rfl
@[simp] theorem State.setPort_xfers (p : Nat) (x : PortSt) : (s.setPort p x).xfers = s.xfers := rfl
@[simp] theorem State.setPort_reqs (p : Nat) (x : PortSt) : (s.setPort p x).reqs = s.reqs := rfl
@[simp] theorem State.setPort_nextTag (p : Nat) (x : PortSt) : (s.setPort p x).nextTag = s.nextTag := rfl
@[simp] theorem State.setPort_atoms (p : Nat) (x : PortSt) : (s.setPort p x).atoms = s.atoms := rfl
@[simp] theorem State.setPort_held (p : Nat) (x : PortSt) : (s.setPort p x).held = s.held := rfl
@[simp] theorem State.setPort_chans (p : Nat) (x : PortSt) : (s.setPort p x).chans = s.chans := rfl
@[simp] theorem State.setPort_routers (p : Nat) (x : PortSt) : (s.setPort p x).routers = s.routers := rfl
@[simp] theorem State.setPort_rtags (p : Nat) (x : PortSt) : (s.setPort p x).rtags = s.rtags := rfl
@[simp] theorem State.setPort_reads (p : Nat) (x : PortSt) : (s.setPort p x).reads = s.reads := rfl
@[simp] theorem State.setPort_ues (p : Nat) (x : PortSt) : (s.setPort p x).ues = s.ues := rfl
@[simp] theorem State.setPort_pool (p : Nat) (x : PortSt) : (s.setPort p x).pool = s.pool := rfl
@[simp] theorem State.setPort_poolMd (p : Nat) (x : PortSt) : (s.setPort p x).poolMd = s.poolMd := rfl
@[simp] theorem State.setPort_poolCl (p : Nat) (x : PortSt) : (s.setPort p x).poolCl = s.poolCl := rfl
@[simp] theorem State.setPort_pf (p : Nat) (x : PortSt) : (s.setPort p x).pf = s.pf := rfl
@[simp] theorem State.setPort_bar (p : Nat) (x : PortSt) : (s.setPort p x).bar = s.bar := rfl
@[simp] theorem State.setPort_wcSnap (p : Nat) (x : PortSt) : (s.setPort p x).wcSnap = s.wcSnap := rfl
@[simp] theorem State.setPort_replays (p : Nat) (x : PortSt) : (s.setPort p x).replays = s.replays := rfl
@[simp] theorem State.setPort_fenced (p : Nat) (x : PortSt) : (s.setPort p x).fenced = s.fenced := rfl
@[simp] theorem State.setPort_mapChanged (p : Nat) (x : PortSt) : (s.setPort p x).mapChanged = s.mapChanged := rfl
@[simp] theorem State.setPort_wakeReq (p : Nat) (x : PortSt) : (s.setPort p x).wakeReq = s.wakeReq := rfl
@[simp] theorem State.setPort_prms (p : Nat) (x : PortSt) : (s.setPort p x).prms = s.prms := rfl
@[simp] theorem State.setPort_upds (p : Nat) (x : PortSt) : (s.setPort p x).upds = s.upds := rfl
@[simp] theorem State.setPort_snap (p : Nat) (x : PortSt) : (s.setPort p x).snap = s.snap := rfl
@[simp] theorem State.setPort_ckpt (p : Nat) (x : PortSt) : (s.setPort p x).ckpt = s.ckpt := rfl
@[simp] theorem State.setPort_arbLast (p : Nat) (x : PortSt) : (s.setPort p x).arbLast = s.arbLast := rfl
@[simp] theorem State.setPort_copies (p : Nat) (x : PortSt) : (s.setPort p x).copies = s.copies := rfl
@[simp] theorem State.setPort_sto (p : Nat) (x : PortSt) : (s.setPort p x).sto = s.sto := rfl
@[simp] theorem State.setPort_regPend (p : Nat) (x : PortSt) : (s.setPort p x).regPend = s.regPend := rfl
@[simp] theorem State.setPort_scaleRets (p : Nat) (x : PortSt) : (s.setPort p x).scaleRets = s.scaleRets := rfl
@[simp] theorem State.setPort_netTrain (p : Nat) (x : PortSt) : (s.setPort p x).netTrain = s.netTrain := rfl
@[simp] theorem State.setPort_slp (p : Nat) (x : PortSt) : (s.setPort p x).slp = s.slp := rfl
@[simp] theorem State.setPort_fwTodo (p : Nat) (x : PortSt) : (s.setPort p x).fwTodo = s.fwTodo := rfl
@[simp] theorem State.setPort_ibiByte (p : Nat) (x : PortSt) : (s.setPort p x).ibiByte = s.ibiByte := rfl
@[simp] theorem State.setPort_freeIx (p : Nat) (x : PortSt) : (s.setPort p x).freeIx = s.freeIx := rfl

end Sys2Proof.Machine
end

