-- ==== Sys2Proof/Laws/Tab.lean ====
section
/-! SUPPORT. What a table reads after a write, for any table, and that writes keep the canonical form. -/

namespace Sys2Proof.Machine

variable {α : Type}

@[simp] theorem Tab.get_empty (k : Nat) (d : α) : (Tab.empty : Tab α).get k d = d := rfl

theorem Tab.find_drop_same (es : List (Nat × α)) (k : Nat) : Tab.find (Tab.drop es k) k = none := by
  induction es with
  | nil => rfl
  | cons e es ih =>
    obtain ⟨k', v⟩ := e
    by_cases h : k' = k
    · simpa [Tab.drop, h] using ih
    · simp [Tab.drop, Tab.find, h, ih]

theorem Tab.find_drop_other (es : List (Nat × α)) {k k' : Nat} (h : k ≠ k') :
    Tab.find (Tab.drop es k) k' = Tab.find es k' := by
  induction es with
  | nil => rfl
  | cons e es ih =>
    obtain ⟨a, v⟩ := e
    by_cases hk : a = k
    · subst hk; simp [Tab.drop, Tab.find, h, ih]
    · by_cases ha : a = k'
      · subst ha; simp [Tab.drop, Tab.find, hk]
      · simp [Tab.drop, Tab.find, hk, ha, ih]

theorem Tab.find_ins_same (es : List (Nat × α)) (k : Nat) (v : α) : Tab.find (Tab.ins es k v) k = some v := by
  induction es with
  | nil => simp [Tab.ins, Tab.find]
  | cons e es ih =>
    obtain ⟨a, w⟩ := e
    by_cases ha : a = k
    · simp [Tab.ins, Tab.find, ha]
    · by_cases hl : k < a <;> simp [Tab.ins, Tab.find, ha, hl, ih]

theorem Tab.find_ins_other (es : List (Nat × α)) {k k' : Nat} (v : α) (h : k ≠ k') :
    Tab.find (Tab.ins es k v) k' = Tab.find es k' := by
  induction es with
  | nil => simp [Tab.ins, Tab.find, h]
  | cons e es ih =>
    obtain ⟨a, w⟩ := e
    by_cases ha : a = k
    · subst ha; simp [Tab.ins, Tab.find, h]
    · by_cases hl : k < a
      · simp [Tab.ins, Tab.find, ha, hl, h]
      · by_cases hb : a = k'
        · subst hb; simp [Tab.ins, Tab.find, ha, hl]
        · simp [Tab.ins, Tab.find, ha, hl, hb, ih]

/-- A key reads what was last written to it. -/
theorem Tab.get_set_same [DecidableEq α] (t : Tab α) (k : Nat) (d v : α) : (t.set k d v).get k d = v := by
  by_cases h : v = d
  · simp [Tab.set, Tab.get, h, Tab.find_drop_same]
  · simp [Tab.set, Tab.get, h, Tab.find_ins_same]

/-- A write leaves every other key as it was. -/
theorem Tab.get_set_other [DecidableEq α] (t : Tab α) {k k' : Nat} (d v e : α) (h : k ≠ k') :
    (t.set k d v).get k' e = t.get k' e := by
  by_cases hv : v = d
  · simp [Tab.set, Tab.get, hv, Tab.find_drop_other _ h]
  · simp [Tab.set, Tab.get, hv, Tab.find_ins_other _ _ h]

theorem Tab.get_set [DecidableEq α] (t : Tab α) (k k' : Nat) (d v : α) :
    (t.set k d v).get k' d = if k = k' then v else t.get k' d := by
  by_cases h : k = k'
  · subst h; simp [Tab.get_set_same]
  · simp [h, Tab.get_set_other t d v d h]

/-! ## The canonical form -/

/-- Keys strictly rising from above `lo`, as a proposition. -/
def Tab.Rising : Option Nat → List (Nat × α) → Prop
  | _, [] => True
  | lo, e :: es => (∀ p, lo = some p → p < e.1) ∧ Tab.Rising (some e.1) es

theorem Tab.rising_iff (lo : Option Nat) (es : List (Nat × α)) : Tab.rising lo es = true ↔ Tab.Rising lo es := by
  induction es generalizing lo with
  | nil => cases lo <;> simp [Tab.rising, Tab.Rising]
  | cons e es ih =>
    obtain ⟨k, v⟩ := e
    cases lo <;> simp [Tab.rising, Tab.Rising, ih]

theorem Tab.Rising.weaken {lo lo' : Option Nat} {es : List (Nat × α)} (h : Tab.Rising lo es)
    (hl : ∀ p, lo' = some p → ∃ q, lo = some q ∧ p ≤ q) : Tab.Rising lo' es := by
  cases es with
  | nil => trivial
  | cons e es =>
    refine ⟨fun p hp => ?_, h.2⟩
    obtain ⟨q, hq, hpq⟩ := hl p hp
    exact Nat.lt_of_le_of_lt hpq (h.1 q hq)

theorem Tab.Rising.drop {lo : Option Nat} {es : List (Nat × α)} (h : Tab.Rising lo es) (k : Nat) :
    Tab.Rising lo (Tab.drop es k) := by
  induction es generalizing lo with
  | nil => trivial
  | cons e es ih =>
    obtain ⟨a, v⟩ := e
    by_cases ha : a = k
    · simp only [Tab.drop, ha, ite_true]
      refine ih (h.2.weaken fun p hp => ⟨a, rfl, Nat.le_of_lt (h.1 p hp)⟩)
    · simp only [Tab.drop, ha, ite_false]
      exact ⟨h.1, ih h.2⟩

theorem Tab.Rising.ins {lo : Option Nat} {es : List (Nat × α)} (h : Tab.Rising lo es) (k : Nat) (v : α)
    (hk : ∀ p, lo = some p → p < k) : Tab.Rising lo (Tab.ins es k v) := by
  induction es generalizing lo with
  | nil => exact ⟨hk, trivial⟩
  | cons e es ih =>
    obtain ⟨a, w⟩ := e
    by_cases ha : a = k
    · subst ha; simp only [Tab.ins, ite_true]; exact ⟨h.1, h.2⟩
    · by_cases hl : k < a
      · simp only [Tab.ins, ha, hl, ite_true, ite_false]
        exact ⟨hk, fun p hp => by cases hp; exact hl, h.2⟩
      · simp only [Tab.ins, ha, hl, ite_false]
        exact ⟨h.1, ih h.2 fun p hp => by cases hp; omega⟩

theorem Tab.mem_drop {es : List (Nat × α)} {k : Nat} {e : Nat × α} (h : e ∈ Tab.drop es k) : e ∈ es := by
  induction es with
  | nil => simp [Tab.drop] at h
  | cons x es ih =>
    obtain ⟨a, v⟩ := x
    by_cases ha : a = k
    · simp only [Tab.drop, ha, ite_true] at h; exact List.mem_cons_of_mem _ (ih h)
    · simp only [Tab.drop, ha, ite_false, List.mem_cons] at h
      rcases h with h | h
      · simp [h]
      · exact List.mem_cons_of_mem _ (ih h)

theorem Tab.mem_ins {es : List (Nat × α)} {k : Nat} {v : α} {e : Nat × α} (h : e ∈ Tab.ins es k v) :
    e = (k, v) ∨ e ∈ es := by
  induction es with
  | nil => simpa [Tab.ins] using h
  | cons x es ih =>
    obtain ⟨a, w⟩ := x
    by_cases ha : a = k
    · simp only [Tab.ins, ha, ite_true, List.mem_cons] at h
      rcases h with h | h
      · exact .inl h
      · exact .inr (List.mem_cons_of_mem _ h)
    · by_cases hl : k < a
      · simp only [Tab.ins, ha, hl, ite_true, ite_false, List.mem_cons] at h ⊢
        exact h
      · simp only [Tab.ins, ha, hl, ite_false, List.mem_cons] at h
        rcases h with h | h
        · exact .inr (by simp [h])
        · rcases ih h with h | h
          · exact .inl h
          · exact .inr (List.mem_cons_of_mem _ h)

theorem Tab.Rising.filter {lo : Option Nat} {es : List (Nat × α)} (h : Tab.Rising lo es) (p : Nat × α → Bool) :
    Tab.Rising lo (es.filter p) := by
  induction es generalizing lo with
  | nil => trivial
  | cons e es ih =>
    by_cases hp : p e = true
    · simp only [List.filter, hp]; exact ⟨h.1, ih h.2⟩
    · simp only [List.filter, hp]
      exact ih (h.2.weaken fun q hq => ⟨e.1, rfl, Nat.le_of_lt (h.1 q hq)⟩)

variable [DecidableEq α]

/-- The canonical form in words: rising keys, and no entry equal to its key's default. -/
theorem Tab.wf_iff (t : Tab α) (d : Nat → α) :
    t.wf d = true ↔ Tab.Rising none t.ents ∧ ∀ e ∈ t.ents, e.2 ≠ d e.1 := by
  simp [Tab.wf, Tab.rising_iff]

theorem Tab.wf_empty (d : Nat → α) : (Tab.empty : Tab α).wf d = true := rfl

/-- Writing a key under its default keeps the canonical form. -/
theorem Tab.wf_set {t : Tab α} {d : Nat → α} (h : t.wf d = true) (k : Nat) (v : α) : (t.set k (d k) v).wf d = true := by
  rw [Tab.wf_iff] at h ⊢
  by_cases hv : v = d k
  · simp only [Tab.set, hv, ite_true]
    exact ⟨h.1.drop k, fun e he => h.2 e (Tab.mem_drop he)⟩
  · simp only [Tab.set, hv, ite_false]
    refine ⟨h.1.ins k v (by simp), fun e he => ?_⟩
    rcases Tab.mem_ins he with rfl | he
    · exact hv
    · exact h.2 e he

/-- Forgetting keys keeps the canonical form. -/
theorem Tab.wf_clear {t : Tab α} {d : Nat → α} (h : t.wf d = true) (p : Nat → Bool) : (t.clear p).wf d = true := by
  rw [Tab.wf_iff] at h ⊢
  exact ⟨h.1.filter _, fun e he => h.2 e (List.mem_filter.mp he).1⟩

end Sys2Proof.Machine
end

