-- ==== Sys2Proof/Laws/Memory.lean ====
section
/-! SUPPORT. Memory: what a byte reads after a write, and that every memory operation keeps the canonical form. -/

namespace Sys2Proof.Machine

variable (s : State)

/-- A byte reads what was last written to it. -/
@[simp] theorem State.byte_setByte_same (a : Nat) (b : Byte) : (s.setByte a b).byte a = b := by
  simp [State.byte, State.setByte, Tab.get_set_same]

/-- Another byte reads as before. -/
theorem State.byte_setByte_other {a c : Nat} (b : Byte) (h : c ≠ a) : (s.setByte a b).byte c = s.byte c :=
  Tab.get_set_other _ _ _ _ (Ne.symm h)

/-- A byte below or above the range written reads as before. -/
theorem get_memWrite_outside (bs : List Byte) : ∀ (m : Tab Byte) (a c : Nat), c < a ∨ a + bs.length ≤ c → (memWrite m a bs).get c 0 = m.get c 0 := by
  induction bs with
  | nil => intro m a c _; rfl
  | cons b bs ih =>
    intro m a c h
    rw [List.length_cons] at h
    rw [memWrite, ih _ _ _ (by omega), Tab.get_set_other _ _ _ _ (by omega)]

/-- A byte inside the range reads what was written there. -/
theorem get_memWrite_inside (bs : List Byte) : ∀ (m : Tab Byte) (a k : Nat) (h : k < bs.length), (memWrite m a bs).get (a + k) 0 = bs[k] := by
  induction bs with
  | nil => intro m a k h; cases h
  | cons b bs ih =>
    intro m a k h
    rw [memWrite]
    cases k with
    | zero =>
      rw [get_memWrite_outside _ _ _ _ (by omega)]
      exact Tab.get_set_same _ _ _ _
    | succ k =>
      rw [show a + (k + 1) = a + 1 + k from by omega, ih _ _ _ (by simpa using h)]
      rfl

theorem State.byte_setBytes_outside {a c : Nat} {bs : List Byte} (h : c < a ∨ a + bs.length ≤ c) : (s.setBytes a bs).byte c = s.byte c :=
  get_memWrite_outside bs s.mem a c h

theorem State.byte_setBytes_inside {a k : Nat} {bs : List Byte} (h : k < bs.length) : (s.setBytes a bs).byte (a + k) = bs[k] :=
  get_memWrite_inside bs s.mem a k h

@[simp] theorem leBytes_length (n v : Nat) : (leBytes n v).length = n := by
  induction n generalizing v with
  | zero => rfl
  | succ n ih => simp [leBytes, ih]

@[simp] theorem State.bytes_length (a n : Nat) : (s.bytes a n).length = n := by simp [State.bytes]

/-- The bytes written are read back. -/
@[simp] theorem State.bytes_setBytes_same (a : Nat) (bs : List Byte) : (s.setBytes a bs).bytes a bs.length = bs := by
  apply List.ext_getElem (by simp)
  intro k h1 h2
  simp [State.bytes, s.byte_setBytes_inside h2]

/-- Bytes elsewhere read as before. -/
theorem State.bytes_setBytes_outside {a c n : Nat} {bs : List Byte} (h : c + n ≤ a ∨ a + bs.length ≤ c) :
    (s.setBytes a bs).bytes c n = s.bytes c n := by
  refine List.map_congr_left fun k hk => s.byte_setBytes_outside ?_
  have := List.mem_range.mp hk
  omega

theorem leNat_leBytes (n v : Nat) : leNat (leBytes n v) = v % 256 ^ n := by
  induction n generalizing v with
  | zero => simp [leBytes, leNat, Nat.mod_one]
  | succ n ih =>
    rw [leBytes, leNat, ih, Nat.pow_succ, Nat.mul_comm (256 ^ n), Nat.mod_mul, BitVec.toNat_ofNat]

/-- A number is read back, modulo its width. -/
theorem State.load_store_same (a w v : Nat) : (s.store a w v).load a w = v % 256 ^ w := by
  have h := s.bytes_setBytes_same a (leBytes w v)
  rw [leBytes_length] at h
  rw [State.load, State.store, h, leNat_leBytes]

/-- A number elsewhere reads as before. -/
theorem State.load_store_apart {a w v c n : Nat} (h : c + n ≤ a ∨ a + w ≤ c) : (s.store a w v).load c n = s.load c n := by
  rw [State.load, State.load, State.store, s.bytes_setBytes_outside (by simpa using h)]

/-- A zeroed byte reads 0, another as before. -/
theorem State.byte_zero (lo hi a : Nat) : (s.zero lo hi).byte a = if lo ≤ a ∧ a < hi then 0 else s.byte a := by
  have aux : ∀ es : List (Nat × Byte),
      (Tab.find (es.filter (fun e => !(decide (lo ≤ e.1) && decide (e.1 < hi)))) a).getD 0 =
        if lo ≤ a ∧ a < hi then 0 else (Tab.find es a).getD 0 := by
    intro es
    induction es with
    | nil => simp [Tab.find]
    | cons e es ih =>
      obtain ⟨k, v⟩ := e
      by_cases hk : lo ≤ k ∧ k < hi
      · rw [List.filter_cons_of_neg (by simp [hk.1, hk.2]), ih]
        by_cases ha : lo ≤ a ∧ a < hi
        · simp [ha]
        · simp only [ha, if_false, Tab.find]
          rw [if_neg (by rintro rfl; exact ha hk)]
      · rw [List.filter_cons_of_pos (by simp; omega)]
        simp only [Tab.find]
        by_cases hka : k = a
        · subst hka; simp [hk]
        · rw [if_neg hka, if_neg hka]
          exact ih
  exact aux s.mem.ents

/-! ## The canonical form -/

theorem memWrite_wf (bs : List Byte) : ∀ (m : Tab Byte) (a : Nat), Memory.wf m = true → Memory.wf (memWrite m a bs) = true := by
  induction bs with
  | nil => intro m a h; exact h
  | cons b bs ih => intro m a h; exact ih _ _ (Tab.wf_set h a b)

theorem State.setByte_wf (a : Nat) (b : Byte) (h : Memory.wf s.mem = true) : Memory.wf (s.setByte a b).mem = true := Tab.wf_set h a b
theorem State.setBytes_wf (a : Nat) (bs : List Byte) (h : Memory.wf s.mem = true) : Memory.wf (s.setBytes a bs).mem = true :=
  memWrite_wf bs s.mem a h
theorem State.store_wf (a w v : Nat) (h : Memory.wf s.mem = true) : Memory.wf (s.store a w v).mem = true := s.setBytes_wf a _ h
theorem State.copyBytes_wf (a b n : Nat) (h : Memory.wf s.mem = true) : Memory.wf (s.copyBytes a b n).mem = true := s.setBytes_wf b _ h
theorem State.zero_wf (lo hi : Nat) (h : Memory.wf s.mem = true) : Memory.wf (s.zero lo hi).mem = true := Tab.wf_clear h _
theorem State.setQf_wf (q o w v : Nat) (h : Memory.wf s.mem = true) : Memory.wf (s.setQf q o w v).mem = true := s.setBytes_wf _ _ h
theorem State.setFree_wf (a n : Nat) (h : Memory.wf s.mem = true) : Memory.wf (s.setFree a n).mem = true := s.setBytes_wf a _ h

/-- The memory of reset has the form. -/
theorem State.reset_wf : Memory.wf State.reset.mem = true := rfl

end Sys2Proof.Machine
end

