-- ==== Sys2Proof/Laws/Posted.lean ====
section
/-! SUPPORT. What the shared operations of Machine/Ops.lean can change: registers, memory (in its canonical form), what leaves
the block, firing counts, interrupt vectors, and the lists of requests, lost records and faults; nothing else. One lemma for
each operation, and their composition. -/

namespace Sys2Proof.Machine

/-- What the shared operations leave alone. -/
def State.rest (s : State) : State :=
  { s with regs := .empty, mem := .empty, out := [], fires := .empty, msix := .empty, qLost := [], arbs := [], faults := [], ibiByte := 0,
           freeIx := 0 }

/-- Two states differ at most in what the shared operations change. -/
def Posted (s t : State) : Prop := t.rest = s.rest ∧ (Memory.wf s.mem = true → Memory.wf t.mem = true)

theorem Posted.refl (s : State) : Posted s s := ⟨rfl, id⟩
theorem Posted.trans {s t u : State} (h : Posted s t) (k : Posted t u) : Posted s u := ⟨k.1.trans h.1, k.2 ∘ h.2⟩

theorem Posted.lcnt {s t : State} (h : Posted s t) : t.lcnt = s.lcnt :=
  congrArg (f := State.lcnt) (a₁ := t.rest) (a₂ := s.rest) h.1
theorem Posted.pending {s t : State} (h : Posted s t) : t.pending = s.pending :=
  congrArg (f := State.pending) (a₁ := t.rest) (a₂ := s.rest) h.1
theorem Posted.boot {s t : State} (h : Posted s t) : t.boot = s.boot :=
  congrArg (f := State.boot) (a₁ := t.rest) (a₂ := s.rest) h.1
theorem Posted.sect {s t : State} (h : Posted s t) : t.sect = s.sect :=
  congrArg (f := State.sect) (a₁ := t.rest) (a₂ := s.rest) h.1
theorem Posted.streams {s t : State} (h : Posted s t) : t.streams = s.streams :=
  congrArg (f := State.streams) (a₁ := t.rest) (a₂ := s.rest) h.1
theorem Posted.upds {s t : State} (h : Posted s t) : t.upds = s.upds :=
  congrArg (f := State.upds) (a₁ := t.rest) (a₂ := s.rest) h.1
theorem Posted.held {s t : State} (h : Posted s t) : t.held = s.held :=
  congrArg (f := State.held) (a₁ := t.rest) (a₂ := s.rest) h.1
theorem Posted.job {s t : State} (h : Posted s t) : t.job = s.job :=
  congrArg (f := State.job) (a₁ := t.rest) (a₂ := s.rest) h.1
theorem Posted.cores {s t : State} (h : Posted s t) : t.cores = s.cores :=
  congrArg (f := State.cores) (a₁ := t.rest) (a₂ := s.rest) h.1
theorem Posted.engines {s t : State} (h : Posted s t) : t.engines = s.engines :=
  congrArg (f := State.engines) (a₁ := t.rest) (a₂ := s.rest) h.1
theorem Posted.drains {s t : State} (h : Posted s t) : t.drains = s.drains :=
  congrArg (f := State.drains) (a₁ := t.rest) (a₂ := s.rest) h.1
theorem Posted.procs {s t : State} (h : Posted s t) : t.procs = s.procs :=
  congrArg (f := State.procs) (a₁ := t.rest) (a₂ := s.rest) h.1
theorem Posted.node {s t : State} (h : Posted s t) : t.node = s.node :=
  congrArg (f := State.node) (a₁ := t.rest) (a₂ := s.rest) h.1
theorem Posted.fabIn {s t : State} (h : Posted s t) : t.fabIn = s.fabIn :=
  congrArg (f := State.fabIn) (a₁ := t.rest) (a₂ := s.rest) h.1
theorem Posted.pins {s t : State} (h : Posted s t) : t.pins = s.pins :=
  congrArg (f := State.pins) (a₁ := t.rest) (a₂ := s.rest) h.1

/-- A change that touches none of the kept fields and keeps memory. -/
theorem Posted.of {s t : State} (h : t.rest = s.rest) (m : t.mem = s.mem) : Posted s t := ⟨h, fun w => m ▸ w⟩

theorem posted_forEach {α : Type} (f : α → State → State) (h : ∀ x s, Posted s (f x s)) (xs : List α) : ∀ s, Posted s (forEach xs f s) := by
  induction xs with
  | nil => exact fun s => Posted.refl s
  | cons x xs ih => exact fun s => (h x s).trans (ih (f x s))

theorem posted_forN (f : Nat → State → State) (h : ∀ k s, Posted s (f k s)) (n : Nat) (s : State) : Posted s (forN n f s) :=
  posted_forEach f h (List.range n) s

variable (s : State)

theorem State.wr_posted (r : RegId) (v : Word) (i j : Nat) : Posted s (s.wr r v i j) := .of rfl rfl
theorem State.put_posted (f : Fld) (x i j : Nat) : Posted s (s.put f x i j) := .of rfl rfl
theorem State.bump_posted (f : Fld) (i j k : Nat) : Posted s (s.bump f i j k) := .of rfl rfl
theorem State.bumpSat_posted (f : Fld) (i j k : Nat) : Posted s (s.bumpSat f i j k) := .of rfl rfl
theorem State.toReset_posted (r : RegId) (i j : Nat) : Posted s (s.toReset r i j) := .of rfl rfl
theorem State.emit_posted (o : Out) : Posted s (s.emit o) := .of rfl rfl
theorem State.setBytes_posted (a : Nat) (bs : List Byte) : Posted s (s.setBytes a bs) := ⟨rfl, s.setBytes_wf a bs⟩
theorem State.store_posted (a w v : Nat) : Posted s (s.store a w v) := s.setBytes_posted a _
theorem State.copyBytes_posted (a b n : Nat) : Posted s (s.copyBytes a b n) := s.setBytes_posted b _
theorem State.zero_posted (lo hi : Nat) : Posted s (s.zero lo hi) := ⟨rfl, s.zero_wf lo hi⟩
theorem State.setQf_posted (q o w v : Nat) : Posted s (s.setQf q o w v) := s.setBytes_posted _ _
theorem State.setFree_posted (a n : Nat) : Posted s (s.setFree a n) := ⟨rfl, s.setFree_wf a n⟩

theorem State.fires_posted (x : Tab Nat) : Posted s { s with fires := x } := .of rfl rfl
theorem State.qLost_posted (x : List Nat) : Posted s { s with qLost := x } := .of rfl rfl
theorem State.arbs_posted (x : List ArbReq) : Posted s { s with arbs := x } := .of rfl rfl
theorem State.faults_posted (x : List FaultEv) : Posted s { s with faults := x } := .of rfl rfl
theorem State.ibiByte_posted (x : Nat) : Posted s { s with ibiByte := x } := .of rfl rfl

theorem State.put3_posted (f g k : Fld) (x y z a b c d e h : Nat) : Posted s (((s.put f x a b).put g y c d).put k z e h) :=
  ((s.put_posted f x a b).trans (State.put_posted _ g y c d)).trans (State.put_posted _ k z e h)

theorem State.evgTopView_posted (p : Nat) : Posted s (s.evgTopView p) := by
  unfold State.evgTopView
  cases s.evgTop p with
  | none => exact s.put3_posted ..
  | some t => exact s.put3_posted ..

theorem State.fire_posted (p src : Nat) : Posted s (s.fire p src) := by
  unfold State.fire
  by_cases h : src < 1023
  · rw [if_pos h]
    exact ((s.put_posted ..).trans (State.fires_posted ..)).trans (State.evgTopView_posted ..)
  · rw [if_neg h]
    exact .refl s

theorem State.fireOthers_posted (p src : Nat) : Posted s (s.fireOthers p src) := posted_forEach _ (fun q s => s.fire_posted q src) _ s

theorem State.sendMsix_posted (f v : Nat) : Posted s (s.sendMsix f v) := by
  unfold State.sendMsix
  dsimp only
  split
  · exact .of rfl rfl
  · exact s.emit_posted _

theorem State.qActivate_posted (q : Nat) : Posted s (s.qActivate q) := by
  unfold State.qActivate
  have h : Posted s (if s.qState q = 0 then s.bumpSat F.HIF_Q_ACT_COUNT else s) := by
    split
    · exact s.bumpSat_posted _ _ _ _
    · exact .refl s
  exact h.trans ((State.setBytes_posted _ _ _).trans (State.setQf_posted _ _ _ _ _))

theorem State.qDeactivate_posted (q : Nat) : Posted s (s.qDeactivate q) := by
  unfold State.qDeactivate
  split
  · exact .refl s
  · exact ((s.put_posted _ _ _ _).trans (State.setQf_posted _ _ _ _ _)).trans (Posted.of rfl rfl)

theorem State.arbEnter_posted (arb q level : Nat) : Posted s (s.arbEnter arb q level) := by
  unfold State.arbEnter
  split
  · exact .refl s
  · exact .of rfl rfl

theorem State.produceRaw_posted (q : Nat) (r : List Byte) : Posted s (s.produceRaw q r) := by
  unfold State.produceRaw
  have h1 : ∀ c : Prop, [Decidable c] → ∀ o a, Posted s (if c then s.emit o else s.setBytes a r) := fun c _ o a => by
    split
    · exact s.emit_posted o
    · exact s.setBytes_posted a r
  have h3 : ∀ (u : State) (c : Prop) [Decidable c] x, Posted u (if c then u.setQf q 48 1 x else u) := fun u c _ x => by
    split
    · exact u.setQf_posted _ _ _ _
    · exact .refl u
  have h4 : ∀ (u : State) (c : Prop) [Decidable c] f v, Posted u (if c then u.sendMsix f v else u) := fun u c _ f v => by
    split
    · exact u.sendMsix_posted f v
    · exact .refl u
  exact (((h1 _ _ _).trans (State.setQf_posted _ _ _ _ _)).trans (h3 _ _ _)).trans (h4 _ _ _ _)

theorem State.produce_posted (q po : Nat) (r : List Byte) : Posted s (s.produce q po r) := s.produceRaw_posted q _
theorem State.qDrop_posted (q : Nat) : Posted s (s.qDrop q) := s.setQf_posted _ _ _ _

theorem State.post_posted (q code src step : Nat) (d : List Nat) : Posted s (s.post q code src step d) := by
  unfold State.post
  split
  · split
    · exact (s.qDrop_posted q).trans (Posted.of rfl rfl)
    · exact (s.produce_posted q 2 _).trans (Posted.of rfl rfl)
  · exact .refl s

theorem State.postAdmin_posted (f code src step : Nat) (d : List Nat) : Posted s (s.postAdmin f code src step d) := by
  unfold State.postAdmin
  split
  · exact s.post_posted _ _ _ _ _
  · exact .refl s

theorem State.postJob_posted (code src step : Nat) (d : List Nat) : Posted s (s.postJob code src step d) := by
  unfold State.postJob
  split
  · exact s.post_posted _ _ _ _ _
  · exact .refl s

theorem State.ibiView_posted : Posted s s.ibiView := by
  unfold State.ibiView
  split
  · exact .of rfl rfl
  · exact .refl s

theorem State.raise_posted (code : Nat) (cls : FaultClass) (src core sect : Nat) (fence d : List Nat) :
    Posted s (s.raise code cls src core sect fence d) := by
  unfold State.raise
  split
  · exact .refl s
  · have h1 := s.put3_posted F.CMD_FLT_LOG_CODE F.CMD_FLT_LOG_CORE F.CMD_FLT_LOG_STEP_LO code core (s.rd .CMD_STEP).toNat 0 0 0 0 0 0
    dsimp only
    generalize ((s.put F.CMD_FLT_LOG_CODE code).put F.CMD_FLT_LOG_CORE core).put F.CMD_FLT_LOG_STEP_LO (s.rd .CMD_STEP).toNat = s1 at h1 ⊢
    cases s.job with
    | none => exact h1.trans (State.postAdmin_posted ..)
    | some j =>
      dsimp only
      have h2 : Posted s (if code = 0x24 ∨ code = 0x41 ∨ code = 0x42 ∨ code = 0x43 then
          (s1.post j.evq code src (s.rd .CMD_STEP).toNat d).postAdmin 0 code src 0 []
          else s1.post j.evq code src (s.rd .CMD_STEP).toNat d) := by
        split
        · exact (h1.trans (State.post_posted ..)).trans (State.postAdmin_posted ..)
        · exact h1.trans (State.post_posted ..)
      generalize (if code = 0x24 ∨ code = 0x41 ∨ code = 0x42 ∨ code = 0x43 then
          (s1.post j.evq code src (s.rd .CMD_STEP).toNat d).postAdmin 0 code src 0 []
          else s1.post j.evq code src (s.rd .CMD_STEP).toNat d) = s3 at h2 ⊢
      cases cls with
      | none => exact h2
      | dev => exact h2.trans (State.faults_posted ..)
      | sect => exact h2.trans (State.faults_posted ..)
      | step =>
        dsimp only
        split
        · exact h2
        · exact h2.trans (State.faults_posted ..)

theorem State.worldViol_posted (kind source addr : Nat) : Posted s (s.worldViol kind source addr) := by
  unfold State.worldViol
  have h : Posted s (((((s.bumpSat F.SEC_WV_CNT_COUNT).put F.SEC_WV_LOG_KIND kind).put F.SEC_WV_LOG_SOURCE source).put
      F.SEC_WV_ADDR_LO_ADDR_LO addr).put F.SEC_WV_ADDR_HI_ADDR_HI (addr / 4294967296)) :=
    ((s.bumpSat_posted ..).trans (State.put3_posted ..)).trans (State.put_posted ..)
  dsimp only
  generalize ((((s.bumpSat F.SEC_WV_CNT_COUNT).put F.SEC_WV_LOG_KIND kind).put F.SEC_WV_LOG_SOURCE source).put
      F.SEC_WV_ADDR_LO_ADDR_LO addr).put F.SEC_WV_ADDR_HI_ADDR_HI (addr / 4294967296) = u at h ⊢
  split
  · have k := h.trans (u.fire_posted 1 128)
    cases (u.fire 1 128).job with
    | none => exact k
    | some j =>
      dsimp only
      split
      · exact k.trans (State.post_posted ..)
      · exact k
  · exact h

/-- Work that a processor must be running for answers what it answers then, or leaves the state as it is. -/
theorem State.served_next {p : Nat} {o : Out?} {t : State} (h : s.served p o = .next t) :
    ((s.proc p).run = .running ∧ o = .next t) ∨ ((s.proc p).run ≠ .running ∧ t = s) := by
  unfold State.served at h
  split at h
  · exact .inl ⟨by assumption, h⟩
  · exact .inr ⟨by assumption, by cases h; rfl⟩

end Sys2Proof.Machine
end

