-- ==== Sys2Proof/Laws/Regs.lean ====
section
/-! SUPPORT. Register accesses: what a register and a field read after one is written. -/

namespace Sys2Proof.Machine

variable (s : State)

/-- A register reads what was last written to it. -/
@[simp] theorem State.rd_wr_same (r : RegId) (v : Word) (i j : Nat) : (s.wr r v i j).rd r i j = v := by
  simp [State.rd, State.wr, Tab.get_set_same]

/-- A register at another offset reads as before. -/
theorem State.rd_wr_other {r q : RegId} {i j k l : Nat} (v : Word) (h : q.addr k l ≠ r.addr i j) :
    (s.wr r v i j).rd q k l = s.rd q k l := Tab.get_set_other _ _ _ _ (Ne.symm h)

/-- Every word of the register file at another offset is kept. -/
theorem State.regs_wr_other {r : RegId} {i j off : Nat} (v d : Word) (h : off ≠ r.addr i j) :
    (s.wr r v i j).regs.get off d = s.regs.get off d := Tab.get_set_other _ _ _ _ (Ne.symm h)

/-- The word of a register after one of its fields was written. -/
theorem State.rd_put_same (f : Fld) (x i j : Nat) (hl : f.lo ≤ f.hi) (hh : f.hi < 32) :
    ((s.put f x i j).rd f.reg i j).toNat = putBits (s.rd f.reg i j).toNat f.hi f.lo x := by
  have h : putBits (s.rd f.reg i j).toNat f.hi f.lo x < 2 ^ 32 := putBits_lt hl hh (s.rd f.reg i j).isLt
  rw [State.put, State.rd_wr_same, BitVec.toNat_ofNat]
  exact Nat.mod_eq_of_lt h

/-- A field reads the low bits of what was last written to it. -/
theorem State.fld_put_same (f : Fld) (x i j : Nat) (hl : f.lo ≤ f.hi) (hh : f.hi < 32) :
    (s.put f x i j).fld f i j = x % 2 ^ (f.hi + 1 - f.lo) := by
  rw [State.fld, s.rd_put_same f x i j hl hh, bits_putBits_same _ _ _ _ hl]

/-- Another field of the same register reads as before. -/
theorem State.fld_put_apart {f g : Fld} (x i j : Nat) (hr : g.reg = f.reg) (hl : f.lo ≤ f.hi) (hh : f.hi < 32) (hg : g.lo ≤ g.hi)
    (hd : f.hi < g.lo ∨ g.hi < f.lo) : (s.put f x i j).fld g i j = s.fld g i j := by
  rw [State.fld, State.fld, hr, s.rd_put_same f x i j hl hh]
  rcases hd with h | h
  · exact bits_putBits_above _ _ _ _ _ _ hl h
  · exact bits_putBits_below _ _ _ _ _ _ hl hg h

/-- A field of a register at another offset reads as before. -/
theorem State.fld_put_other {f g : Fld} {i j k l : Nat} (x : Nat) (h : g.reg.addr k l ≠ f.reg.addr i j) :
    (s.put f x i j).fld g k l = s.fld g k l := by
  rw [State.fld, State.fld, State.put, s.rd_wr_other _ h]

/-- Every word of the register file at another offset than a field's is kept. -/
theorem State.regs_put_other {f : Fld} {i j off : Nat} (x : Nat) (d : Word) (h : off ≠ f.reg.addr i j) :
    (s.put f x i j).regs.get off d = s.regs.get off d := s.regs_wr_other _ _ h

/-- A register set to its Reset column reads it. -/
@[simp] theorem State.rd_toReset_same (r : RegId) (i j : Nat) : (s.toReset r i j).rd r i j = r.resetWord i j := by
  simp [State.toReset]

theorem State.fld_lt (f : Fld) (i j : Nat) : s.fld f i j < 2 ^ (f.hi + 1 - f.lo) := bits_lt _ _ _

/-- At reset every register reads its Reset column. -/
@[simp] theorem State.rd_reset (r : RegId) (i j : Nat) : State.reset.rd r i j = r.resetWord i j := rfl

/-- What the entry of the named access gives: register updates are updates of the register file alone. -/
theorem State.put_regs (f : Fld) (x i j : Nat) : s.put f x i j = { s with regs := (s.put f x i j).regs } := rfl
theorem State.bump_regs (f : Fld) (i j k : Nat) : s.bump f i j k = { s with regs := (s.bump f i j k).regs } := rfl
theorem State.bumpSat_regs (f : Fld) (i j k : Nat) : s.bumpSat f i j k = { s with regs := (s.bumpSat f i j k).regs } := rfl
theorem State.toReset_regs (r : RegId) (i j : Nat) : s.toReset r i j = { s with regs := (s.toReset r i j).regs } := rfl

/-- A saturating counter reads one more, or its largest value. -/
theorem State.fld_bumpSat (f : Fld) (i j k : Nat) (hl : f.lo ≤ f.hi) (hh : f.hi < 32) :
    (s.bumpSat f i j k).fld f i j = Nat.min (s.fld f i j + k) f.max := by
  rw [State.bumpSat, s.fld_put_same f _ i j hl hh]
  refine Nat.mod_eq_of_lt (Nat.lt_of_le_of_lt (Nat.min_le_right _ _) ?_)
  have := Nat.two_pow_pos (f.hi + 1 - f.lo)
  simp only [Fld.max]
  omega

/-- A wrapping counter reads one more, modulo its width. -/
theorem State.fld_bump (f : Fld) (i j k : Nat) (hl : f.lo ≤ f.hi) (hh : f.hi < 32) :
    (s.bump f i j k).fld f i j = (s.fld f i j + k) % 2 ^ (f.hi + 1 - f.lo) := by
  rw [State.bump, s.fld_put_same f _ i j hl hh]

end Sys2Proof.Machine
end

