-- ==== Sys2Proof/Tests/Slice0.lean ====
section
/-! SUPPORT. Tests: ill-formed commands that the check refuses, one-step examples worked from the manual, and, for every
statement with hypotheses, a concrete state that meets them. -/

open Sys2Proof Sys2Proof.Machine

namespace Sys2Proof.Tests

set_option Elab.async false

/-- The device out of reset, nothing else. -/
def upS : State := { State.reset with pins := { State.reset.pins with perstN := true } }

/-- A firmware processor running. -/
def running (p : Nat) (s : State) : State := s.setProc p { s.proc p with run := .running }

/-- The device with every cluster in run and every processor running. -/
def dev : State := forN 5 running (forN 8 (fun k s => s.put F.BC_CL_STATE 0 k) upS)

/-- A queue table entry: class, flags, owner, size, state, head and tail. -/
def queue (q cls flags owner size st head tail : Nat) (s : State) : State :=
  ((((((s.setQf q 0 1 cls).setQf q 1 1 flags).setQf q 2 1 owner).setQf q 16 4 size).setQf q 32 1 st).setQf q 36 4 head).setQf q 40 4 tail

/-- A command answers a next state with a property. -/
def ok (o : Out?) (p : State → Bool) : Bool :=
  match o with
  | .next t => p t
  | .fault _ => false
  | .refused _ => false

/-! ## Registers -/

/-- A write from a firmware processor's own adaptation, on a host's request, and from the host. -/
def own : Src := .fw .sec false
def forHost : Src := .fw .mgt true
def pf : Src := .fn 0

theorem wit_basic_write :
    (∀ row ∈ basicRows own 3 2 1 4 5 .fab 1, Reaches dev own row.2.1.basic.reg row.2.2 dev) ∧
      Misses State.reset pf .ME_FILL 3 := by decide +kernel

/-- Table 2.11: ME_FILL 1 selects a filler density of 50 %, and clears a set held bit. -/
theorem test_me_fill :
    ok (exec (.meFill own 3 1) (dev.put Ctl.fill.held 1 3)) (fun t =>
      t.fld Ctl.fill.basic 3 == 1 && !t.flag Ctl.fill.held 3) = true := by decide +kernel

theorem wit_host_write_of_sec_basic : ∀ row ∈ secBasicRows pf 2, Reaches dev pf row.2.basic.reg 0 dev ∧
    ¬ (bit (2 : Word).toNat row.2.held.lo = false ∧ SettingHeld row.2 2 dev) := by
  decide +kernel
theorem wit_host_write_same : ∀ x ∈ [(Ctl.wv, (1 : Word)), (.wd, 0), (.boot, 0)], Reaches dev pf x.1.basic.reg 0 dev ∧
    bit x.2.toNat x.1.held.lo = false ∧ SettingHeld x.1 x.2 dev := by
  decide +kernel

theorem wit_clears : ∀ row ∈ clearRows own 31 15 3 7 7 5, Reaches dev own row.2.1 row.2.2.1 dev := by decide +kernel

theorem test_clr_cyc_keeps_chk :
    ok (exec (.clrCyc pf 31) ((dev.put F.ME_CYC_BEAT_COUNT 7 31).put F.ME_CHK_CNT_ESC 5 31)) (fun t =>
      t.fld F.ME_CYC_BEAT_COUNT 31 == 0 && t.fld F.ME_CHK_CNT_ESC 31 == 5) = true := by decide +kernel

theorem wit_register_write : regAt (RegId.IKF_TORUS.addr 0 0) = some (.IKF_TORUS, 0, 0) ∧ RegId.IKF_TORUS ∈ plainRegs ∧
    RegId.IKF_TORUS.addr 0 0 % 4 = 0 ∧ Reaches dev own .IKF_TORUS 0 dev ∧ srcWorld own = .s ∧
    regAt (devOffset pf 0x3FFFFFC) = none ∧ (2 : Nat) % 4 ≠ 0 ∧ dev.inReset = false ∧ State.reset.inReset = true ∧
    dev.flag F.HIF_FN_ST_ADM_ACT 0 = false := by decide +kernel

/-- R425: a host write to offset 2 of BAR0 sets NARROW and is recorded. -/
theorem test_narrow_write :
    ok (exec (.narrowWrite pf 2) dev) (fun t => t.flag F.HIF_ERR_NARROW && t.fld F.HIF_ERR_ADDR_OFFSET == 2) = true := by
  decide +kernel

theorem wit_expert : ∃ r i j c, regAt (devOffset pf (RegId.BC_PWR_X.addr 0 0)) = some (r, i, j) ∧ ctlOfExpert r = some c ∧
    c.guarded = false ∧ Reaches dev pf r i dev ∧ srcOnHost pf = true ∧ srcOnHost own = false ∧ dev.flag c.held (c.inst i) = false ∧
    (dev.put c.held 1).flag c.held (c.inst i) = true := ⟨.BC_PWR_X, 0, 0, .pwr, by decide +kernel⟩

theorem wit_expert_plain : ∃ r i j c, regAt (devOffset own (RegId.HIF_AGE_X.addr 0 0)) = some (r, i, j) ∧ ctlOfExpert r = some c ∧
    c.guarded = false ∧ c ≠ .pwr ∧ c ≠ .lnt ∧ Reaches dev own r i dev ∧ dev.flag c.held (c.inst i) = false :=
  ⟨.HIF_AGE_X, 0, 0, .age, by decide +kernel⟩

theorem wit_held_clear : regAt (devOffset own (RegId.HIF_AGE.addr 0 0)) = some (.HIF_AGE, 0, 0) ∧
    ctlOfHeld .HIF_AGE F.HIF_AGE_AGE_HELD.lo = some .age ∧ Reaches dev own .HIF_AGE 0 dev ∧
    (dev.put F.HIF_AGE_AGE_HELD 1).flag Ctl.age.held 0 = true ∧ dev.flag Ctl.age.held 0 = false := by decide +kernel

/-- R11: the host's write of an expert register sets EXPERT_HELD. -/
theorem test_expert_write_holds :
    ok (exec (.expertRegisterWrite pf (RegId.HIF_AGE_X.addr 0 0) 50) dev) (fun t =>
      t.flag F.HIF_AGE_AGE_HELD && t.fld F.HIF_AGE_X_AGE_TICKS == 50) = true := by decide +kernel

theorem wit_latching_reads : Reaches dev own .BC_LCNT_LO 0 dev ∧ Reaches dev pf .BC_ENERGY_LO 0 dev ∧ Reaches dev pf .BC_RAIL 0 dev := by
  decide +kernel

/-- R508: the S world's latch does not disturb the N world's. -/
theorem test_lcnt_lo_latches :
    ok (exec (.bcLcntLo own) { dev with lcnt := 0x700000009#64, lcntHiN := 3 }) (fun t =>
      t.lcntHiS == 7 && t.lcntHiN == 3 && t.out == [.readData [9, 0, 0, 0]]) = true := by decide +kernel

theorem wit_repair : (∀ col ∈ [true, false], Reaches dev own (repEntry col) 31 dev ∧ Reaches dev pf (repEntry col) 31 dev) ∧
    dev.flag F.BC_BOOT_ST_READY = false ∧ (dev.put F.BC_BOOT_ST_READY 1).flag F.BC_BOOT_ST_READY = true ∧
    dev.flag F.ME_STATUS_CORE_FENCED 31 = false ∧ Reaches dev own .IKF_MAP 255 dev ∧ dev.flag F.IKF_MAP_CTL_LOCK = false ∧
    (dev.put F.IKF_MAP_CTL_LOCK 1).flag F.IKF_MAP_CTL_LOCK = true := by decide +kernel

/-- R40: a row on a spare makes the engine's latency 7. -/
theorem test_rep_view : ((dev.put F.ME_REP_ROW_VALID 1 31 0).repView 31).fld F.ME_LAT_LAT 31 = 7 := by decide +kernel

theorem test_ikf_map_locked :
    ok (exec (.ikfMap own 255 0x80010002) (dev.put F.IKF_MAP_CTL_LOCK 1)) (fun t =>
      t.flag F.IKF_MAP_CTL_MAP_REJ && !t.flag F.IKF_MAP_VALID 255) = true := by decide +kernel

/-! ## Worlds -/

def bound2 : State := dev.put F.CO_SECT_STATE 2 2

theorem wit_worlds : Reaches bound2 own .SEC_WORLD_CORE 0 bound2 ∧ bound2.coreBound 2 = true ∧ 2 ∈ coresChanged bound2 4 ∧
    Reaches dev own .SEC_WORLD_CORE 0 dev ∧ (∀ n ∈ coresChanged dev 0x8001, dev.coreBound n = false) ∧
    coresChanged dev 0x8001 = [0, 15] ∧ dev.fld F.SEC_DBG_JTAG_MODE ≠ 2 ∧ dev.sect = none ∧
    Reaches dev own .SEC_WORLD_CL 0 dev ∧ (∀ k ∈ storesChanged dev 0x80, dev.clBound k = false) ∧ storesChanged dev 0x80 = [7] ∧
    Reaches bound2 own .SEC_WORLD_CL 0 bound2 ∧ bound2.clBound 1 = true ∧ 1 ∈ storesChanged bound2 2 ∧
    Reaches dev pf .SEC_WORLD_CORE 0 dev ∧ Reaches dev (.fw .mgt false) .SEC_WORLD_CORE 0 dev := by decide +kernel

/-- R448: core 15's store is zeroed, core 14's is not, and the wake epoch rises. -/
theorem test_core_world :
    let t := ((dev.setByte (0x2000000 * 15) 9).setByte (0x2000000 * 15 - 1) 8).setWorldCore 0x8000
    (t.byte (0x2000000 * 15), t.byte (0x2000000 * 15 - 1), t.epochOf 15, t.coreWorld 15) = (0, 8, 1, .s) := by
  decide +kernel

/-- A descriptor whose zeroing is in progress. -/
def zeroing : State := { dev.put F.SEC_REG_LO_ZEROING 1 3 with regPend := [⟨3, 0xC0040000, 0x40000, [(hbmBase, hbmBase + 2 * miB)]⟩] }

theorem wit_regions : (∀ hi ∈ [true, false], Reaches dev own (if hi then RegId.SEC_REG_HI else .SEC_REG_LO) 3 dev) ∧
    dev.flag F.SEC_REG_LO_ZEROING 3 = false ∧
    (let w := descAfter dev 3 false 0x80000000
     descRefused dev 3 w = true) ∧
    (let w := descAfter dev 3 true 0x40000
     descRefused dev 3 w = false ∧ worldChange (dev.rd .SEC_REG_LO 3).toNat (dev.rd .SEC_REG_HI 3).toNat w.1 w.2 = []) ∧
    (let d := dev.put F.SEC_REG_HI_LIMIT 0x40000 3
     let w := descAfter d 3 false 0xC0040000
     descRefused d 3 w = false ∧ worldChange (d.rd .SEC_REG_LO 3).toNat (d.rd .SEC_REG_HI 3).toNat w.1 w.2 ≠ []) ∧
    dev.fld F.SEC_DBG_JTAG_MODE ≠ 2 ∧
    firstWhere (fun (q : RegPend) => q.ix == 3) zeroing.regPend = some ⟨3, 0xC0040000, 0x40000, [(hbmBase, hbmBase + 2 * miB)]⟩ := by
  decide +kernel

theorem test_zeroing_done :
    let t := (zeroing.setByte (hbmBase + 5) 1).zeroingDone 3
    (t.byte (hbmBase + 5), t.flag F.SEC_REG_LO_ZEROING 3, t.worldAt (hbmBase + 5), t.regPend) = (0, false, .s, []) := by
  decide +kernel

theorem wit_debug : Reaches dev own .SEC_DBG 0 dev ∧ srcWorld own = .s ∧ (dev.put F.SEC_WORLD_CORE_CORE 1).anyS = true ∧
    dev.anyS = false ∧ Reaches dev pf .SEC_DBG 0 dev ∧
    (let d := dev.put F.SEC_DBG_JTAG_MODE 2
     Reaches d own .SEC_WORLD_CORE 0 d ∧ d.fld F.SEC_DBG_JTAG_MODE = 2 ∧ (∀ n ∈ coresChanged d 1, d.coreBound n = false) ∧
       (∃ n ∈ coresChanged d 1, bit (1 : Word).toNat n = true)) := by decide +kernel

/-- R463: full debug is refused while a core is in the S world. -/
theorem test_full_debug_refused :
    ok (exec (.secDbg own 2) (dev.put F.SEC_WORLD_CORE_CORE 1)) (fun t =>
      t.flag F.SEC_ERR_DBG_REJ && t.fld F.SEC_DBG_JTAG_MODE == 0) = true := by decide +kernel

/-! ## Gatherers -/

/-- Sources 5 and 9 pending and enabled at CMD, 9 the more urgent. -/
def two : State :=
  ((((dev.wr .EVG_EN 0x220 4 0).wr .EVG_PEND 0x220 4 0).wr .EVG_PRIO 0xFFFF10FF 4 2).put F.EVG_CTL_EN 1 4)

theorem wit_sources : Reaches dev own .EVG_PSET 4 dev ∧ Reaches dev own .EVG_PCLR 4 dev ∧ Reaches dev pf .EVG_PSET 4 dev := by
  decide +kernel

/-- R483: the count saturates at 255. -/
theorem test_fire_saturates :
    ok (exec (.eventSourceFire .cmd 300) { dev with fires := Tab.empty.set (4 * 1024 + 300) 0 255 }) (fun t =>
      t.evgPend 4 300 && t.fires.get (4 * 1024 + 300) 0 == 255) = true := by decide +kernel

theorem wit_selection : two.flag F.EVG_CTL_EN 4 = true ∧ two.evgTop 4 = some 9 ∧ (two.proc 4).active.length < 16 ∧
    (two.proc 4).active.head? = none ∧ dev.flag F.EVG_CTL_EN 4 = false ∧ dev.evgTop 4 = none ∧
    (let d := two.setProc 4 { two.proc 4 with active := [9] }
     d.evgGroup 4 9 ≤ d.evgGroup 4 9 ∧ d.evgTop 4 = some 9) := by decide +kernel

theorem wit_take : Reaches two own .EVG_TAKE 4 two ∧ two.evgReady 4 9 = true ∧ two.evgReady 4 10 = false ∧
    Reaches two own .EVG_EOI 4 two ∧ ((two.setProc 4 { two.proc 4 with active := [9] }).proc 4).active = [9] ∧
    (two.proc 4).active.head? ≠ some 3 ∧ Reaches two pf .EVG_TAKE 4 two := by decide +kernel

/-- R485: taking source 9 makes it active and clears its pending bit; source 5 stays pending. -/
theorem test_take :
    ok (exec (.evgTake (.fw .cmd false) .cmd 9) two) (fun t =>
      (t.proc 4).active == [9] && !t.evgPend 4 9 && t.evgPend 4 5 && t.fld F.EVG_TOP_SRC 4 == 5) = true := by decide +kernel

/-! ## Host interface -/

/-- Function 0 has the queue range 0 to 7, admin queues or not, and 4 vectors. -/
def hosted : State := ((dev.put F.HIF_FN_QBASE_QBASE 0 0).put F.HIF_FN_QBASE_QCNT 8 0).put F.HIF_FN_MSIX_SIZE 4 0

theorem wit_ranges : Reaches hosted pf .HIF_FN_QBASE 1 hosted ∧ pfWrites pf = true ∧ pfWrites (.fn 1) = false ∧
    Reaches hosted (.fn 1) .HIF_FN_QBASE 1 hosted ∧ hosted.rangeOk 1 8 8 = true ∧ hosted.rangeOk 1 4 8 = false ∧
    Reaches hosted pf .HIF_FN_MSIX 1 hosted ∧ msixOthers hosted 1 + 4092 ≤ 4096 ∧ 4096 < msixOthers hosted 1 + 4093 ∧
    hosted.inReset = false ∧ 3 < hosted.fld F.HIF_FN_MSIX_SIZE 0 := by decide +kernel

theorem wit_admin : Reaches hosted pf .HIF_FN_CTL 0 hosted ∧ hosted.flag F.HIF_FN_ST_ADM_ACT 0 = false ∧
    3 ≤ hosted.fld F.HIF_FN_QBASE_QCNT 0 ∧ hosted.fld F.HIF_FN_QBASE_QBASE 0 + 2 < 32768 ∧
    (hosted.put F.HIF_FN_QBASE_QCNT 2 0).fld F.HIF_FN_QBASE_QCNT 0 < 3 ∧
    (hosted.put F.HIF_FN_ST_ADM_ACT 1 0).flag F.HIF_FN_ST_ADM_ACT 0 = true := by decide +kernel

theorem test_admin_enable :
    ok (exec (.admEnable pf 0) hosted) (fun t => t.qClass 0 == 0 && t.qClass 1 == 1 && t.qClass 2 == 6 && t.qState 2 == 1 &&
      t.qPhase 2 == 1 && t.flag F.HIF_FN_ST_ADM_ACT 0 && t.qState 3 == 0) = true := by decide +kernel

/-- A submission queue (3) and a completion queue (4) of function 1, 16 entries each, two records in the second. -/
def ringed : State := queue 4 1 8 1 16 1 0 2 (queue 3 0 8 1 16 1 0 0 hosted)

theorem wit_doorbell : ringed.inReset = false ∧ ringed.qOwner 3 ≠ 2 ∧ ringed.qState 9 = 0 ∧
    (let d := queue 5 0 1 1 16 1 0 0 ringed
     d.qState 5 ≠ 0 ∧ d.qOwner 5 = 1 ∧ d.qWorld 5 ≠ d.fnWorld 1 false) ∧
    OwnQueue ringed 1 3 false ∧ ringed.qState 3 = 1 ∧ ringed.qSize 3 = 16 ∧ ringed.qClass 3 ∈ [0, 2, 5] ∧
    OwnQueue ringed 1 4 false ∧ ringed.qClass 4 ∈ [1, 3, 6] ∧
    (2 + ringed.qSize 4 - ringed.qHead 4) % ringed.qSize 4 ≤ (ringed.qTail 4 + ringed.qSize 4 - ringed.qHead 4) % ringed.qSize 4 := by
  decide +kernel

theorem test_doorbell_moves_tail :
    ok (exec (.doorbell (.fn 1) false 3 15) ringed) (fun t => t.qTail 3 == 15 && t.qState 3 == 1) = true := by decide +kernel
theorem test_doorbell_index_out_of_ring :
    ok (exec (.doorbell (.fn 1) false 3 16) ringed) (fun t => t.qTail 3 == 0 && t.qState 3 == 2) = true := by decide +kernel

/-- Window 15 of function 1 onto the start of HBM. -/
def windowed : State := ((hosted.put F.HIF_WIN_LO_EN 1 1 15).put F.HIF_WIN_HI_ADDR_HI 0x80 1 15)

theorem wit_window : windowed.inReset = false ∧ windowed.windowAddr 1 0xF0000040 = hbmBase + 0x40 ∧
    windowed.flag F.HIF_WIN_LO_EN 1 15 = true ∧ windowed.place (hbmBase + 0x40) = .hbm ∧ windowed.inOne (hbmBase + 0x40) 8 = true ∧
    windowed.zeroingIn (hbmBase + 0x40) 8 = false ∧ World.ofBit (windowed.flag F.HIF_WIN_LO_WORLD 1 15) = windowed.fnWorld 1 false ∧
    windowed.rangeWorld (hbmBase + 0x40) 8 .n = true ∧ windowed.flag F.HIF_WIN_LO_EN 1 14 = false ∧
    (let d := ((windowed.put F.SEC_REG_LO_VALID 1 0).put F.SEC_REG_LO_WORLD 1 0).put F.SEC_REG_LO_BASE 0x40000 0
     let e := d.put F.SEC_REG_HI_LIMIT 0x40000 0
     e.rangeWorld (hbmBase + 0x40) 8 .n = false) := by decide +kernel

theorem test_window_write :
    ok (exec (.bar4Access 1 false 0xF0000040 (.write [1, 2])) windowed) (fun t =>
      t.bytes (hbmBase + 0x3F) 4 == [0, 1, 2, 0]) = true := by decide +kernel

/-! ## Instructions -/

/-- An instruction word: opcode with its class, and fields by their lowest bit. -/
def word (op : Nat) (fs : List (Nat × Nat)) : Nat :=
  op * 2 ^ 120 + op / 16 * 2 ^ 116 + fs.foldl (fun a f => a + f.2 * 2 ^ f.1) 0

/-- A section in mode 1 that uses core 1. -/
def sect1 : SectSt :=
  { id := 9, mode := 1, world := .n, img := 0, bucket := 0, nbkt := 1, runs := 1, step := 7, entry := none, cores := [1], epochs := [] }

/-- A station with a program and its registers. -/
def station (ws : List Nat) (r : StnRegs) : StnSt := { name := 3, prog := ws, tqidx := 0xFF, firings := 4, q := 1, regs := r }

/-- Core 1 with the word and a NOP after it on a slot, and streams. -/
def core1 (sl w : Nat) (r : StnRegs) (ys : List StreamSt) : State :=
  { dev with sect := some sect1, streams := ys }.setCore 1 { stns := setAt (List.replicate 6 none) sl (some (station [w, 0] r)) }

/-- The context on a slot of core 1. -/
def ctx (s : State) (sl : Nat) : StnSt := (s.stn? 1 sl).getD (station [] {})

/-- The store of core 1. -/
def cs : Nat := 0x2000000
/-- The direct window of slice 0. -/
def shared : Nat := 0x40000000

/-- Registers: ad, ct and pd 0 as given. -/
def rg (ad ct : List Nat) (pd0 : Nat := 0) : StnRegs :=
  { ad := padTo' 16 ad, ct := padTo' 8 ct, pd := [pd0, 0, 0, 0] }
where
  /-- Filled with zeros. -/
  padTo' (n : Nat) (xs : List Nat) : List Nat := xs ++ List.replicate (n - xs.length) 0

/-- A stream of 8-bit tiles of 1 row and 4 columns. -/
def strm8 (id kind : Nat) (src dst : Option (Nat × Nat × Nat)) (queue : List (List Byte) := []) (peg : Bool := false) : StreamSt :=
  { id := id, kind := kind, src := src, dst := dst, depth := 2, fetch := 0, qloc := 0, fmt := 3, mxcol := false, rows := 1, cols := 4,
    peg := peg, p := 1, c := 1, qnum := id, wepoch := 0, credits := 2, queue := queue }

/-- A tile of such a stream with four element codes, and an empty one. -/
def tile8 (cs : List Nat) : List Byte :=
  (TileHdr.bytes ⟨3, if cs.isEmpty then 1 else 0, 1, 4, if cs.isEmpty then 0 else 1, cs.length, 0, .n, 0, 0, 0, 7, 0, 0, 5, 9⟩)
    ++ (if cs.isEmpty then [] else leBytes 4 (cs.zipIdx.foldl (fun a p => a + p.1 * 256 ^ p.2) 0))

/-- A transfer descriptor. -/
def xd (addr addr2 ld len vrows vcols fmt shard : Nat) (factor : Nat := 0) : List Byte :=
  leBytes 8 addr ++ leBytes 8 addr2 ++ leBytes 4 ld ++ leBytes 4 len ++ leBytes 2 vrows ++ leBytes 2 vcols ++ leBytes 1 fmt
    ++ leBytes 15 0 ++ leBytes 4 shard ++ leBytes 4 0 ++ leBytes 4 factor ++ leBytes 8 0

/-- The context stands at a word that its slot may issue, before another word. -/
abbrev At (s : State) (sl : Nat) (row : Nat × Nat) : Prop :=
  Inside (ctx s sl) ((ctx s sl).pc + 1) ∧ Issuing s 1 sl (ctx s sl) row

theorem wit_issue :
    (let s := core1 0 0 {} []
     (∀ x ∈ s.stn? 1 1, ¬ Turn s 1 1 x (0, 0)) ∧ s.stn? 1 1 = none) ∧
    (let s := core1 0 (word 0x13 []) {} []
     Turn s 1 0 (ctx s 0) (0x13, 0) ∧ s.earlyFault 1 0 (ctx s 0) (ctx s 0).word = some 1 ∧ s.flag F.CO_IFLT_VALID 1 = false) := by
  decide +kernel

/-- R209 with Table 7.3: a vector operation on a matrix slot is refused with SLOT (2). -/
theorem test_slot_refused :
    ok (exec (.vop 1 0) (core1 0 (word 0x13 [(108, 1)]) {} [])) (fun t =>
      t.flag F.CO_IFLT_VALID 1 && t.fld F.CO_IFLT_CODE 1 == 2 && t.fld F.CO_IFLT_OPCODE 1 == 0x13 && t.evgPend 4 209) = true := by
  decide +kernel

theorem wit_control :
    At (core1 0 0 {} []) 0 (0, 0) ∧ At (core1 5 (word 0x62 [(76, 1)]) {} []) 5 (0x62, 0) ∧ (ctx (core1 0 0 {} []) 0).outst = [] ∧
    At (core1 3 (word 0x41 [(0, 0x80000001), (32, 0x3F)]) {} []) 3 (0x41, 0) ∧
    (let s := core1 2 (word 0x42 [(76, 1), (72, 1), (62, 7), (3, 1)]) (rg [0, cs] []) []
     At s 2 (0x42, 0) ∧ s.judgeWait 1 2 (ctx s 2) (ctx s 2).word = none) ∧
    (let s := core1 1 (word 0x40 [(76, 1), (65, 7), (32, 1)]) (rg [] [0, 0, 0, 0, 0, 0, 0, 2]) []
     Issuing s 1 1 (ctx s 1) (0x40, 0) ∧ s.judgeLoop 1 1 (ctx s 1) (ctx s 1).word = none ∧
       (ctx s 1).ct (bits (ctx s 1).word 67 65) ≠ 0) ∧
    (let s := { (core1 1 0 {} []) with cores := Tab.empty.set 1 {} { stns := [none, some (station [word 0x40 [(32, 1)], 0, 0] {})] } }
     Issuing s 1 1 (ctx s 1) (0x40, 0) ∧ s.judgeLoop 1 1 (ctx s 1) (ctx s 1).word = none ∧ bits (ctx s 1).word 31 0 = 0 ∧
       Inside (ctx s 1) ((ctx s 1).pc + 1 + 1)) := by decide +kernel

/-- R263: HOLD counts its port marks and completes. -/
theorem test_hold :
    ok (exec (.hold 1 3) (core1 3 (word 0x41 [(0, 0x80000001)]) {} [])) (fun t =>
      t.fld F.CO_HOLDS_COUNT 1 3 == 1 && t.fld F.CO_DONE_COUNT 1 3 == 1 && ((t.stn? 1 3).map (·.holdsOf)) == some [(0, 1), (31, 1)]) = true := by
  decide +kernel

/-- A peg of value 0x1234 that names output 0. -/
def peg1 : List Byte := pegBytes 0x1234 1 .n 0

/-- A STEER of `k` pairs from port 1 and peg port 2 to port 31. -/
def steerS (k : Nat) : State :=
  core1 4 (word 0x44 [(86, 1), (80, 2), (65, 1), (0, 0x3F3F3F1F)]) (rg [] [0, k])
    [strm8 5 0 none (some (1, 4, 1)) [tile8 [1, 2, 3, 4]], strm8 6 0 none (some (1, 4, 2)) [peg1] true, strm8 7 0 (some (1, 4, 31)) none]

theorem wit_pegs :
    (let s := core1 4 (word 0x43 [(86, 31), (65, 7), (0, 15)]) (rg [] []) [strm8 5 0 (some (1, 4, 31)) none [] true]
     At s 4 (0x43, 0) ∧ (s.pegOut 1 4 (wPort (ctx s 4).word)).map (·.id) = some 5) ∧
    (let s := core1 4 (word 0x43 [(86, 31), (76, 1), (62, 7)]) (rg [] []) [strm8 5 0 none (some (1, 4, 31)) [peg1] true]
     At s 4 (0x43, 1) ∧ (s.pegIn 1 4 (wPort (ctx s 4).word)).map (·.id) = some 5 ∧ ∀ y ∈ s.streams, Strm s y) ∧
    (∀ k ∈ [0, 1, 2], At (steerS k) 4 (0x44, 0) ∧ (steerS k).judgeSteer 1 4 (ctx (steerS k) 4) (ctx (steerS k) 4).word = none ∧
      (ctx (steerS k) 4).steer.getD ((ctx (steerS k) 4).ct (bits (ctx (steerS k) 4).word 67 65)) = k) ∧
    (let s := steerS 1
     (s.takePort 1 4 1).map (·.id) = some 5 ∧ (s.pegIn 1 4 2).map (·.id) = some 6 ∧ (∀ y ∈ s.streams, Strm s y) ∧
       pegBad (ctx s 4).word peg1 = false) := by decide +kernel

/-- R265: a peg taken puts its value into the ct register; R267: a pair sends the tile on. -/
theorem test_pegs :
    ok (exec (.pegTake 1 4) (core1 4 (word 0x43 [(86, 31), (76, 1), (62, 7)]) (rg [] []) [strm8 5 0 none (some (1, 4, 31)) [peg1] true]))
      (fun t => (ctx t 4).ct 7 == 0x1234) = true ∧
    ok (exec (.steer 1 4) (steerS 2)) (fun t => (ctx t 4).steer == some 1 && ((t.strm? 7).map (·.flight.length)) == some 1) = true := by
  decide +kernel

/-- A VOP: destination ad 0, operands ad 1 and ad 2, count in ct 0, INC. -/
def vopS (o : Nat) : State :=
  (core1 2 (word 0x13 [(108, o), (100, 0), (96, 1), (92, 2), (79, 1)]) (rg [cs, cs + 64, cs + 128] [2]) []).setBytes (cs + 64)
    (leBytes 4 0x3F800000 ++ leBytes 4 0x40000000 ++ List.replicate 56 0 ++ leBytes 4 0x40400000 ++ leBytes 4 0x40000000)

theorem wit_vector :
    (let s := vopS 1
     At s 2 (0x13, 0) ∧ s.judgeVop 1 2 (ctx s 2) (ctx s 2).word = none ∧
       (vopOf (ctx s 2) (ctx s 2).word).cnt ≤ vlen (vopOf (ctx s 2) (ctx s 2).word).k) ∧
    (let s := core1 2 (word 0x15 [(100, 0), (96, 1), (85, 1), (82, 0), (79, 1)]) (rg [cs, cs + 64] [2, 3]) []
     At s 2 (0x15, 0) ∧ s.judgeRdx 1 2 (ctx s 2) (ctx s 2).word = none ∧
       (let r := rdxOf (ctx s 2) (ctx s 2).word
        Apart r.dst (r.cts * vwidth r.k) r.src (if r.ctn = 0 then 0 else ((r.cts - 1) * r.ctd + r.ctn) * vwidth r.k))) := by
  decide +kernel

/-- R234: 1 + 3 is 4 in FP32. -/
theorem test_vop_add :
    ok (exec (.vop 1 2) (vopS 1)) (fun t => t.load cs 4 == 0x40800000 && (ctx t 2).ad 0 == cs + 8) = true := by decide +kernel

theorem wit_ldt_snd :
    (let s := (core1 2 (word 0x20 [(86, 31)]) (rg [] [] cs) [strm8 5 0 (some (1, 2, 31)) none]).setBytes cs (xd (cs + 64) 0 64 0 1 4 3 0)
     At s 2 (0x20, 0) ∧ s.judgeLdt 1 2 (ctx s 2) (ctx s 2).word = none ∧ (s.sendPort 1 2 31).map (·.id) = some 5 ∧ ∀ y ∈ s.streams, Strm s y) ∧
    (let s := (core1 2 (word 0x30 [(86, 31)]) (rg [cs] []) [strm8 5 0 (some (1, 2, 31)) none]).setBytes cs (tile8 [1, 2, 3, 4])
     At s 2 (0x30, 0) ∧ s.judgeSnd 1 2 (ctx s 2) (ctx s 2).word = none ∧ (s.sendPort 1 2 31).map (·.id) = some 5 ∧
       ∀ y ∈ s.streams, Strm s y) := by decide +kernel

theorem wit_rcv : ∀ k ∈ [0, 1],
    let s := core1 2 (word 0x31 [(86, 31), (76, k)]) (rg [cs] []) [strm8 5 0 none (some (1, 2, 31)) [tile8 [1, 2, 3, 4]]]
    At s 2 (0x31, k) ∧ s.judgeRcv 1 2 (ctx s 2) (ctx s 2).word = none ∧ (s.takePort 1 2 31).map (·.id) = some 5 ∧
      (∀ y ∈ s.streams, Strm s y) ∧ s.lockedAt cs (imageLen (tile8 [1, 2, 3, 4]) false) = false := by decide +kernel

theorem wit_stt :
    (let s := (core1 2 (word 0x21 [(86, 1), (80, 2)]) (rg [] [] cs)
         [strm8 5 2 (some (1, 2, 1)) none, strm8 6 0 none (some (1, 2, 2)) [tile8 [1, 2, 3, 4]]]).setBytes cs (xd (cs + 64) 0 64 0 0 0 0 0)
     At s 2 (0x21, 0) ∧ s.judgeStt 1 2 (ctx s 2) (ctx s 2).word = none ∧ (s.sinkPort 1 2 1).map (·.id) = some 5 ∧
       (s.takePort 1 2 2).map (·.id) = some 6 ∧ (∀ y ∈ s.streams, Strm s y) ∧ s.lockedAt (cs + 64) 4 = false) ∧
    (let s := ((core1 2 (word 0x21 [(86, 1), (60, 1)]) (rg [] [] cs) [strm8 5 2 (some (1, 2, 1)) none]).setBytes cs
         (xd (cs + 64) (cs + 128) 64 0 0 0 0 0)).setBytes (cs + 128) (tile8 [1, 2, 3, 4])
     At s 2 (0x21, 1) ∧ s.judgeStt 1 2 (ctx s 2) (ctx s 2).word = none ∧ (s.sinkPort 1 2 1).map (·.id) = some 5) ∧
    (let s := ((core1 0 (word 0x21 [(86, 1), (60, 2)]) (rg [] [] cs) [strm8 5 2 (some (1, 0, 1)) none, strm8 6 0 (some (1, 0, 2)) none]).setBytes cs
         (xd (cs + 64) 0 64 0 0 0 0 0)).setDr 2 { force := some ⟨0, [0, 3, 2, 0xFF, 0xFF, 0xFF, 1, 0], 0, [], true, 0⟩ }
     At s 0 (0x21, 2) ∧ s.judgeStt 1 0 (ctx s 0) (ctx s 0).word = none) := by decide +kernel

/-- R249: elements of a taken tile land at the target, row by row. -/
theorem test_stt_port :
    ok (exec (.sttFromPort 1 2) ((core1 2 (word 0x21 [(86, 1), (80, 2)]) (rg [] [] cs)
         [strm8 5 2 (some (1, 2, 1)) none, strm8 6 0 none (some (1, 2, 2)) [tile8 [1, 2, 3, 4]]]).setBytes cs (xd (cs + 64) 0 64 0 0 0 0 0)))
      (fun t => t.bytes (cs + 63) 6 == [0, 1, 2, 3, 4, 0]) = true := by decide +kernel

/-- An address of device 5. -/
def dev5 (a : Nat) : Nat := 5 * 2 ^ 49 + 2 ^ 48 + a

theorem wit_transfers :
    (∀ op ∈ [0x24, 0x25], ∀ len ∈ [0, 64],
      let s := (core1 2 (word op []) (rg [] [] cs) []).setBytes cs (xd (cs + 128) (cs + 256) 0 len 0 0 0 0)
      At s 2 (op, 0) ∧ s.judgePutGet 1 2 (ctx s 2) (ctx s 2).word = none ∧ s.target (cs + 128) = .near (cs + 128) ∧
        s.lockedAt (cs + 128) len = false ∧ s.lockedAt (cs + 256) len = false) ∧
    (∀ e ∈ [true, false],
      let s := (core1 4 (word 0x23 [(86, 31)]) (rg [] [] cs)
        [strm8 5 0 none (some (1, 4, 31)) [tile8 (if e then [] else [1, 2, 3, 4])]]).setBytes cs (xd (cs + 128) (cs + 256) 64 0 0 0 0 0)
      At s 4 (0x23, 0) ∧ s.judgeSct 1 4 (ctx s 4) (ctx s 4).word = none ∧ (s.takePort 1 4 31).map (·.id) = some 5 ∧
        (∀ y ∈ s.streams, Strm s y) ∧ tEmpty (tile8 (if e then [] else [1, 2, 3, 4])) = e ∧ s.shCount = 0) ∧
    (let s := core1 2 (word 0x26 [(72, 1), (76, 4), (61, 1), (60, 1), (68, 15)]) (rg [0, shared, 0, 0, 0, 0, 0, 0, 0, 0, 0, 0, 0, 0, 0, cs] []) []
     At s 2 (0x26, 0) ∧ s.judgeAtm 1 2 (ctx s 2) (ctx s 2).word = none ∧ s.target (wAd (ctx s 2) (ctx s 2).word) = .near shared) := by
  decide +kernel

/-- Extents of 1, 1 and 8 in a fabric of which this is device 0. -/
def torus (s : State) : State := ((s.put F.IKF_TORUS_DX 1).put F.IKF_TORUS_DY 1).put F.IKF_TORUS_DZ 8

theorem wit_far_transfers :
    (∀ op ∈ [0x24, 0x25],
      let s := torus ((core1 2 (word op []) (rg [] [] cs) []).setBytes cs (xd (dev5 128) (cs + 256) 0 64 0 0 0 0))
      At s 2 (op, 0) ∧ s.judgePutGet 1 2 (ctx s 2) (ctx s 2).word = none ∧ s.target (dev5 128) = .far 5 128) ∧
    (let s := torus ((core1 4 (word 0x23 [(86, 31)]) (rg [] [] cs)
        [strm8 5 0 none (some (1, 4, 31)) [tile8 [1, 2, 3, 4]]]).setBytes cs (xd (dev5 128) (cs + 256) 64 0 0 0 0 0))
     At s 4 (0x23, 0) ∧ s.judgeSct 1 4 (ctx s 4) (ctx s 4).word = none ∧ s.target (dev5 128) = .far 5 128 ∧
       (s.sctRows (tile8 [1, 2, 3, 4]) (s.xdesc (ctx s 4) (ctx s 4).word) 128).flatMap
         (fun p => dataParts p.2 (rowBytes (tile8 [1, 2, 3, 4]) false p.1)) ≠ []) ∧
    (let s := torus (core1 2 (word 0x26 [(72, 1)]) (rg [0, dev5 128] []) [])
     At s 2 (0x26, 0) ∧ s.judgeAtm 1 2 (ctx s 2) (ctx s 2).word = none ∧ s.target (wAd (ctx s 2) (ctx s 2).word) = .far 5 128) ∧
    (let s := torus ((core1 4 (word 0x22 []) (rg [] [] cs) []).setBytes cs (xd (dev5 0) (cs + 256) 0 64 0 0 0 3))
     At s 4 (0x22, 0) ∧ s.judgeGat 1 4 (ctx s 4) (ctx s 4).word = none ∧
       bits (s.xdesc (ctx s 4) (ctx s 4).word).addr 63 49 ≠ s.selfLog) := by decide +kernel

/-- A shard table of one entry: shard 3 of 32 elements at the start of the window, banks 4 KiB on, E 7 and flags as given. -/
def sharded (flags lockStep : Nat) (s : State) : State :=
  (((s.put F.CMD_SHTAB_LO_ADDR_LO (shared / 64)).put F.CMD_SHTAB_N_NSH 1).put F.CMD_SHTAB_N_BOUND 1).setBytes shared
    (leBytes 4 3 ++ leBytes 4 32 ++ leBytes 8 (shared + 4096) ++ leBytes 8 (shared + 8192) ++ leBytes 4 7 ++ leBytes 4 0
      ++ leBytes 4 flags ++ leBytes 4 lockStep)

theorem wit_gather :
    let s := sharded 2 8 ((core1 4 (word 0x22 []) (rg [] [7] cs) []).setBytes cs (xd 0 (cs + 256) 0 0 0 0 0 3))
    At s 4 (0x22, 0) ∧ s.judgeGat 1 4 (ctx s 4) (ctx s 4).word = none ∧
      (let d := s.xdesc (ctx s 4) (ctx s 4).word
       bits d.addr 63 49 = s.selfLog ∧ s.judgeGather d.shard ((ctx s 4).ct 0) s.sectWorld (d.addr % 2 ^ 48) d.len = .serve 0) ∧
      s.shLocked 0 = true := by decide +kernel

/-- R257: a gather of a free shard copies from the working copy and locks it for the step. -/
theorem test_gather :
    ok (exec (.gat 1 4) ((sharded 0 8 ((core1 4 (word 0x22 []) (rg [] [7] cs) []).setBytes cs (xd 0 (cs + 256) 0 64 0 0 0 3))).setBytes
      (shared + 4096 + 192) [9])) (fun t => t.byte (cs + 256) == 9 && t.shLocked 0 && t.shLockStep 0 == 0) = true := by decide +kernel

/-- A chain descriptor without stages: FP32 out on port 2, one problem wide, 4 columns. -/
def chain0 : List Byte := [0, 0xB, 2, 0xFF, 0xFF, 0xFF, 1, 0, 7, 0, 0, 0, 4, 0, 0, 0]

/-- A problem descriptor of BF16 operands at addresses. -/
def pd (m n k a w lda ldw psb0 : Nat) : List Byte :=
  [0, 0, 0, 0] ++ leBytes 4 m ++ leBytes 4 n ++ leBytes 4 k ++ leBytes 8 a ++ leBytes 8 w ++ leBytes 4 lda ++ leBytes 4 ldw
    ++ leBytes 2 psb0 ++ [1, 1] ++ leBytes 20 0

/-- An output stream of FP32 tiles of 1 row and 4 columns on port 2 of slot `sl`. -/
def out2 (sl : Nat) : StreamSt := { strm8 6 0 (some (1, sl, 2)) none with fmt := 0xB }

/-- A matrix station at a word, with a chain in force. -/
def matrix (op : Nat) (fs : List (Nat × Nat)) (p : List Byte) : State :=
  ((core1 0 (word op fs) (rg [cs + 0x1000] [] cs) [out2 0]).setBytes cs p).setDr 2 { force := some ⟨0, chain0, 0, [], true, 0⟩, serial := 1 }

theorem wit_matrix :
    (let s := matrix 0x10 [] (pd 1 4 2 (cs + 0x100) (cs + 0x200) 64 64 0)
     At s 0 (0x10, 0) ∧ s.judgeMm false 1 0 (ctx s 0) (ctx s 0).word = none) ∧
    (let s := matrix 0x11 [(94, 3), (93, 1)] (pd 1 4 2 (cs + 0x100) (cs + 0x200) 64 64 511)
     At s 0 (0x11, 0) ∧ s.judgeMm true 1 0 (ctx s 0) (ctx s 0).word = none) ∧
    (let s := (matrix 0x14 [] []).setBytes (cs + 0x1000) chain0
     At s 0 (0x14, 0) ∧ s.judgeDrc 1 0 (ctx s 0) (ctx s 0).word = none) := by decide +kernel

/-- An SLD of `m` × 1 × 1, C at 0x600, scratch at 0x8000 and record at 0x700. -/
def sldS (m : Nat) : State :=
  (core1 0 (word 0x12 [(88, 1), (84, 2)]) (rg [0, cs + 0x8000, cs + 0x700] [] cs) []).setBytes cs
    ([0xCC, 0, 0, 0] ++ leBytes 4 m ++ leBytes 4 1 ++ leBytes 4 1 ++ leBytes 8 (cs + 0x400) ++ leBytes 8 (cs + 0x500) ++ leBytes 4 64 ++ leBytes 4 64
      ++ leBytes 12 0 ++ leBytes 8 (cs + 0x600) ++ leBytes 4 64)

theorem wit_sld : ∀ m ∈ [0, 1], At (sldS m) 0 (0x12, 0) ∧ (sldS m).judgeSld 1 0 (ctx (sldS m) 0) (ctx (sldS m) 0).word = none ∧
    (∀ r ∈ sldFar (ctx (sldS m) 0) (ctx (sldS m) 0).word (pdescOf ((sldS m).bytes cs 64)), (sldS m).lockedAt r.1 r.2 = false) ∧
    (pdescOf ((sldS m).bytes cs 64)).zero = decide (m = 0) := by decide +kernel

/-- R230: 1 · 2 + 3 · 4 is 14. -/
theorem test_vector_dot :
    encodeIeee fp64 (vectorDot ([1, 3].map (fun (n : Nat) => .fin false n 0)) ([2, 4].map (fun (n : Nat) => .fin false n 0))) = 0x402C000000000000 := by
  decide +kernel

/-- A scale table of two entries for core 1 at the start of the window, the second open at step 5. -/
def tabled (committed : Nat) (s : State) : State :=
  ((((s.put F.CO_NUM_TBL_LO_ADDR_LO (shared / 4096) 1).put F.CO_NUM_STAT_TBL_BOUND 1 1).setBytes shared
    (leBytes 4 committed ++ leBytes 2 2)).store (entAddr shared 1 + 72) 4 0x40000000).store (entAddr shared 1 + 76) 4 5

/-- A SCALE of form `f` for index or step `v`. -/
def scaleS (f v committed : Nat) : State := tabled committed (core1 5 (word 0x61 [(112, f), (85, 1), (82, 7)]) { rg [] [0, v] with sc := [0, 0, 0, 0, 0, 0, 0, 0xFD] } [])

theorem wit_scale :
    (∀ f ∈ [2, 3], At (scaleS f 1 4) 5 (0x61, f) ∧ (scaleS f 1 4).judgeScale 1 5 (ctx (scaleS f 1 4) 5) (ctx (scaleS f 1 4) 5).word = none) ∧
    (∀ f ∈ [0, 1], ∀ c ∈ [4, 5],
      let s := scaleS f 5 c
      At s 5 (0x61, f) ∧ s.judgeScale 1 5 (ctx s 5) (ctx s 5).word = none ∧ s.laterThan (s.tblOf 1) 5 = decide (c = 4) ∧
        s.entOpenStep (entAddr (s.tblOf 1) 1) = 5) := by decide +kernel

/-- R145: a commit moves the open maximum of the step into its slot. -/
theorem test_scale_commit :
    ok (exec (.scaleCommit 1 5) (scaleS 0 5 4)) (fun t =>
      t.entHist (entAddr shared 1) 5 == 0x40000000 && t.tblCommitted shared == 5 && t.entOpenStep (entAddr shared 1) == noStep) = true := by
  decide +kernel

/-- A TALLY of every tensor with `k` accumulators. -/
def tallyS (k : Nat) : State :=
  (core1 0 (word 0x60 [(115, 1)]) {} []).setDr 2 { tallies := (List.range k).map (fun i => { tensor := i }) }

theorem wit_tally :
    (∀ k ∈ [0, 1], At (tallyS k) 0 (0x60, 0) ∧ (tallyS k).tallyLeft 1 0 (ctx (tallyS k) 0) (ctx (tallyS k) 0).word = k) ∧
    (tallyS 1).tallyNamed 1 0 (ctx (tallyS 1) 0) (ctx (tallyS 1) 0).word ≠ [] := by decide +kernel

/-- A channel of two ranks on Z with two buckets, its record, bucket table and results in the window. -/
def chan (arm : Option Nat) : ChanSt :=
  { rcd := shared + 0x100, axis := 2, p := 8, bs16 := false, late := false, world := .n, deadline := 0, nbkt := 2, btab := shared + 0x200, arm := arm }

theorem wit_chn :
    let s := queue 9 4 0 0 16 1 0 0 { core1 2 (word 0x50 [(72, 1), (65, 1), (96, 9)]) (rg [0, cs] [0, 1]) [] with
      chans := Tab.empty.set 9 none (some (chan (some 7))) }
    At s 2 (0x50, 0) ∧ s.judgeChn 1 2 (ctx s 2) (ctx s 2).word = none ∧ s.chan? (wQueue (ctx s 2).word) = some (chan (some 7)) ∧
      Apart (shared + 0x100 + 32) 8 (qAddr 9 + 40) 4 := by decide +kernel

/-- A PRM for bucket 1 of channel 9, whose segment has come or not. -/
def prmS (whole : Bool) (sub : Nat) : State :=
  { core1 2 (word 0x51 [(72, 1), (76, sub), (65, 1), (96, 9)]) (rg [0, cs] [0, 1]) [] with
    chans := Tab.empty.set 9 none (some { chan (some 7) with delivered := Tab.empty.set 1 {} { whole := whole, present := 3 } }) }

theorem wit_prm :
    (∀ b ∈ [true, false],
      let s := prmS b 0
      At s 2 (0x51, 0) ∧ s.judgePrm 1 2 (ctx s 2) (ctx s 2).word = none ∧ s.prms = [] ∧
        (s.prmReady ⟨1, 2, (s.core 1).issued, 9, 1, cs⟩).isSome = b ∧ s.lockedAt cs 8 = false ∧
        Apart (s.bResult (chan none) 1) (4 * s.segLen (chan none) 1 0) cs 8) ∧
    (let s := sharded 0 0 ((prmS false 1).onStn 1 2 (fun x => x.setCt 1 7))
     At s 2 (0x51, 1) ∧ s.judgePrm 1 2 (ctx s 2) (ctx s 2).word = none ∧ s.shCount = 1 ∧ ∀ i < s.shCount, s.shE i = (ctx s 2).ct 1) := by
  decide +kernel

/-- An UPD of shard 3 in step 8, Δ at 0x100 and the record at 0x200. -/
def updS : State :=
  (sharded 0 0 ((core1 2 (word 0x52 [(72, 1)]) (rg [0, cs + 0x200] [] cs) []).setBytes cs
    ((xd 0 (cs + 0x100) 0 0 0 0 0 3 0x3F800000).take 48 ++ leBytes 4 32 ++ leBytes 4 0x3F800000))).put ⟨.CO_STEP, 0, 31⟩ 8 1

theorem wit_upd :
    let s := updS
    At s 2 (0x52, 0) ∧ s.judgeUpd 1 2 (ctx s 2) (ctx s 2).word = none ∧ s.shardIx 3 = some 0 ∧ s.snapHolds 0 8 = false ∧
      s.ckptHolds 8 = false ∧ s.shE 0 = (8 + 2 ^ 32 - 1) % 2 ^ 32 ∧
      (∀ y ∈ s.updElems (s.shBank 0 (s.shCur 0)) 32 (cs + 0x100) 0x3F800000, y.2 = false) ∧ s.held = [] ∧ s.lockedAt (cs + 0x200) 16 = false ∧
      Apart s.shBase (64 * s.shCount) (s.shBank 0 1) (bankLen 32) ∧ Apart s.shBase (64 * s.shCount) (cs + 0x200) 16 ∧
      Apart (s.shBank 0 1) (bankLen 32) (cs + 0x200) 16 := by decide +kernel

/-- R261 with R156: 1 · 0 + 1 in element 0 of the other bank, and the shard takes the step's epoch. -/
theorem test_upd :
    ok (exec (.upd 1 2) (updS.store (cs + 0x100) 4 0x3F800000)) (fun t =>
      t.load (shared + 8192) 4 == 0x3F800000 && t.shE 0 == 8 && t.shCur 0 == 1) = true := by
  decide +kernel

/-! ## Engines and drains -/

/-- A problem of 1 × 4 × 2 in BF16 under chain 0, its activations at 0x100 and its weights at 0x200. -/
def prob0 : Problem :=
  { id := 0, heritage := false, quad := none, pair := 0, desc := pd 1 4 2 (cs + 0x100) (cs + 0x200) 64 64 0, rows := 1, cols := 4, passes := 1,
    ea := 0, ew := 0, row0 := 0, col0 := 0, lastN := true, chain := 0 }

/-- Weights of ones, and the activations 1 and 2. -/
def ones : Operand := ⟨0, [[0x3F80, 0x3F80, 0x3F80, 0x3F80], [0x3F80, 0x3F80, 0x3F80, 0x3F80]], [[127, 127, 127, 127]], [0, 0]⟩
def oneTwo : Operand := ⟨0, [[0x3F80, 0x4000]], [[127]], [0]⟩

/-- The load of that problem's weights, and a beat of its row. -/
def load0 (complete : Bool) : FlyLoad := ⟨0, 0, 0, [⟨none, ones⟩], 0, none, complete⟩
def beat0 (missed : Bool) : Beat := ⟨0, 0, [⟨0, 0, oneTwo, 0⟩], missed, true⟩

/-- Engine 2 in a state, core 1 with loads. -/
def engS (x : EngineSt) (loads : List FlyLoad) : State :=
  let s := (matrix 0x10 [] []).setBytes (cs + 0x100) [0x80, 0x3F, 0, 0x40]
  (s.setCore 1 { s.core 1 with loads := loads, loadNum := loads.length, mm0 := 1 }).setEng 2 x

theorem wit_filler :
    (let s := (core1 0 0 {} []).put Ctl.fill.basic 1 2
     s.fillerOn 2 = true ∧ (s.eng 2).gap < s.fld F.ME_FILL_X_GAP_THR 2) ∧
    (let s := ((core1 0 0 {} []).put Ctl.fill.basic 1 2).setEng 2 { gap := 64, dens := 1, ramp := some false }
     s.fillerOn 2 = true ∧ (s.eng 2).ramp ≠ none ∧ 0 < (s.eng 2).dens) ∧
    (let s := ((core1 0 0 {} []).put Ctl.fill.basic 1 2).setEng 2 { gap := 64 }
     s.fillerOn 2 = true ∧ s.fld F.ME_FILL_X_GAP_THR 2 ≤ (s.eng 2).gap ∧ 0 < (s.eng 2).dens ∧ (s.eng 2).ramp ≠ some false) ∧
    (∀ up ∈ [true, false], ((engS { ramp := some up, dens := 64 } []).eng 2).ramp = some up) := by decide +kernel

theorem wit_loads :
    (let s := ((engS {} []).setCore 1
        { stns := setAt (List.replicate 6 none) 0 (some (station [0, 0] {})), jobs := [⟨0, 0, 1, [⟨none, prob0.desc, 0⟩], 0⟩] })
     s.coreRuns 1 = true ∧ (pdescOf prob0.desc).wsrc = false ∧ NoRebuild s 1 ∧ LoaderFree s 1) ∧
    NoRebuild (engS {} [load0 false]) 1 ∧ ¬ NoRebuild (engS { rebuild := some 0 } [load0 true]) 1 ∧
    (let s := engS { again := [beat0 true] } [load0 true]
     (s.eng 2).stopped = false ∧ (s.eng 2).pipe.length < s.fld F.ME_LAT_LAT 2 ∧ (s.eng 2).rebuild ≠ some (beat0 true).load ∧
       (s.loadNo 1 0).isSome = true) ∧
    (let s := engS { probs := [prob0] } [load0 true]
     (s.eng 2).again = [] ∧ (s.eng 2).current = [prob0] ∧ prob0.closed = true ∧ (pdescOf prob0.desc).asrc = false ∧
       s.loadFor 1 prob0.pair prob0.pass = some (load0 true) ∧ (s.beatOf 2 prob0).isSome = true) := by decide +kernel

/-- R37: the beat carries the two activations of the row. -/
theorem test_beat_issue :
    ok (exec (.beatIssue 2) (engS { probs := [prob0] } [load0 true])) (fun t =>
      (t.eng 2).pipe == [beat0 false] && t.fld F.ME_CYC_BEAT_COUNT 2 == 1) = true := by decide +kernel

/-- A fault in column 0 of vector 0: 1 is added. -/
def fault0 : List ColFault := [⟨0, 0, false, 1, 0⟩]

theorem wit_check :
    (let s := engS { probs := [prob0], pipe := [beat0 false] } [load0 true]
     s.coreRuns 1 = true ∧ s.chkPolicy 2 = 0 ∧ ¬ SomeMiss s 2 (beat0 false) (s.lanes 2 (beat0 false) []) [] ∧ (s.lanes 2 (beat0 false) []).length = 1 ∧
       SomeMiss s 2 (beat0 false) (s.lanes 2 (beat0 false) fault0) fault0 ∧ s.flag F.ME_STATUS_SUSPECT 2 = false ∧
       (s.put F.ME_STATUS_SUSPECT 1 2).flag F.ME_STATUS_SUSPECT 2 = true) := by decide +kernel

/-- R55: 1·1 + 2·1 = 3 in every column of the PSB row, and the problem's row is done. -/
theorem test_beat_commits :
    ok (exec (.beatCheck 2 [] false) (engS { probs := [prob0], pipe := [beat0 false] } [load0 true])) (fun t =>
      (((t.eng 2).psb.get 0 psbNone).vals.map (·.hi)) == [0x40400000, 0x40400000, 0x40400000, 0x40400000] && (t.eng 2).pipe.isEmpty) = true := by
  decide +kernel

/-- R58: a first miss puts the beat and its followers up again. -/
theorem test_first_miss :
    ok (exec (.beatCheck 2 fault0 false) (engS { probs := [prob0], pipe := [beat0 false, beat0 false] } [load0 true])) (fun t =>
      (t.eng 2).again == [beat0 true, beat0 false] && t.fld F.ME_CHK_CNT_RECOV 2 == 1) = true := by decide +kernel

/-- A chain with one FP8 quantise stage from the history of entry 1. -/
def chainQ : List Byte :=
  [1, 2, 2, 0xFF, 0xFF, 0xFF, 1, 0, 7, 0, 0, 0, 4, 0, 0, 0, 8, 0, 0, 0, 2, 0, 1, 0, 0, 0, 0, 0, 0, 0, 0, 0]

/-- The same with table T0 named by an activation stage. -/
def chainT : List Byte :=
  [1, 0xB, 2, 0xFF, 0xFF, 0xFF, 1, 0, 7, 0, 0, 0, 4, 0, 0, 0, 4, 0, 0, 0, 0, 0, 0, 0, 0, 0, 0, 0, 0, 0, 0, 0]

/-- A drain tile of the problem, with `read` rows read. -/
def tile0 (read : Nat) (raw : Nat) (overE : Bool) : DrainTile :=
  { prob := 0, ix := 0, vrows := 1, vcols := 4, row0 := 0, col0 := 0, lastt := false, read := read, raw := raw, overE := overE }

/-- Core 1's drain with a chain in force and tiles, the problem's row done, and a table. -/
def drS (chain : List Byte) (d : DrainSt) : State :=
  let s := tabled 4 ((engS { probs := [{ prob0 with done := 1 }], psb := Tab.empty.set 0 psbNone ⟨0, .single, List.replicate 4 { hi := 0x40400000 }⟩ } []).setDr 2
    { d with force := some ⟨0, chain, 0, [], true, 0⟩ })
  s.setCore 1 { s.core 1 with numX := none }

theorem wit_chains :
    (let s := (matrix 0x14 [] []).setDr 2 { next := some ⟨1, chainT, 0, [], false, 0⟩ }
     s.coreRuns 1 = true ∧ (tablesNamed (Chain.recs ⟨1, chainT, 0, [], false, 0⟩)) = [0]) ∧
    (let s := (matrix 0x14 [] []).setDr 2 { force := some ⟨0, chain0, 0, [], true, 0⟩, next := some ⟨1, chainT, 0, [], true, 0⟩ }
     s.chainBusy 2 0 = false ∧ (s.dr 2).statOut = []) ∧
    (let s := drS chain0 { slots := [tile0 0 0 false] }
     s.probOf 2 0 = some { prob0 with done := 1 } ∧ (tile0 0 0 false).read < (tile0 0 0 false).vrows) ∧
    (let s := drS chainQ { slots := [tile0 1 0x7F000000 true] }
     (Chain.quant ⟨0, chainQ, 0, [], true, 0⟩).isSome ∧
       numMaxd (s.numX 1) < rescaleBy 2 (f32 0x7F000000) 0 300 1 ∧ (s.dr 2).slots.getLast? = some (tile0 1 0x7F000000 true)) ∧
    (let s := drS chainQ { slots := [tile0 1 0x48000000 true] }
     ¬ (numMaxd (s.numX 1) < rescaleBy 2 (f32 0x48000000) 0 300 1 ∨
       (numLimit (s.numX 1) ≠ 255 ∧ numLimit (s.numX 1) ≤ (s.dr 2).rescaledIn 0) ∨ 127 < (0 : Int) + rescaleBy 2 (f32 0x48000000) 0 300 1)) := by
  decide +kernel

/-- R109: the row of threes goes through a chain without stages into the tile. -/
theorem test_row_read :
    ok (exec (.psbRowRead 2) (drS chain0 { slots := [tile0 0 0 false] })) (fun t =>
      ((t.dr 2).slots.map (fun x => (x.read, x.codes))) == [(1, [[0x40400000, 0x40400000, 0x40400000, 0x40400000]])]) = true := by decide +kernel

/-- A history of one maximum, 4.0 of step 4, in entry 1, and step 5 in progress. -/
def derS (valid committed step : Nat) : State :=
  let s := (((drS chainQ {}).put ⟨.CO_STEP, 0, 31⟩ step 1).store (entAddr shared 1 + 64) 4 4).store (entAddr shared 1 + 68) 2 valid
  (s.store (entAddr shared 1 + 16) 4 0x40800000).store shared 4 committed

theorem wit_derive :
    (∀ v ∈ [0, 16], let s := derS v 4 5
     s.coreRuns 1 = true ∧ (s.meets 2).map (·.2.1) = some 0 ∧ (s.meets 2).bind (·.2.2.history) = some 1 ∧
      ((s.meets 2).bind (fun m => s.tensorExp 2 m.2.2)) = none ∧ ({ prob0 with done := 1 } : Problem).vrows 0 ≠ 0 ∧
      s.scaleWaits (s.tblOf 1) 5 = false ∧ (s.histMax (entAddr (s.tblOf 1) 1) 5 (numHist (s.numX 1))).isZero = decide (v = 0)) ∧
    (derS 16 4 6).scaleWaits ((derS 16 4 6).tblOf 1) 6 = true := by decide +kernel

/-- A raw maximum waiting for the slice. -/
def rawS (openStep committed : Nat) : State :=
  ((tabled committed (core1 0 0 {} [])).store (entAddr shared 1 + 76) 4 openStep).setDr 2 { rawOut := [⟨entAddr shared 1, 5, 0x41000000⟩] }

theorem wit_raw :
    (rawS 5 4).entOpenStep (entAddr shared 1) = 5 ∧
    ((rawS 4 4).entOpenStep (entAddr shared 1) ≠ 5 ∧ (rawS 4 4).laterThan ((rawS 4 4).tblOf 1) 5 = true) ∧
    ((rawS 4 5).entOpenStep (entAddr shared 1) ≠ 5 ∧ (rawS 4 5).laterThan ((rawS 4 5).tblOf 1) 5 = false) := by decide +kernel

/-- R144: the larger of the open maximum 2.0 and 8.0 stays. -/
theorem test_raw_max : ok (exec (.rawMaxAtomic 2) (rawS 5 4)) (fun t => t.entOpen (entAddr shared 1) == 0x41000000) = true := by decide +kernel

theorem wit_release :
    (let s := (matrix 0x10 [] []).setDr 2 { statOut := [(2, 7, 0, [(0, 0)])] }
     s.coreRuns 1 = true ∧ s.tileOut 1 0 2 = some (out2 0) ∧ Strm s (out2 0) ∧ (out2 0).sends = true ∧ 0 < (out2 0).credits) ∧
    (let s := drS chain0 { slots := [tile0 1 0 false] }
     s.probOf 2 0 = some { prob0 with done := 1 } ∧ s.tileOut 1 0 2 = some (out2 0) ∧ Strm s (out2 0) ∧
       (tile0 1 0 false).vrows ≤ (tile0 1 0 false).read ∧ (s.dr 2).claims = [] ∧ Chain.statMode ⟨0, chain0, 0, [], true, 0⟩ = none) ∧
    (let s := { dev with examine := [List.replicate 64 0, leBytes 40 0 ++ leBytes 4 1 ++ leBytes 20 0] }
     (s.proc 4).run = .running ∧ s.alertCodes (List.replicate 64 0) = [] ∧
       s.alertCodes (leBytes 40 0 ++ leBytes 4 1 ++ leBytes 20 0) ≠ []) := by decide +kernel

/-! ## Streams and sections -/

/-- A stream into port 1 of slot 2 on core 1, with tiles on their way. -/
def inS (y : StreamSt) : State := { core1 2 0 {} [] with streams := [y] }
def fl (t : List Byte) (peg : Bool) : StreamSt := { strm8 5 0 (some (0, 2, 0)) (some (1, 2, 1)) [] peg with flight := [t] }

theorem wit_arrivals : ∀ peg ∈ [true, false],
    let y := fl (if peg then peg1 else tile8 [1, 2, 3, 4]) peg
    (inS y).UnitsInRange ∧ (inS y).strm? 5 = some y ∧ y.closed = false ∧ y.peg = peg ∧ y.hasQueue = true := by decide +kernel

theorem wit_credit : ∀ k ∈ [1, 2],
    let y := { strm8 5 0 (some (0, 2, 0)) (some (1, 2, 1)) with guy := 1, credits := k }
    (inS y).UnitsInRange ∧ (inS y).strm? 5 = some y ∧ y.kind ≠ 2 ∧ y.kind ≠ 3 ∧ y.kind ≠ 4 ∧ decide (y.credits < y.depth) = decide (k = 1) := by
  decide +kernel

/-- R171: a good tile is queued; R172: a damaged header closes the queue with subcode 1. -/
theorem test_arrival :
    ok (exec (.tileArrival 5 false) (inS (fl (tile8 [1, 2, 3, 4]) false))) (fun t => ((t.strm? 5).map (·.queue)) == some [tile8 [1, 2, 3, 4]]) = true ∧
    ok (exec (.tileArrival 5 true) (inS (fl (tile8 [1, 2, 3, 4]) false))) (fun t =>
      ((t.strm? 5).map (·.closed)) == some true && t.fld F.CO_PROTO_LOG_SUBCODE 1 == 1) = true := by decide +kernel

/-- A fed stream with a list of two tiles at 0x400 of core 1's store, entry tags 0 and `tag`. -/
def fedStrm (irreg : Bool) (fi : Nat) : StreamSt :=
  { strm8 5 1 none (some (1, 2, 1)) with flist := cs + 0x400, irreg := irreg, fi := fi, need := 4, fetch := 2 }
def fedS (irreg : Bool) (fi tag : Nat) (vr : Nat) : State :=
  (inS (fedStrm irreg fi)).setBytes (cs + 0x420) (leBytes 8 (cs + 0x800) ++ leBytes 4 64 ++ leBytes 2 1 ++ leBytes 2 4 ++ leBytes 16 0
    ++ leBytes 8 (cs + 0x840) ++ leBytes 4 64 ++ leBytes 2 vr ++ leBytes 2 4 ++ leBytes 2 0 ++ leBytes 2 tag ++ leBytes 12 0)

theorem wit_fetch_issue :
    (let s := fedS false 1 0 1
     let y := fedStrm false 1
     s.UnitsInRange ∧ s.strm? 5 = some y ∧ y.hasQueue = true ∧ y.fed = true ∧ y.closed = false ∧ s.saving = false ∧ y.fi < y.need ∧
       y.fi < y.takenRun + Nat.min y.fetch y.depth ∧ 0 < y.credits ∧ s.stopping = false ∧ s.entryBad y (y.fentry y.fi) = false) ∧
    (let s := fedS true 1 3 1
     s.strm? 5 = some (fedStrm true 1) ∧ s.holdsFor (fedStrm true 1) < s.load ((fedStrm true 1).fentry 1 + 18) 2) ∧
    (let s := fedS false 1 0 2
     s.strm? 5 = some (fedStrm false 1) ∧ s.entryBad (fedStrm false 1) ((fedStrm false 1).fentry 1) = true) := by decide +kernel

theorem wit_fetch_arrival :
    ∀ g ∈ [0, 1],
      let y := { fedStrm false 1 with fly := [(0, g, tile8 [1, 2, 3, 4])] }
      (inS y).UnitsInRange ∧ (inS y).strm? 5 = some y ∧ y.hasQueue = true ∧ y.closed = false ∧ (decide (g = y.gen) = decide (g = 0)) := by
  decide +kernel

/-- R301: the second entry of the list is issued. -/
theorem test_fetch : ok (exec (.fetchIssue 5) (fedS false 1 0 1)) (fun t => ((t.strm? 5).map (·.fi)) == some 2) = true := by decide +kernel

/-- A pitch image at the start of HBM: one station on logical core 1, slot 2, with a NOP, and a sink of 8-bit tiles. -/
def image (fmtv : Nat) : List Byte :=
  let b := leBytes 2 fmtv ++ [1, 0] ++ leBytes 2 9 ++ leBytes 2 1 ++ leBytes 2 1 ++ [18, 1, 1, 1, 0, 0] ++ leBytes 4 64 ++ leBytes 4 96
    ++ leBytes 4 128 ++ leBytes 4 144 ++ leBytes 4 160 ++ leBytes 28 0
    ++ leBytes 2 3 ++ [1, 2] ++ leBytes 4 144 ++ leBytes 4 1 ++ [0xFF] ++ leBytes 19 0
    ++ leBytes 2 5 ++ leBytes 2 3 ++ [0] ++ leBytes 2 0xFFFF ++ [0, 2, 2, 0, 0, 3, 0] ++ leBytes 2 1 ++ leBytes 2 4 ++ leBytes 14 0
    ++ leBytes 4 4 ++ [1, 0, 0, 0] ++ leBytes 24 0
  putField b 56 4 (crc32c b)

/-- The image in HBM; a device whose clusters run, or are in bivouac. -/
def imaged (f : Nat) (awake : Bool) : State := (if awake then dev else running 4 upS).setBytes hbmBase (image f)

theorem wit_pitch :
    (let r := (imaged 1 true).poolResize.checkImage hbmBase 0 []
     ((imaged 1 true).proc 4).run = .running ∧ (imaged 1 true).sect = none ∧ (imaged 1 true).job = none ∧ r.2 = none ∧
       (imaged 1 true).poolResize.sleeping r.1 = []) ∧
    (let r := (imaged 1 false).poolResize.checkImage hbmBase 0 []
     r.2 = none ∧ (imaged 1 false).poolResize.sleeping r.1 = [0]) ∧
    ((imaged 2 true).poolResize.checkImage hbmBase 0 []).2 = some { code := 1 } := by decide +kernel

/-- R184: the section is bound to core 1 with its one stream. -/
theorem test_pitch :
    ok (exec (.pitch (some hbmBase) []) (imaged 1 true)) (fun t =>
      (t.sect.map (·.id)) == some 9 && t.fld F.CO_SECT_STATE 1 == 2 && t.streams.map (·.id) == [5] &&
        (t.stn? 1 2).map (·.prog) == some [0]) = true := by decide +kernel

/-- A job with one schedule entry, the image above; its map, schedule and manifest in HBM. -/
def job1 : Job :=
  ⟨1, 77, false, hbmBase + 0x10000, hbmBase + 0x11000, hbmBase + 0x12000, shared, 0, 12, [], [], 0, none, [], [], some ⟨3, 21, []⟩, 0, 0⟩
def jobS (f : Nat) (awake : Bool) : State :=
  { ((imaged f awake).store (hbmBase + 0x11002) 2 1).setBytes (hbmBase + 0x11040) (leBytes 8 hbmBase ++ [0, 0xFF, 0, 0] ++ leBytes 4 1) with
    job := some job1 }

theorem wit_pitch_job :
    (∀ b ∈ [true, false],
      let s := jobS 1 b
      let u := s.poolResize
      (s.proc 4).run = .running ∧ s.sect = none ∧ s.mayPitch job1 = true ∧ u.job = some job1 ∧ u.entryFrom job1 0 = 0 ∧
        u.ent job1 0 0 8 = hbmBase ∧ u.entryRt job1 0 = 0 ∧ (u.entBufs job1 0) = [] ∧ (u.entPairs job1 0) = [] ∧
        (u.checkImage hbmBase 0 []).2 = none ∧ (u.sleeping (u.checkImage hbmBase 0 []).1).isEmpty = b) ∧
    ((jobS 2 true).poolResize.checkImage hbmBase 0 []).2 = some { code := 1 } := by decide +kernel

/-- The section at a phase, with a station. -/
def sectS (x : SectSt) (y : StnSt) : State :=
  ({ dev with sect := some x }.setCore 1 { stns := setAt (List.replicate 6 none) 2 (some y) })

theorem wit_strikes :
    (let s := sectS sect1 { station [0] {} with runsDone := 1 }
     s.UnitsInRange ∧ (s.proc 4).run = .running ∧ s.storesDone = true ∧ ∀ p ∈ s.allStns, sect1.runs ≤ p.2.2.runsDone ∧ p.2.2.outst = []) ∧
    (let s := ({ sectS sect1 (station [0] {}) with lcnt := 25000 }).put F.CMD_SVC_X_STALL_MS 1
     sect1.mode ≠ 0 ∧ s.flag F.CMD_SVC_WATCH_EN = true ∧ sect1.movedAt + msTicks (Nat.max (s.fld F.CMD_SVC_X_STALL_MS) 1) ≤ s.now) ∧
    (let x := { sect1 with phase := .stopping, cut := true }
     (sectS x { station [0] {} with inRound := true }).cutNow x = true ∧ (sectS x { station [0] {} with inRound := true }).uncut ≠ [] ∧
       (sectS x { station [0] {} with inRound := true }).chans.ents = []) ∧
    (let x := { sect1 with phase := .stopping, cut := true }
     (sectS x (station [0] {})).cutNow x = true ∧ (sectS x (station [0] {})).uncut = [] ∧ (sectS x (station [0] {})).storesDone = true) ∧
    (sectS { sect1 with phase := .saving, ending := true } (station [0] {})).storesDone = true := by decide +kernel

/-- R187: an early strike stops the section; R186: a completed one is saved and ends. -/
theorem test_strikes :
    ok (exec (.earlyStrike true) (sectS sect1 (station [0] {}))) (fun t =>
      (t.sect.map (fun x => (x.phase, x.cut))) == some (.stopping, true) && t.fld F.CO_SECT_STATE 1 == 3) = true ∧
    ok (exec .strikeSave (sectS { sect1 with phase := .saving, ending := true } (station [0] {}))) (fun t =>
      t.sect.isNone && t.fld F.CO_SECT_STATE 1 == 4 && t.saved.isEmpty) = true := by decide +kernel

/-! ## Memory system and package network -/

theorem wit_pool :
    (dev.proc 4).run = .running ∧ dev.sect = none ∧ (jobS 1 true).job = some job1 ∧
    (∀ ph ∈ [0, 1, 2],
      let s := { jobS 1 true with pf := some (0, ph, false), sect := some sect1 }
      s.job = some job1 ∧ s.pf = some (0, ph, false) ∧ s.sect ≠ none ∧ ph < 3 ∧ 0 < s.schedLen job1) ∧
    (let s := ((jobS 1 true).put F.MD_PF_X_IMAGE_EN 1 0).put F.MD_PF_X_RANGE_EN 1 0
     s.anyPf F.MD_PF_X_IMAGE_EN = true ∧ s.anyPf F.MD_PF_X_RANGE_EN = true) ∧
    (dev.put F.MD_PF_X_BUF_EN 0 0).anyPf F.MD_PF_X_BUF_EN = true ∧
    (forN 4 (fun m s => s.put F.MD_PF_X_BUF_EN 0 m) dev).anyPf F.MD_PF_X_BUF_EN = false := by decide +kernel

theorem wit_scrub : (dev.put F.HBM_SCRUB_SCRUB_EN 1 7).flag F.HBM_SCRUB_SCRUB_EN 7 = true ∧ dev.flag F.BC_PWR_ST_HBM_SR = false := by
  decide +kernel

/-- An atomic ADD of 5 to the word at the start of the window, from slot 2 of core 1 with a place for the old value or not, or
from another device. -/
def atomR (home : Option (Nat × Nat × Nat × Option Nat)) : AtomReq := ⟨shared + 4096, 0, 4, 5, 0, .n, home, []⟩
def atomS (home : Option (Nat × Nat × Nat × Option Nat)) (flags : Nat) : State :=
  { (sharded flags 8 (core1 2 0 {} [])).store (shared + 4096) 4 0xFFFFFFFF with atoms := [atomR home] }

theorem wit_atomics :
    (∀ h ∈ [none, some (1, 2, 0, none), some (1, 2, 0, some cs)], ∀ f ∈ [0, 2],
      firstWhere (fun (x : AtomReq) => (atomS h f).atomSlice x.addr == 0) (atomS h f).atoms = some (atomR h) ∧
        (atomS h f).lockedAt (shared + 4096) 4 = decide (f = 2)) ∧
    ((atomS none 0).store (shared + 4096) 4 4).lockedAt cs 4 = false ∧ Apart (shared + 4096) 4 cs 4 ∧
      ((atomS (some (1, 2, 0, none)) 2).stn? 1 2).isSome = true := by decide +kernel

/-- R255: 0xFFFFFFFF + 5 wraps to 4, and the old value comes back. -/
theorem test_atomic :
    ok (exec (.atomicExecute 0) (atomS (some (1, 2, 0, some cs)) 0)) (fun t =>
      t.load (shared + 4096) 4 == 4 && t.load cs 4 == 0xFFFFFFFF) = true := by decide +kernel

/-- A read of a line in slice 0, one pending, with a merging window of 64 cycles or none. -/
def readS (reads : List SliceRead) (w : Nat) : State :=
  { (dev.put F.MD_MERGE_X_WINDOW w 0) with reads := reads }

theorem wit_reads :
    (readS [] 64).sliceOf shared = some 0 ∧ (readS [] 64).zeroingIn shared 128 = false ∧ (readS [] 64).coreWorld 1 = (readS [] 64).worldAt shared ∧
    (dev.put F.SEC_WORLD_CORE_CORE 2).coreWorld 1 ≠ (dev.put F.SEC_WORLD_CORE_CORE 2).worldAt shared ∧
    (let r : SliceRead := ⟨0, shared / 128, .n, 10, [0], false, true⟩
     let s := readS [r] 64
     (∀ x ∈ s.reads, x.slice = 0 → 10 ≤ x.since + s.mergeWindow 0) ∧
       firstWhere (fun (x : SliceRead) => x.slice == 0 && x.line == shared / 128 && x.world == .n && x.merges) s.reads = some r ∧
       s.mergeWindow 0 ≠ 0) ∧ (readS [] 0).mergeWindow 0 = 0 := by decide +kernel

/-- A package packet: type, virtual channel and multicast bits, destination node, cores, TAG and operand set, no data. -/
def pp (type b1 dst cores tag cset : Nat) : List Byte :=
  ppSigned (leBytes 1 type ++ leBytes 1 b1 ++ leBytes 1 0 ++ leBytes 1 dst ++ leBytes 2 cores ++ leBytes 10 0 ++ leBytes 4 tag ++ leBytes 2 0
    ++ leBytes 2 cset ++ leBytes 8 0)

/-- A reduction TAG 7 at router 1 toward node 0 of logical cores 2 and 3. -/
def tag7 (segs : List (List Byte)) : RouterTag := ⟨1, 7, 0, [4, 8], segs⟩

theorem wit_routers :
    (let s := { dev with routers := [⟨7, pp 1 2 0 1 0 0⟩] }
     s.nextPkt 7 = some ⟨7, pp 1 2 0 1 0 0⟩ ∧ ppBad (pp 1 2 0 1 0 0) = false ∧ s.tagAt 7 (pp 1 2 0 1 0 0) = none ∧
       s.treeOpen 7 (pp 1 2 0 1 0 0) = true ∧ (∃ h ∈ hopsOf 7 (pp 1 2 0 1 0 0), h.1 ≠ 7 ∧ h.1 < 16) ∧
       { s with netTrain := [(6, 0)] }.treeOpen 6 (pp 1 2 0 1 0 0) = false) ∧
    ppBad (pp 10 2 0 1 0 0) = true ∧
    ({ dev with rtags := [tag7 []] }.tagAt 1 (pp 8 1 0 1 7 4)) = some (tag7 []) ∧
    (let g := tag7 [pp 8 1 0 1 7 4, pp 8 1 0 1 7 8]
     let s := { dev with rtags := [g] }
     firstWhere (fun (t : RouterTag) => t.router == 1 && t.whole.isSome) s.rtags = some g ∧
       g.whole = some [pp 8 1 0 1 7 4, pp 8 1 0 1 7 8]) := by decide +kernel

/-- The links of routers 0 and 4 with their modules. -/
def meshS : State := (dev.setModules 0 1 8).setModules 0 2 12

theorem wit_links : meshS.fld (linkField 1) 0 ≠ 0 ∧ meshS.linkBusy 0 1 = false ∧ meshS.fld (linkField 1) 4 ≠ 0 ∧
    meshS.fld (linkField 2) 0 ≠ 0 := by decide +kernel

/-- R316: a retrain that ends with no module takes the link out at both ends. -/
theorem test_mesh_down :
    ok (exec (.meshRetrain 0 1 0) meshS) (fun t =>
      t.fld F.CL_NET_LINK_MOD_Y 0 == 0 && t.fld F.CL_NET_LINK_MOD_Y 4 == 0 && t.evgPend 0 136) = true := by decide +kernel

/-! ## The fabric -/

/-- Port 0 in a state with 16 lanes, and what it keeps. -/
def portS (st : Nat) (x : PortSt) : State :=
  (((torus dev).put F.IKF_PST_STATE st 0).put F.IKF_PST_LANES 16 0).put F.IKF_PST_LANEMASK 0xFFFF 0 |>.setPort 0 x

/-- A packet flit of a packet, and an idle flit. -/
def flit (seq : Nat) (b : List Byte) : List Byte := flitBytes 1 0 seq 0xFFFF false 0 0 b
def idleF : List Byte := flitBytes 0 0 0 0xFFFF false 0 0 []

/-- A packet that device 5 sends in the N world. -/
def pktOf (x : PktInfo) : List Byte :=
  ((((torus dev).put F.IKF_SELF_LOG_ID 5).put F.IKF_SELF_PHYS_ID 5).sendPkt x).node.head?.elim [] NodePkt.bytes
def ctl : List Byte := pktOf { type := 0x0E, world := .n, dst := 0, sub := 2 }

theorem wit_flits :
    (portS 2 {}).portOn 0 = true ∧ (portS 0 {}).portOn 0 = false ∧ flitOk idleF = true ∧ byteAt idleF 0 = 0 ∧ flitOk [] = false ∧
    flitOk (flit 0 ctl) = true ∧ byteAt (flit 0 ctl) 0 ≠ 0 ∧ fieldAt (flit 0 ctl) 2 2 = ((portS 2 {}).port 0).rxSeq ∧
    (let f := flit 1 ctl
     flitOk f = true ∧ fieldAt f 2 2 ≠ 0 ∧ ¬ 32768 ≤ (fieldAt f 2 2 + 65536 - 0) % 65536) ∧
    (let f := flit 65535 ctl
     32768 ≤ (fieldAt f 2 2 + 65536 - 0) % 65536) ∧
    ((portS 3 { nakGot := true }).portOn 0 = true ∧ ((portS 3 { nakGot := true }).port 0).nakGot = true) ∧
    (let s := { portS 2 {} with lcnt := 25 }
     s.portOn 0 = true ∧ (s.port 0).lastTx + usTicks 1 ≤ s.now) := by decide +kernel

/-- R334: a packet flit in order is passed on; one after a gap is asked for again. -/
theorem test_flits :
    ok (exec (.flitReceive 0 (flit 0 ctl) false 0 []) (portS 2 {})) (fun t =>
      t.node.map (·.bytes) == [ctl] && (t.port 0).rxSeq == 1) = true ∧
    ok (exec (.flitReceive 0 (flit 1 ctl) false 0 []) (portS 2 {})) (fun t => t.node.isEmpty && (t.port 0).discard) = true := by decide +kernel

theorem wit_ports :
    ((portS 2 { twice := true }).portOn 0 = true ∧ ((portS 2 { twice := true }).port 0).twice = true) ∧ (portS 4 {}).portState 0 = 4 ∧
    ((portS 1 {}).portState 0 = 1 ∧ ((portS 1 {}).proc 2).run = .running) ∧ laneSet 16 0x00FF = some (8, 0x00FF) ∧ laneSet 16 0x1111 = none ∧
    ((portS 2 {}).portOn 0 = true ∧ (∃ i < 16, bit ((portS 2 {}).fld F.IKF_PST_LANEMASK 0) i = true ∧ bit 0x8000 i = true) ∧
      laneSet 16 (65535 - 0x8000) = some (8, 0x00FF) ∧ laneSet 16 (65535 - 0x1111) = none) ∧
    ({ portS 2 {} with lcnt := 250 }.port 0).lastRx + usTicks 10 ≤ { portS 2 {} with lcnt := 250 }.now := by decide +kernel

/-- A packet for device 5 waiting on device 0, and one for this device. -/
def away : NodePkt := ⟨pktOf { type := 0x0E, world := .n, dst := 5, sub := 2 }, none, 0, []⟩
def home : NodePkt := ⟨ctl, some 4, 0, []⟩
def portZ (st : Nat) (det : Bool) : State :=
  let s := { ((torus dev).put F.IKF_PST_STATE st 5).put F.IKF_PST_LANES 16 5 with node := [away] }
  if det then ((s.put F.IKF_PDETOUR_VALID 1 5).put F.IKF_PDETOUR_NHOP 3 5).put F.IKF_PDETOUR_HOP0 2 5 else s

theorem wit_forward :
    (let s := portZ 2 false
     firstWhere (fun k => s.nextHop k == .lost) s.node = none ∧ s.portOn 5 = true ∧ s.sendable 5 0 = some (away, 1)) ∧
    (∀ d ∈ [true, false],
      let s := portZ 0 d
      s.portState 5 = 0 ∧ [0, 3, 1, 2].filterMap (fun v => s.outPkt 5 v) = [(away, 1)] ∧
        decide (pkDet away.bytes = false ∧ s.flag F.IKF_PDETOUR_VALID 5 = true ∧ s.fld F.IKF_PDETOUR_NHOP 5 ≠ 0) = d) := by decide +kernel

/-- A packet in the device's list. -/
def nodeS (b : List Byte) : State := { torus dev with node := [⟨b, some 4, 0, []⟩] }

theorem wit_receive :
    (∀ b ∈ [ctl, pktOf { type := 0x0E, world := .n, dst := 0, sub := 9 }, putField ctl 2 1 9],
      firstWhere (fun k => (nodeS b).nextHop k == .here) (nodeS b).node = some ⟨b, some 4, 0, []⟩) ∧
    pktBad ctl = false ∧ pkDst ctl = (nodeS ctl).selfLog ∧ pkWorld ctl = .n ∧ pkSealed ctl = false ∧
    fieldAt (pkTrailer ctl) 0 4 = crc32c (pkPayload ctl) ∧ pktBad (pktOf { type := 0x0E, world := .n, dst := 0, sub := 9 }) = true ∧
    pktBad (putField ctl 2 1 9) = true ∧ pkDst (pktOf { type := 0x0E, world := .n, dst := 1, sub := 2 }) ≠ (nodeS ctl).selfLog := by decide +kernel

/-- R339: a good packet is accepted; R341 with R334: a packet leaves as a flit with LSEQ 0. -/
theorem test_packets :
    ok (exec .fabricPacketReceive (nodeS ctl)) (fun t => t.fabIn == [ctl] && t.node.isEmpty) = true ∧
    ok (exec (.fabricForward 5) (portZ 2 false)) (fun t => (t.port 5).txSeq == 1 && t.out.length == 1) = true := by decide +kernel

/-! ## Remote requests and responses -/

/-- A packet accepted from device 5. -/
def got (b : List Byte) (s : State) : State := { torus s with fabIn := [b] }

/-- A request of device 5 in the N world: type, SUB, TAG 77, address, shard and expected epoch, payload. -/
def req (type sub addr : Nat) (cmpv aux : Nat := 0) (pay : List Byte := []) : List Byte :=
  pktOf { type := type, world := .n, dst := 0, sub := sub, tag := 77, addr := addr, opnd := 5, cmpv := cmpv, aux := aux, aux2 := 8, payload := pay }

/-- A region whose first bytes are being zeroed. -/
def zeroed (s : State) : State := { s with regPend := [⟨0, 0, 0, [(shared, shared + 4096)]⟩] }

/-- One request at a range that is served, waits, lies elsewhere, or is of the S world. -/
abbrev Reqs (type sub len : Nat) (pay : List Byte) : Prop :=
  let b := req type sub shared 0 0 pay
  let far := req type sub 0x70000000 0 0 pay
  let s := got b dev
  let z := got b (zeroed dev)
  (Oldest s type b [] ∧ s.farCause b shared len = none ∧ s.zeroingIn shared len = false ∧ s.lockedAt shared len = false) ∧
  (Oldest z type b [] ∧ z.farCause b shared len = none ∧ z.zeroingIn shared len = true ∧ z.lockedAt shared len = false) ∧
  (Oldest (got far dev) type far [] ∧ (got far dev).farCause far 0x70000000 len = some 3)

theorem wit_read : Reqs 1 1 64 [] ∧ Reqs 1 8 512 [] ∧ (got (req 1 0 shared) dev).farCause (req 1 0 shared) shared 0 = some 3 ∧
    pkSub (req 1 8 shared) = 8 ∧
    (let s := got (req 1 1 shared) ((((dev.put F.SEC_REG_LO_BASE (shared / 2097152)).put F.SEC_REG_HI_LIMIT (shared / 2097152)).put F.SEC_REG_LO_VALID 1).put F.SEC_REG_LO_WORLD 1)
     s.farCause (req 1 1 shared) shared 64 = some 2) := by decide +kernel

/-- A WRITE of 64 bytes at an address. -/
def wr64 (a : Nat) : List Byte := req 3 0 a 0 0 (leBytes 64 7)

/-- Queue 9: a fabric receive queue of world N with four slots, in a state, with its tail. -/
def frq (st tail : Nat) (s : State) : State := queue 9 3 0 255 4 st 0 tail s

theorem wit_write : Reqs 3 0 64 (leBytes 64 7) ∧ (∀ b ∈ [wr64 shared], pkLen b = 1 ∧ ((got b dev).place shared).same (.slice 0) = true) ∧
    (got (wr64 (shared + 4096)) (sharded 2 8 dev)).lockedAt (shared + 4096) 64 = true := by decide +kernel

theorem wit_write_door : ∀ st ∈ [0, 1],
    let b := wr64 (0x64000000 + 576)
    let s := got b (frq st 0 dev)
    Oldest s 3 b [] ∧ pkAddr b = 0x64000000 + 576 ∧ s.place (0x64000000 + 576) = .door 576 ∧ 576 % 64 = 0 ∧ s.qClass (576 / 64) = 3 ∧
      decide (s.qState 9 = 1 ∧ s.qWorld 9 = pkWorld b ∧ s.qFull 9 = false) = decide (st = 1) := by decide +kernel

theorem wit_atomic_gather :
    Reqs 5 16 8 [] ∧ Reqs 5 0 4 [] ∧ aligned shared 8 = true ∧ bits (pkSub (req 5 23 shared)) 3 0 = 7 ∧ bit (pkSub (req 5 23 shared)) 4 = true ∧
    (∀ p ∈ [(4, 3, 7, 0), (0, 3, 8, 0), (1, 3, 8, 2), (2, 3, 9, 2), (3, 5, 7, 0)],
      let b := req 8 1 0 p.2.1 p.2.2.1
      let s := got b (sharded p.2.2.2 8 dev)
      Oldest s 8 b [] ∧ pkSub b ≤ 8 ∧ pkCmpv b % 2 ^ 32 = p.2.1 ∧
        (match s.judgeGather p.2.1 (pkAux b) (pkWorld b) 0 64 with
          | .serve _ => p.1 == 4 | .hold => p.1 == 1 | .epoch _ => p.1 == 0 || p.1 == 2 | .refuse c => c == p.1) = true) := by decide +kernel

/-- R345: a READ is answered with the bytes; R443: a WRITE to a queue's doorbell address that it cannot take counts as lost. -/
theorem test_served :
    ok (exec .read (got (req 1 1 shared) (dev.store shared 4 0xABCD))) (fun t =>
      t.node.map (fun k => (pkType k.bytes, pkTag k.bytes, (pkPayload k.bytes).take 2)) == [(2, 77, leBytes 2 0xABCD)]) = true ∧
    ok (exec .write (got (wr64 (0x64000000 + 576)) (frq 0 0 dev))) (fun t => t.qLostCnt 9 == 1) = true := by decide +kernel

/-- R258: a WRITE to a locked shard is refused with cause 1 and writes nothing. -/
theorem test_locked_write :
    ok (exec .write (got (wr64 (shared + 4096)) (sharded 2 8 dev))) (fun t =>
      t.node.map (fun k => (pkType k.bytes, pkSub k.bytes)) == [(7, 1)] && t.load (shared + 4096) 4 == 0) = true := by decide +kernel

/-- A transfer of slot 2 of core 1 with `n` requests outstanding, of which this device has sent TAG 77. -/
def xfer (op n : Nat) (ret : Option Nat) : Xfer := ⟨1, 2, 0, op, 5, .n, [], n, 0, 5, 0, 4, ret, 3, 7, none, none⟩
def asked : ReqSt := { core := 1, iid := 0, part := ⟨128, shared + 4096, 64, []⟩, since := 0 }
def waiting (op n : Nat) (ret : Option Nat) (b : List Byte) (s : State) : State :=
  { got b s with reqs := Tab.empty.set 77 none (some asked), xfers := [xfer op n ret] }

/-- An answer of device 5. -/
def ans (type sub : Nat) (pay : List Byte) : List Byte :=
  pktOf { type := type, world := .n, dst := 0, sub := sub, tag := 77, opnd := 3, payload := pay }

/-- The response is the oldest one, of a transfer of this device. -/
abbrev Resp (type sub op n : Nat) (ret : Option Nat) (pay : List Byte) (s : State) : Prop :=
  let b := ans type sub pay
  let t := waiting op n ret b s
  Oldest t type b [] ∧ t.reqs.get (pkTag b) none = some asked ∧ t.xferOf? asked = some (xfer op n ret) ∧ NoneWaits t

theorem wit_responses :
    (∀ n ∈ [1, 2], ∀ o ∈ [0x25, 0x22], Resp 2 0 o n none (leBytes 64 7) (core1 2 0 {} [])) ∧
    (waiting 0x25 1 none [] dev).lockedAt (shared + 4096) 64 = false ∧ (sharded 2 8 dev).lockedAt (shared + 4096) 64 = true ∧
    ((sharded 2 8 (core1 2 0 {} [])).stn? 1 2).isSome = true ∧
    (∀ n ∈ [1, 2], ∀ o ∈ [0x24, 0x23], Resp 4 0 o n none [] dev) ∧
    Resp 6 0 0x26 1 none [] dev ∧ Resp 6 0 0x26 1 (some cs) [] dev ∧ dev.lockedAt cs 4 = false := by decide +kernel

theorem wit_refusals :
    (∀ c ∈ [3, 4], ∀ o ∈ [0x22, 0x23, 0x24, 0x25, 0x26], Resp 7 c o 1 none [] (core1 2 0 {} []) ∧ pkLen (ans 7 c []) = 0) ∧
    Resp 9 0 0x22 1 none [] dev ∧ Resp 10 0 0x22 1 none [] (core1 2 0 {} []) ∧ (core1 2 0 {} []).flag F.CO_MVLOG_VALID 1 = false ∧
    (∀ c ∈ [2, 4, 6, 9, 10], Oldest (got (ans c 0 []) dev) c (ans c 0 []) [] ∧ (got (ans c 0 []) dev).reqs.get (pkTag (ans c 0 [])) none = none) := by
  decide +kernel

theorem wit_request_timeout :
    let s := { (waiting 0x25 1 none [] (core1 2 0 {} [])).put F.IKF_RTO_X_TICKS 100 with fabIn := [], lcnt := 100 }
    (firstWhere (fun (e : Nat × Option ReqSt) =>
      match e.2 with | some r => !r.hold && decide (r.since + s.rtoTicks ≤ s.now) | none => false) s.reqs.ents = some (77, some asked)) ∧
      s.xferOf? asked = some (xfer 0x25 1 none) ∧ NoneWaits s := by decide +kernel

/-- R345: a READ_RSP lands at the part's local address and completes the instruction; R254: a REFUSE stops the context. -/
theorem test_responses :
    ok (exec .readRsp (waiting 0x25 1 none (ans 2 0 (leBytes 64 7)) (core1 2 0 {} []))) (fun t =>
      t.load (shared + 4096) 4 == 7 && t.xfers.isEmpty && t.reqs.ents.isEmpty) = true ∧
    ok (exec .refuse (waiting 0x25 1 none (ans 7 4 []) (core1 2 0 {} []))) (fun t =>
      (ctx t 2).halted && t.fld F.IKF_UNREACH_COUNT == 1 && t.mem.ents.isEmpty) = true := by decide +kernel

/-! ## Fabric streams and messages -/

/-- A packet of a stream or a message: its header names stream 5. -/
def msg (type sub opnd : Nat) (pay : List Byte) : List Byte :=
  pktOf { type := type, world := .n, dst := 0, sub := sub, aux := 5, opnd := opnd, payload := pay }

/-- A stream from device 5 into port 1 of slot 2 on core 1. -/
def srcStrm (peg : Bool) (part : List Byte) : StreamSt := { strm8 5 3 none (some (1, 2, 1)) [] peg with peer := 5, part := part }

theorem wit_fabric_tiles :
    (let b := msg 0xB 0 0 (tile8 [1, 2, 3, 4])
     let s := got b (inS (srcStrm false []))
     s.UnitsInRange ∧ Oldest s 0xB b [] ∧ s.source? b = some (srcStrm false []) ∧ (srcStrm false []).closed = false ∧
       (srcStrm false []).peg = false ∧ (srcStrm false []).hasQueue = true ∧ pkWorld b = s.sectWorld ∧ tCrcOk (pkPayload b) = true ∧
       (pkPayload b).length = roundUp (imageLen (pkPayload b) false) 64) ∧
    (let b := msg 0xB 0 0 ((tile8 [1, 2, 3, 4]).take 64)
     let s := got b (inS (srcStrm false []))
     Oldest s 0xB b [] ∧ (pkPayload b).length < roundUp (imageLen (pkPayload b) false) 64 ∧ tCrcOk (leBytes 64 0) = false) ∧
    (let b := msg 0xB 0 0 (tile8 [1, 2, 3, 4])
     let s := got b (inS (strm8 5 1 none (some (1, 2, 1))))
     s.UnitsInRange ∧ Oldest s 0xB b [] ∧ s.source? b = none) := by decide +kernel

theorem wit_credits : ∀ n ∈ [0, 2, 3],
    let b := msg 0xC 0 n []
    let x := { strm8 5 4 (some (1, 2, 0)) none with credits := 0 }
    let s := got b (inS x)
    s.UnitsInRange ∧ s.takePkt s.creditReady = some (b, { s with fabIn := [] }) ∧ s.strm? (pkAux b) = some x ∧ x.kind = 4 ∧
      pkWorld b = s.sectWorld ∧ pkOpnd b = n ∧ x.depth = 2 ∧ x.granted = false := by decide +kernel

theorem wit_messages :
    (let b := msg 0xE 4 0 peg1
     let s := got b (inS (srcStrm true []))
     s.UnitsInRange ∧ s.takePkt (isControl 4) = some (b, { s with fabIn := [] }) ∧ s.source? b = some (srcStrm true []) ∧
       (srcStrm true []).closed = false ∧ pkWorld b = s.sectWorld) ∧
    (let b := msg 0xE 5 0 []
     let s := got b (inS (srcStrm false []))
     s.takePkt (isControl 5) = some (b, { s with fabIn := [] }) ∧ s.strm? (pkAux b) = some (srcStrm false []) ∧ (srcStrm false []).peer = pkSrc b ∧
       s.sect = some sect1 ∧ sect1.phase = .running) ∧
    (∀ c ∈ [6, 7], let b := msg 0xE c 0 []
      (got b dev).takePkt (isControl c) = some (b, { got b dev with fabIn := [] }) ∧ ((got b dev).proc 2).run = .running) := by decide +kernel

/-- R347: two credits are granted; R532: a strike of the peer section cuts this one. -/
theorem test_fabric_streams :
    ok (exec .credit (got (msg 0xC 0 2 []) (inS { strm8 5 4 (some (1, 2, 0)) none with credits := 0 }))) (fun t =>
      (t.strm? 5).map (fun x => (x.credits, x.granted)) == some (2, true)) = true ∧
    ok (exec .sectStrike (got (msg 0xE 5 0 []) (inS (srcStrm false [])))) (fun t =>
      (t.sect.map (·.cut)) == some true && t.evgPend 4 280) = true := by decide +kernel

/-! ## Reductions -/

/-- Channel 3 on the Z axis in BS16, two buckets of 8 elements, armed for step 9; this device is rank 0 of 8. -/
def chan0 : ChanSt :=
  { rcd := shared, axis := 2, p := 8, bs16 := true, late := false, world := .n, deadline := 1, nbkt := 2, btab := shared + 64, arm := some 9 }
def red (c : ChanSt) : State :=
  { (((torus dev).store (shared + 64) 4 8).store (shared + 96) 4 8).setBytes (shared + 72) (leBytes 8 (shared + 4096)) with
    chans := Tab.empty.set 3 none (some c), lcnt := 1000000 }

/-- A piece of bucket 1 from device 5, without data when it is not of segment 0. -/
def piece (step seg nelem : Nat) : List Byte :=
  pktOf { type := 0xD, world := .n, dst := 0, payload := leBytes 2 3 ++ [0, 1] ++ leBytes 4 step ++ leBytes 4 1 ++ leBytes 1 seg
    ++ leBytes 3 0 ++ leBytes 4 1 ++ leBytes 2 nelem ++ leBytes 10 0 ++ leBytes 32 0 }
def redIn (c : ChanSt) (b : List Byte) : State := { red c with fabIn := [b] }
def issued (n : Nat) (c : ChanSt) : ChanSt := { c with state := c.state.set 1 0 n }

theorem wit_pieces :
    (∀ p ∈ [(8, 1, 0), (9, 1, 0), (10, 1, 0), (9, 1, 4), (9, 0, 8)],
      let b := piece p.1 p.2.1 p.2.2
      let s := redIn (issued 2 chan0) b
      Oldest s 0xD b [] ∧ hQueue (pkPayload b) = 3 ∧ s.chan? 3 = some (issued 2 chan0) ∧ hStep (pkPayload b) = p.1 ∧
        s.pieceOdd chan0 (pkPayload b) = decide (p.2.2 = 4) ∧ s.holdFull chan0 (pkPayload b) = false) := by decide +kernel

theorem wit_pieces_held :
    (let b := piece 10 1 0
     let s := redIn { chan0 with held := [⟨List.replicate 64 0, 0, 0⟩] } b
     s.holdFull { chan0 with held := [⟨List.replicate 64 0, 0, 0⟩] } (pkPayload b) = false ∧ hStep (pkPayload b) = 10) ∧
    ((redIn { chan0 with arm := none } (piece 9 1 0)).chan? 3).map (·.arm) = some none ∧
    chan0.st 1 = 0 ∧ (issued 2 chan0).st 1 = 2 ∧ chan0.skip = [] ∧ hSeg (pkPayload (piece 9 1 0)) ≠ (red chan0).rank chan0 := by decide +kernel

/-- A channel that holds one piece of some bytes. -/
def chanF (bs : List Byte) : ChanSt := { chan0 with held := [⟨bs, 0, 0⟩] }

theorem wit_hold_full : ∃ bs, (redIn (chanF bs) (piece 10 1 0)).holdFull (chanF bs) (pkPayload (piece 10 1 0)) = true := by
  have h : (pkPayload (piece 10 1 0)).length = 64 ∧ hStep (pkPayload (piece 10 1 0)) = 10 := by decide +kernel
  have u : ∀ bs, (redIn (chanF bs) (piece 10 1 0)).holdUsed (chanF bs).die = bs.length := by
    intro bs
    have e : (Tab.empty.set 3 none (some (chanF bs))).ents = [(3, some (chanF bs))] := by simp [Tab.set, Tab.empty, Tab.ins]
    have r : (redIn (chanF bs) (piece 10 1 0)).chans = Tab.empty.set 3 none (some (chanF bs)) := rfl
    rw [State.holdUsed, r, e]
    show 0 + (0 + bs.length) + 0 = bs.length
    omega
  refine ⟨List.replicate (2 * miB) 0, ?_⟩
  rw [State.holdFull, u, List.length_replicate, h.1, h.2]
  decide

theorem wit_buckets :
    (∀ n ∈ [0, 2], (let c := { issued n chan0 with state := (issued n chan0).state.set 0 0 1, ring := [⟨1, shared + 4096, 1, 2, 0, 0⟩] }
      (red c).chan? 3 = some c ∧ c.arm = some 9 ∧ c.firstToIssue = some ⟨1, shared + 4096, 1, 2, 0, 0⟩)) ∧
    (let c := { chan0 with timers := Tab.empty.set 1 0 5 }
     firstWhere (fun (e : Nat × Nat) => c.st e.1 == 0 && decide (e.2 ≤ (red c).now)) c.timers.ents = some (1, 5)) ∧
    (∀ r ∈ [[], [5]],
      let c := { chan0 with back := [⟨List.replicate 64 0, 5, 0⟩, ⟨[], 6, 0⟩], retried := r }
      c.back.filter (fun p => p.rank == 5) = [⟨List.replicate 64 0, 5, 0⟩] ∧ 0 + (red c).chanTicks c ≤ (red c).now) ∧
    (let c := { chan0 with ring := [⟨1, shared + 4096, 1, 2, 0, 0⟩] }
     c.arm ≠ none ∧ c.waiting = true ∧
      c.moved + msTicks (Nat.min (Nat.max ((red c).fld F.IKF_RED_X3_STALL_MS) 1) 1000) ≤ { red c with lcnt := 30000000000 }.now) := by
  decide +kernel

/-- R361: a piece of an earlier step is dropped and counted, one of a later step is held; R355: one that disagrees stops the
model. -/
theorem test_pieces :
    ok (exec .redSeg (redIn chan0 (piece 8 1 0))) (fun t => t.fld F.IKF_DROP_COUNT == 1 && t.fabIn.isEmpty) = true ∧
    ok (exec .redSeg (redIn chan0 (piece 10 1 0))) (fun t => (t.chan? 3).map (·.held.length) == some 1) = true ∧
    (match exec .redSeg (redIn chan0 (piece 9 1 4)) with | .fault .ringDisagrees => true | .next _ => false | .refused _ => false) = true := by decide +kernel

/-! ## The end of a step -/

/-- The root of a hall of one device, or of eight, with a job whose schedule is empty and whose STEP is open. -/
def stepS (hall : Nat) (bar : BarrierSt) : State :=
  { ((((dev.put F.IKF_TORUS_DX 1).put F.IKF_TORUS_DY 1).put F.IKF_TORUS_DZ hall).put F.CMD_STEP_STEP 9).put F.CMD_COMMITTED_STEP 8 with
    job := some job1, bar := bar, lcnt := 400000000000 }

/-- A step message of device 5. -/
def stepMsg (c dir count : Nat) : List Byte :=
  pktOf { type := 0xE, world := .n, dst := 0, sub := c, payload := StepMsg.bytes { step := 9, attempt := 0, dir := dir, count := count } }
def reports (n : Nat) : List ChildReport := (List.range n).map (fun d => ⟨d + 1, 1, 0⟩)
def event (cls : FaultClass) : FaultEv := ⟨0x33, cls, 1, 9, [], 9, 0⟩

theorem wit_ready_report :
    ((stepS 1 {}).proc 4).run = .running ∧ (stepS 1 {}).flag F.CMD_FLT_ST_HALTED = false ∧ (stepS 1 {}).stepDone job1 = true ∧
    (let b := stepMsg 1 0 1
     let s := { stepS 8 {} with fabIn := [b] }
     s.takePkt (fun b => isControl ctBarrier b && smDir b == 0) = some (b, { s with fabIn := [] }) ∧ s.currentMsg b = true ∧
       pkSrc b ∈ s.children) ∧
    (∀ n ∈ [1, 8],
      let s := stepS n { readyAt := some 0, reports := reports (n - 1) }
      s.takePkt (fun b => isControl ctBarrier b && smDir b == 0) = none ∧ s.allReported = true ∧ s.isRoot = true ∧ s.subCount = s.hallSize) ∧
    (let s := (stepS 8 { readyAt := some 0 }).put F.IKF_SELF_LOG_ID 5
     s.allReported = true ∧ s.isRoot = false) := by decide +kernel

theorem wit_step_ends :
    (let s := stepS 1 { readyAt := some 0, decided := true }
     s.isRoot = true ∧ s.bar.decided = true ∧ s.bar.aborted = none) ∧
    (let s := stepS 1 { aborted := some (0x33, 0), decided := true }
     s.isRoot = true ∧ s.bar.decided = true ∧ s.bar.aborted ≠ none) ∧
    (let s := stepS 8 { readyAt := some 0 }
     s.bar.decided = false ∧ s.past s.bar.readyAt s.barTicks = true) ∧
    (let s := stepS 8 { aborted := some (0x3D, 0), renewed := true }
     s.haltDue = false ∧ (s.put F.CMD_JOB_ATTEMPT 255).haltDue = true ∧ s.sect = none) ∧
    (∀ d ∈ [0, 5],
      let s := { (stepS 8 {}).put F.IKF_SELF_LOG_ID d with faults := [event .step] }
      s.haltDue = false ∧ (s.isRoot && s.bar.decided) = false ∧ s.abortEvent = some (event .step) ∧ s.isRoot = decide (d = 0)) ∧
    (∀ b ∈ [{ sentAt := some 0 }, ({ aborted := some (0x3D, 0), replaySent := some 0 } : BarrierSt)],
      let s := stepS 8 b
      s.haltDue = false ∧ s.past s.bar.reportedAt (2 * s.barTicks) = true) ∧
    (let s := stepS 8 { replayAt := some 0, reports := reports 3 }
     s.past s.bar.replayAt s.barTicks = true ∧ s.missingChild = some 4) := by decide +kernel

/-- What is kept of the section struck early. -/
def saved9 : Saved := ⟨9, 9, 0, [(1, station [0] {})], [], []⟩

theorem wit_replay :
    (∀ x ∈ [none, some sect1], ∀ n ∈ [0, 255], ∀ v ∈ [[], [saved9]],
      let s := { stepS 1 {} with faults := [event .sect], sect := x, replays := [(9, n)], saved := v }
      firstWhere (fun (f : FaultEv) => f.cls == FaultClass.sect) s.faults = some (event .sect) ∧ (∀ g ∈ s.faults, g.fence = []) ∧
        s.bar.aborted = none ∧ (∀ g ∈ s.faults, g.cls ≠ .step ∧ g.cls ≠ .dev) ∧ decide (s.fld F.CMD_FLT_X_SEC_LIM ≤ s.replaysOf 9) = (n == 255) ∧
        s.mapChanged = false ∧ (event .sect).sect ≠ noSect ∧ sect1.id = (event .sect).sect ∧ sect1.phase = .running) := by decide +kernel

/-- R392: a device with no work left becomes ready; R394: the root of a hall of one commits; R532: the section is cut. -/
theorem test_step :
    ok (exec .stepReady (stepS 1 {})) (fun t => t.fld F.CMD_JOB_PHASE == 5 && t.bar.readyAt.isSome) = true ∧
    ok (exec .stepCommit (stepS 1 { readyAt := some 0, decided := true })) (fun t =>
      t.fld F.CMD_COMMITTED_STEP == 9 && t.step_ == 10 && t.fld F.CMD_STEPCNT_COMMITS == 1) = true ∧
    ok (exec .sectionReplay { stepS 1 {} with faults := [event .sect], sect := some sect1 }) (fun t =>
      (t.sect.map (fun x => (x.phase, x.cut))) == some (.stopping, true)) = true := by decide +kernel

/-! ## Storage -/

/-- Flash with one channel of one target, 4 blocks of one page each. -/
def flash (bs : List (Nat × FlashBlock)) (s : State) : State :=
  { s with sto := { s.sto with geom := (1, 1, 4, 1) :: List.replicate 15 (0, 0, 0, 0), pslc := 4,
                               blocks := bs.foldl (fun t b => t.set (512 * b.1) {} b.2) Tab.empty }, lcnt := 0x4000000000000000 }

/-- A message of device 1's STO. -/
def stoPkt (kind step : Nat) : List Byte :=
  ((((torus dev).put F.IKF_SELF_LOG_ID 1).put F.IKF_SELF_PHYS_ID 1).sendPkt
    { type := 0x0E, world := .n, dst := 0, sub := 6, payload := stoMsg kind step }).node.head?.elim [] NodePkt.bytes
def ckpt1 : CkptSt := ⟨8, false, false, false, 0, 0, leBytes 4 1, leBytes 4 2⟩
def sto (kind step : Nat) : State := { got (stoPkt kind step) (dev.put F.CMD_COMMITTED_STEP 8) with ckpt := some ckpt1 }

theorem wit_checkpoint :
    (∀ n ∈ [8, 9], (sto 1 n).takePkt (isStoMsg msgPlan) = some (stoPkt 1 n, { sto 1 n with fabIn := [] }) ∧ ((sto 1 n).proc 3).run = .running ∧
      decide ((sto 1 n).fld F.CMD_COMMITTED_STEP ≠ noStep ∧ fieldAt (pkPayload (stoPkt 1 n)) 4 4 ≤ (sto 1 n).fld F.CMD_COMMITTED_STEP) = decide (n = 8)) ∧
    (let s := sto 2 8
     s.takePkt (isStoMsg msgBuddyDone) = some (stoPkt 2 8, { s with fabIn := [] }) ∧
       pkSrc (stoPkt 2 8) = withCoord 2 s.selfLog ((coord 2 s.selfLog + 1) % s.extentOf 2) ∧ fieldAt (pkPayload (stoPkt 2 8)) 4 4 = ckpt1.step ∧
       ckpt1.ownRead = false) ∧
    (∀ h ∈ [1, 8], let s := { stepS h {} with ckpt := some ckpt1 }
      s.UnitsInRange ∧ s.ckpt = some ckpt1 ∧ s.job = some job1 ∧ ckpt1.done = false ∧ decide (s.extentOf 2 = 1) = decide (h = 1) ∧
        ∀ g ∈ s.sto.gens, g.seq ≤ s.sto.seq) := by decide +kernel

theorem wit_flash :
    (let s := flash [(1, { gen := some 1 })] dev
     s.blockFitted 512 = true ∧ (s.block 512).bad = false ∧ s.blockFitted 2048 = false) ∧
    (∀ r ∈ [none, some 0],
      let s := flash [(1, { gen := some 1, readAt := r })] (dev.put F.STO_SCRUB_SCRUB_EN 1)
      s.flag F.STO_SCRUB_SCRUB_EN = true ∧ (s.block 512).gen = some 1 ∧ s.scrubDue 512 = true ∧ s.flag F.STO_ST_WRITING = false ∧
        s.flag F.STO_ST_RESTORING = false ∧ (s.block 512).soft < 2) ∧
    (let s := flash [(1, { gen := some 1, soft := 1 })] (dev.put F.STO_SCRUB_SCRUB_EN 1)
     s.flag F.STO_SCRUB_SCRUB_EN = true ∧ (s.block 512).gen = some 1 ∧ s.scrubDue 512 = true ∧ s.flag F.STO_ST_WRITING = false ∧
       s.flag F.STO_ST_RESTORING = false ∧ 1 ≤ (s.block 512).soft) ∧
    (let s := flash [(0, { erases := 1, gen := some 1 }), (1, { erases := 502 }), (2, { erases := 3 })] dev
     s.wearOrder s.pslcBlocks = 1536 :: [0, 1024, 512] ∧ (s.block 1536).erases + 500 < (s.block 512).erases ∧
       firstWhere (fun b => (s.block b).gen.isSome) (s.wearOrder s.pslcBlocks) = some 0 ∧
       ((s.wearOrder s.pslcBlocks).filter (fun b => (s.block b).gen.isNone)).getLast? = some 512) := by decide +kernel

/-- A snapshot of step 8 of the sharded state, with shards still to copy. -/
def snap1 (fabric : Bool) (todo : List Nat) (sent : Nat) : SnapSt :=
  ⟨2, 77, none, some 8, true, fabric, hbmBase, 0x5000, dev5 128, 0, 1, .n, todo, sent⟩
def snapS (x : SnapSt) (arbs : List ArbReq) (copied : Bool) : State :=
  { (sharded 0 8 (torus dev)).put F.CMD_SNAP_COPIED copied.toNat with snap := some x, arbs := arbs }

theorem wit_snapshot :
    (∀ is ∈ [[], [0]], (snapS (snap1 false (0 :: is) 0) [] false).UnitsInRange) ∧
    (let s := snapS (snap1 false [] 0) [⟨1, exportQueue, 0, 0⟩] true
     s.flag F.CMD_SNAP_COPIED = true ∧ s.arbPick 1 (fun _ => true) = some ⟨1, exportQueue, 0, 0⟩ ∧ 0 < (s.snapLayout true).2) ∧
    (∀ n ∈ [0, 640], (snapS (snap1 true [] n) [] true).flag F.CMD_SNAP_COPIED = true) := by decide +kernel

/-- R408: a block that fails to program is bad and its data lies in the other block; R409: the worn block takes the data;
a second soft decode retires a block, an uncorrectable one too. -/
theorem test_flash :
    (∀ n ∈ [17, 18], ok (exec (.retentionScrub 512 0 n) (flash [(1, { gen := some 1, soft := 1 })] (dev.put F.STO_SCRUB_SCRUB_EN 1))) (fun t =>
      (t.block 512).bad && (t.block 512).gen == none && ((t.block 0).gen == if n = 17 then some 1 else none)) = true) ∧
    ok (exec (.nandProgramFail 512 false) (flash [(1, { gen := some 1 })] dev)) (fun t =>
      (t.block 512).bad && t.fld F.NAND_PEFAIL_PROG 0 == 1 && (t.block 0).gen == some 1) = true ∧
    ok (exec (.wearLevelMove false) (flash [(0, { erases := 1, gen := some 1 }), (1, { erases := 502 }), (2, { erases := 3 })] dev)) (fun t =>
      (t.block 512).gen == some 1 && (t.block 512).erases == 503 && (t.block 0).gen == none) = true := by decide +kernel

/-! ## Host commands -/

/-- Function 1 with queue numbers 0 to 15, its admin submission queue 0 and completion queue 1; CMD ready. -/
def hostS (s : State) : State :=
  ((((((queue 1 1 0 1 16 1 0 0 (queue 0 0 0 1 16 1 0 0 s)).setQf 0 4 2 1).setQf 0 8 8 (shared + 8388608)).setQf 1 8 8 (shared + 8392704)).put
    F.HIF_FN_QBASE_QCNT 16 1).put F.HIF_FN_MSIX_SIZE 8 1).put F.HIF_FN_ST_ADM_ACT 1 1 |>.put F.BC_BOOT_ST_READY 1

/-- A submission entry: code, JOB, PTR and the body from byte 16. -/
def entry (opc job ptr : Nat) (body : List Byte) : List Byte :=
  padTo 64 (leBytes 1 opc ++ [0] ++ leBytes 2 5 ++ leBytes 4 job ++ leBytes 8 ptr ++ body)

/-- That entry fetched from queue 0. -/
def cmd (e : List Byte) (s : State) : State := { hostS s with fetched := [⟨0, 5, 1, e⟩] }
def fet (e : List Byte) : Fetched := ⟨0, 5, 1, e⟩

theorem wit_fetch : ∀ p ∈ [(0x02, 1), (0x02, 2), (0x77, 1)],
    let s := { ((hostS dev).setQf 0 40 4 p.2).setBytes (shared + 8388608) (entry p.1 0 0 []) with arbs := [⟨0, 0, 0, 0⟩] }
    (s.proc 4).run = .running ∧ s.flag F.BC_BOOT_ST_READY = true ∧ s.arbPick 0 (fun q => s.canFetch q) = some ⟨0, 0, 0, 0⟩ ∧
      s.qTail 0 = p.2 ∧ knownOpc (byteAt (s.entryAt 0 []) 0) = decide (p.1 = 2) := by decide +kernel

/-- CREATE_Q of queue 9: its class, flags, owner and ring. -/
def mkq (cls flags owner : Nat) (ptr : Nat := 0) : List Byte :=
  entry 1 0 ptr (leBytes 2 9 ++ leBytes 2 0 ++ leBytes 1 cls ++ leBytes 1 flags ++ leBytes 1 owner ++ leBytes 1 0 ++ leBytes 4 0
    ++ leBytes 8 (shared + 8396800) ++ leBytes 4 16)

/-- A channel record: the Z axis with P, at 0x1000 of core 1's store. -/
def rec (p : Nat) : List Byte :=
  leBytes 1 2 ++ leBytes 1 p ++ leBytes 1 1 ++ leBytes 5 0 ++ leBytes 4 0 ++ leBytes 4 1 ++ leBytes 8 shared ++ leBytes 40 0
def chnS (p : Nat) : State := cmd (mkq 4 0 1 (cs + 4096)) ((torus dev).setBytes (cs + 4096) (rec p))

theorem wit_create :
    (∀ p ∈ [(3, 0, 2), (3, 0, 1), (3, 1, 1)],
      let e := mkq p.1 p.2.1 p.2.2
      let s := cmd e dev
      Runs s 0 5 1 true (fet e) ∧ firstOffset e [(16, 2), (20, 20)] (s.createBad (fet e) none) = (if p.2.2 = 2 then some 22 else none) ∧
        s.rangeWorld (fieldAt e 28 8) (qEntrySize (byteAt e 20) * fieldAt e 36 4) .n = true ∧ s.flag F.HIF_FN_ST_TDI_RUN 1 = false) ∧
    (∀ p ∈ [7, 8],
      let e := mkq 4 0 1 (cs + 4096)
      Runs (chnS p) 0 5 1 true (fet e) ∧ firstOffset e [(16, 2), (20, 20)] ((chnS p).createBad (fet e) none) = none ∧
        ((chnS p).channelBad ((chnS p).ptrData (fet e) 64 none) .n) = (if p = 7 then some 1 else none)) := by decide +kernel

/-- R435: the queue is active with its entry; R356: a channel whose P is not the extent ends with CHANNEL (7). -/
theorem test_create :
    ok (exec (.createQ 0 5 none) (cmd (mkq 3 0 1) dev)) (fun t =>
      t.qState 9 == 1 && t.qClass 9 == 3 && t.qSize 9 == 16 && t.load (shared + 8392704 + 8) 1 == 0 && t.fetched.isEmpty) = true ∧
    ok (exec (.createQ 0 5 none) (chnS 7)) (fun t => t.qState 9 == 0 && t.load (shared + 8392704 + 8) 1 == 7) = true := by decide +kernel

/-- DELETE_Q of a queue. -/
def delq (q : Nat) : List Byte := entry 2 0 0 (leBytes 2 q)

theorem wit_delete : ∀ q ∈ [0, 5, 9],
    let s := cmd (delq q) (queue 9 3 0 1 16 1 0 0 dev)
    Runs s 0 5 2 true (fet (delq q)) ∧ firstOffset (delq q) [(16, 2)] [(!s.inRange (s.qOwner 0) q, 16)] = none ∧
      decide (s.qState q = 0) = decide (q = 5) ∧ (q = 5 ∨ s.deleteBusy q = decide (q = 0)) := by decide +kernel

theorem wit_age : (let s := { dev with arbs := [⟨0, 0, 3, 0⟩, ⟨0, 1, 2, 0⟩], lcnt := 1000000000 }
    firstWhere (fun (r : ArbReq) => decide (r.level < 3) && decide (r.since + s.ageTicks ≤ s.now)) s.arbs = some ⟨0, 1, 2, 0⟩) := by
  decide +kernel

/-- R444: the request that has waited moves up one level. -/
theorem test_age : ok (exec .agePromotion { dev with arbs := [⟨0, 0, 3, 0⟩, ⟨0, 1, 2, 0⟩], lcnt := 1000000000 }) (fun t =>
    t.arbs == [⟨0, 0, 3, 0⟩, ⟨0, 1, 3, 1000000000⟩] && t.fld F.HIF_PROMO_COUNT == 1) = true := by decide +kernel

/-! ## Jobs -/

/-- A job map of one layer on the torus 1 × 1 × 8, for `lc` logical cores. -/
def jmap (lc : Nat) (sealed : Bool) : List Byte :=
  leBytes 2 1 ++ [1, 1, 8] ++ leBytes 1 lc ++ leBytes 2 1 ++ leBytes 2 8 ++ leBytes 2 8 ++ [0] ++ leBytes 1 sealed.toNat ++ leBytes 2 1
    ++ leBytes 4 8 ++ leBytes 4 9 ++ leBytes 8 1 ++ leBytes 32 0

/-- What is in HBM: the map, a schedule of one entry (`run` runs) and a manifest (`minSteps`). -/
def jobMem (lc run minSteps : Nat) (sealed : Bool) (s : State) : State :=
  (((torus s).setBytes hbmBase (jmap lc sealed)).setBytes (hbmBase + 4096) (leBytes 2 1 ++ leBytes 2 1 ++ leBytes 60 0
    ++ leBytes 8 (hbmBase + 8192) ++ [0, 0xFF, 1, 0] ++ leBytes 4 run ++ leBytes 3 0 ++ [0xFF] ++ leBytes 44 0)).setBytes (hbmBase + 12288)
      (leBytes 2 1 ++ leBytes 2 minSteps ++ leBytes 2 4 ++ [1, 0] ++ leBytes 4 1)

/-- A data block with `ntq` tally queues and a quota in MiB. -/
def block (ntq quota : Nat) : List Byte :=
  padTo 256 (leBytes 8 hbmBase ++ leBytes 8 (hbmBase + 4096) ++ leBytes 8 (hbmBase + 12288) ++ leBytes 8 shared ++ leBytes 4 0 ++ leBytes 2 12
    ++ leBytes 1 ntq ++ [0] ++ leBytes 4 quota)
def start : List Byte := entry 0x10 77 0x1000 []

/-- The two regions that make the whole of slice 0 and the first 16 MiB of HBM an S world. -/
def sworld (s : State) : State :=
  forN 2 (fun i s => ((((s.put F.SEC_REG_LO_VALID 1 i).put F.SEC_REG_LO_WORLD 1 i).put F.SEC_REG_LO_BASE ([512, 262144].getD i 0) i).put
    F.SEC_REG_HI_LIMIT ([559, 262151].getD i 0) i)) s

/-- JOB_START of such a job on event queue 12, whose world and whose function's TDI are given. -/
def jobStart (lc run minSteps : Nat) (sealed tdi : Bool) : State :=
  let s := queue 12 6 sealed.toNat 1 16 1 0 0 (jobMem lc run minSteps sealed dev)
  let s := if sealed then sworld s else s
  cmd start (s.put F.HIF_FN_ST_TDI_RUN tdi.toNat 1)

/-- The first failing check of JOB_START: the block, the map's code, the schedule, the manifest. -/
def firstBad (s : State) (d : List Byte) : Nat :=
  let m := s.bytes (fieldAt d 0 8) 64
  let secure := bit (byteAt m 13) 0
  let j := jobOf (s.qOwner 0) 77 secure d
  if s.blockBad d secure then 1
  else if s.mapCores.mapCode m (s.jobWorlds d m) ≠ 0 then 2
  else if s.schedBad j (ceilDiv (fieldAt m 6 2) (byteAt m 2)) then 3
  else if s.manifestBad j then 4 else 0

theorem wit_job_start :
    (Runs (jobStart 16 1 1 false false) 0 5 0x10 true (fet start) ∧
      firstOffset start [] [((jobStart 16 1 1 false false).job.isNone && (jobStart 16 1 1 false false).ptrBad (fet start) 256 (some (block 0 8)), 8)]
        = none) ∧
    8 ≤ (jobStart 16 1 1 false false).poolMiB ∧
    (jobStart 16 1 1 false false).poolMiB < 4096 ∧ fieldAt (block 0 4096) 40 4 = 4096 := by decide +kernel

theorem wit_job_start_checks :
    firstBad (jobStart 16 1 1 false false) (block 0 8) = 0 ∧ firstBad (jobStart 16 1 1 false false) (block 17 8) = 1 ∧
    firstBad (jobStart 17 1 1 false false) (block 0 8) = 2 ∧ firstBad (jobStart 16 0 1 false false) (block 0 8) = 3 ∧
    firstBad (jobStart 16 1 0 false false) (block 0 8) = 4 := by decide +kernel

theorem wit_job_start_sealed : ∀ tdi ∈ [true, false],
    firstBad (jobStart 16 1 1 true tdi) (block 0 8) = 0 ∧ (jobStart 16 1 1 true tdi).flag F.HIF_FN_ST_TDI_RUN 1 = tdi ∧
      bit (byteAt ((jobStart 16 1 1 true tdi).bytes hbmBase 64) 13) 0 = true := by decide +kernel

/-- A bound job without an open STEP, and a command. -/
def job2 : Job := { job1 with map := hbmBase, sched := hbmBase + 4096, manifest := hbmBase + 12288, stepCmd := none }
def bound (e : List Byte) : State := { cmd e (jobMem 16 1 1 false (dev.put F.STO_ST_READY 1)) with job := some job2 }

theorem wit_step_quota_end :
    (Runs (cmd (entry 0x11 77 0x1000 []) dev) 0 5 0x11 false (fet (entry 0x11 77 0x1000 [])) ∧ (cmd start dev).job = none) ∧
    (let e := entry 0x11 77 0x1000 (leBytes 2 1)
     let s := bound e
     Runs s 0 5 0x11 false (fet e) ∧ s.job = some job2 ∧ job2.stepCmd = none ∧
       firstOffset e [(16, 2)] [(s.jobBad (fet e), 4), (s.ptrBad (fet e) (s.schedLen job2) (some [0]), 8), (fieldAt e 16 2 != s.schedLen job2, 16)]
         = none) ∧
    (∀ n ∈ [8, 4096], Runs (bound (entry 0x16 77 0 (leBytes 4 n))) 0 5 0x16 true (fet (entry 0x16 77 0 (leBytes 4 n))) ∧
      reservedBad (entry 0x16 77 0 (leBytes 4 n)) [(16, 4)] = [] ∧ decide ((bound []).poolMiB < n) = decide (n = 4096)) ∧
    (∀ s ∈ [cmd (entry 0x13 77 0 []) dev, bound (entry 0x13 77 0 [])], Runs s 0 5 0x13 true (fet (entry 0x13 77 0 [])) ∧
      reservedBad (entry 0x13 77 0 []) [] = []) := by decide +kernel

/-- JOB_RESTART of step 8 with identifiers in the list, on the bound map or another. -/
def again (n map : Nat) : List Byte := entry 0x12 77 (if n = 0 then 0 else 0x1000) (leBytes 4 8 ++ leBytes 2 n ++ leBytes 2 0 ++ leBytes 8 map)
def gen8 : Gen := ⟨1, 8, 0, false, .n, mapDigest (jmap 16 false), [], jmap 16 false, false⟩
def restart (n map : Nat) (gens : List Gen) : State := { bound (again n map) with sto := { (bound []).sto with gens := gens } }

theorem wit_restart :
    (∀ p ∈ [(0, 0), (1, 0), (0, 64)],
      let s := restart p.1 (p.2 * 4096) []
      let e := again p.1 (p.2 * 4096)
      Runs s 0 5 0x12 true (fet e) ∧ s.flag F.STO_ST_READY = true ∧ s.job = some job2 ∧
        firstOffset e [(16, 4), (20, 2), (24, 8)] [(false, 0), (decide (256 < p.1), 20), (p.1 != 0 && s.ptrBad (fet e) (2 * p.1) (some [0, 0x80]), 8),
          (p.2 * 4096 % 64 != 0 || (p.2 * 4096 != 0 && !s.shared (p.2 * 4096) 64), 24)] = (if p.2 = 0 then none else some 24) ∧
        fieldAt (s.ptrData (fet e) 2 (some [0, 0x80])) 0 2 = 32768) ∧
    (let s := restart 0 0 []
     (s.remapTo [] none).mapCores.mapCode (jmap 16 false) true = 0 ∧ (s.remapTo [] none).mapCores.mapCode (jmap 17 false) true ≠ 0 ∧
       s.bytes job2.map 64 = jmap 16 false ∧ s.rangeWorld job2.map 64 .n = true) := by decide +kernel

theorem wit_restore :
    ((restart 0 0 []).remapTo [] none).restoreFrom 8 false (jmap 16 false) .absent = (3, none) ∧
    ((restart 0 0 [gen8]).remapTo [] none).restoreFrom 8 false (jmap 16 false) .absent = (1, some gen8.data) := by decide +kernel

/-- R436: STEP starts the schedule; Table 16.6: SET_QUOTA above the pool ends with QUOTA (6). -/
theorem test_step_quota :
    ok (exec (.step 0 5 (some [3])) (bound (entry 0x11 77 0x1000 (leBytes 2 1)))) (fun t =>
      (t.job.map (·.stepCmd)) == some (some ⟨0, 5, [3]⟩) && t.fld F.CMD_JOB_PHASE == 1) = true ∧
    ok (exec (.setQuota 0 5) (bound (entry 0x16 77 0 (leBytes 4 4096)))) (fun t => t.load (shared + 8392704 + 8) 1 == 6) = true := by
  decide +kernel

/-! ## Snapshots, copies, messages and functions -/

/-- SNAPSHOT of a step to a host address. -/
def snapE (step : Nat) : List Byte :=
  entry 0x14 77 0 (leBytes 4 step ++ leBytes 4 0 ++ leBytes 8 (hbmBase + 0x200000) ++ leBytes 8 0x100000 ++ leBytes 8 0x5000 ++ leBytes 8 0)
def snapCmd (step : Nat) (y : Option SnapSt) : State := { (bound (snapE step)).put F.CMD_COMMITTED_STEP 8 with snap := y }

theorem wit_snapshot_cmd : ∀ n ∈ [8, 9, noStep],
    let s := snapCmd n none
    let f := fun o w => fieldAt (snapE n) o w
    Runs s 0 5 0x14 false (fet (snapE n)) ∧ s.job = some job2 ∧
      firstOffset (snapE n) [(16, 6), (24, 32)]
        [(s.jobBad (fet (snapE n)), 4), (f 16 4 != noStep && s.fld F.CMD_COMMITTED_STEP != noStep && decide (f 16 4 < s.fld F.CMD_COMMITTED_STEP), 16),
         (decide (1 < f 20 1), 20), (decide (1 < f 21 1), 21), (f 24 8 % 4096 != 0 || s.place (f 24 8) != .hbm || !s.inOne (f 24 8) (Nat.max (f 32 8) 1), 24),
         (decide (f 32 8 < (s.snapLayout false).2), 32), (f 40 8 % 64 != 0, 40), (f 48 8 != 0, 48)] = none ∧
      s.rangeWorld (f 24 8) (Nat.max (f 32 8) 1) .n = true ∧ job2.secure = false ∧ ((snap1 false [] 0).sq ≠ 0) := by decide +kernel

/-- COPY of 128 bytes between a host address and shared memory. -/
def copyE (dir : Nat) (len : Nat := 128) : List Byte :=
  entry 0x15 0 0 (leBytes 1 dir ++ leBytes 7 0 ++ leBytes 8 0x5000 ++ leBytes 8 (shared + 4096) ++ leBytes 8 len)
def copyS (dir len before : Nat) (s : State) : State :=
  { cmd (copyE dir len) s with copies := [(0, 5, before)], arbs := [⟨1, 0, 0, 0⟩] }

theorem wit_copy :
    (∀ s ∈ [cmd (copyE 0) dev, cmd (copyE 0) (sworld dev)],
      Runs s 0 5 0x15 false (fet (copyE 0)) ∧ s.copies = [] ∧
        firstOffset (copyE 0) [(16, 1), (24, 24)] [(decide (1 < 0), 16), (fieldAt (copyE 0) 24 8 % 64 != 0, 24),
          ((shared + 4096) % 64 != 0 || !s.shared (shared + 4096) (Nat.min 128 (2 ^ 40)), 32),
          (128 == 0 || 128 % 64 != 0 || decide (2 ^ 40 < 128), 40)] = none) ∧
    (cmd (copyE 0) dev).rangeWorld (shared + 4096) 128 .n = true ∧ (cmd (copyE 0) (sworld dev)).rangeWorld (shared + 4096) 128 .n = false ∧
    (∀ p ∈ [(0, 128), (1, 128), (0, 2 * miB)],
      let s := copyS p.1 p.2 0 dev
      Runs s 0 5 0x15 false (fet (copyE p.1 p.2)) ∧ s.arbPick 1 (fun _ => true) = some ⟨1, 0, 0, 0⟩ ∧ s.firstCopy 0 = some (0, 5, 0) ∧
        s.zeroingIn (shared + 4096) (Nat.min miB p.2) = false) := by decide +kernel

/-- R428: a copy to the host writes the bytes and ends. -/
theorem test_copy :
    ok (exec (.copy 0 5 []) (copyS 1 128 0 (dev.store (shared + 4096) 4 7))) (fun t =>
      t.copies.isEmpty && t.fetched.isEmpty && t.out == [.hostWrite 1 .n 0x5000 (leBytes 128 7)]) = true := by decide +kernel

/-- Fabric send queue 8 with one entry, for queue 9 of device 5 by its record or by the entry itself. -/
def fsq (first : Nat) : State :=
  { ((((queue 8 2 0 255 4 1 0 1 (torus dev)).setQf 8 8 8 (shared + 8388608)).setQf 8 64 2 5).setQf 8 66 2 9).setBytes (shared + 8388608)
      (leBytes 4 first ++ leBytes 60 7) with arbs := [⟨2, 8, 0, 0⟩] }

theorem wit_send : ∀ n ∈ [0, 3 * 65536 + 6],
    (fsq n).arbPick 2 (fun q => (fsq n).qClass q == 2 && (fsq n).qState q == 1 && !(fsq n).qEmpty q) = some ⟨2, 8, 0, 0⟩ ∧ (fsq n).qWorld 8 = .n ∧
      decide (fieldAt ((fsq n).entryAt 8 []) 0 4 = 0) = decide (n = 0) := by decide +kernel

/-- R443: the message goes to the doorbell address of the record's target. -/
theorem test_send : ok (exec (.fsqSend []) (fsq 0)) (fun t =>
    t.node.map (fun k => (pkType k.bytes, pkDst k.bytes, pkAddr k.bytes)) == [(3, 5, 0x64000000 + 576)] && t.qHead 8 == 1) = true := by
  decide +kernel

theorem wit_functions : dev.UnitsInRange ∧ (dev.put F.HIF_FN_ST_TDI_RUN 1 1).UnitsInRange ∧ (dev.put F.HIF_FN_ST_TDI_RUN 1 1).flag F.HIF_FN_ST_TDI_RUN 1 = true ∧
    dev.flag F.HIF_FN_ST_TDI_RUN 1 = false := by decide +kernel

/-! ## SPDM -/

/-- The host's connection at a stage, with a session. -/
def spd (stage : Nat) (done : Bool) : State :=
  { hostS dev with sec := { dev.sec with conns := Tab.empty.set 0 {} { stage := stage }, sessions := [⟨0x10001, 0, done, [], 0, 0, 0⟩],
                                         ideKeys := Tab.empty.set 256 [] [1] } }

/-- A request: version, code, two parameters and the rest. -/
def spdmMsg (ver code p1 p2 : Nat) (rest : List Byte := []) : List Byte := leBytes 1 ver ++ leBytes 1 code ++ leBytes 1 p1 ++ leBytes 1 p2 ++ rest

theorem wit_heard : Heard (spd 3 true) .doe ∧ Heard (spd 3 true) .mctp ∧ Heard (spd 3 true) (.device 5) ∧ (spd 3 true).jobWorld = .n ∧
    (∀ row ∈ spdmRows .doe 0 [] false, ¬ InOrder (spd 3 true) .doe [] row.2.1 row.2.2.1 row.2.2.2.1 row.2.2.2.2) := by decide +kernel

theorem wit_spdm_connect :
    InOrder (spd 0 false) .doe (spdmMsg 0x10 0x84 0 0) 0x10 0x84 0 4 ∧ ¬ InOrder (spd 0 false) .doe (spdmMsg 0x10 0x84 0 0 |>.take 3) 0x10 0x84 0 4 ∧
    InOrder (spd 1 false) .doe (spdmMsg 0x13 0xE1 0 0 (leBytes 16 0)) 0x13 0xE1 1 20 ∧
    (∀ b ∈ [true, false],
      let m := spdmMsg 0x13 0xE3 0 0 (leBytes 4 0 ++ leBytes 4 (if b then 2 ^ 9 else 2 ^ 7) ++ leBytes 4 (2 ^ 6) ++ leBytes 16 0)
      InOrder (spd 2 false) .doe m 0x13 0xE3 2 32 ∧ (bit (fieldAt m 8 4) 9 && bit (fieldAt m 12 4) 6) = b) ∧
    InOrder (spd 3 false) .doe (spdmMsg 0x13 0x81 0 0) 0x13 0x81 3 4 ∧
    (∀ k ∈ [0, 1], InOrder (spd 3 false) .doe (spdmMsg 0x13 0x82 k 0 (leBytes 4 0x100000)) 0x13 0x82 3 8) ∧
    InOrder (spd 3 false) .doe (spdmMsg 0x13 0x83 0 1 (leBytes 40 0)) 0x13 0x83 3 44 ∧
    (∀ o ∈ [0, 1, 10, 0xFF], (InOrder (spd 3 false) .doe (spdmMsg 0x13 0xE0 0 o) 0x13 0xE0 3 4 ∧ (measAsked o).isSome) ∧
      InOrder (spd 3 false) .doe (spdmMsg 0x13 0xE0 1 o (leBytes 41 0)) 0x13 0xE0 3 4 ∧ bit (byteAt (spdmMsg 0x13 0xE0 1 o) 2) 0 = true ∧
      (spdmMsg 0x13 0xE0 1 o (leBytes 41 0)).length = 45 ∧ byteAt (spdmMsg 0x13 0xE0 1 o (leBytes 41 0)) 36 = 0) ∧
    InOrder (spd 3 false) .doe (spdmMsg 0x13 0xE4 0 0 (leBytes 102 0)) 0x13 0xE4 3 106 := by decide +kernel

/-- The chain of slot 0 is never empty, so a portion from 0 is there to give. -/
theorem wit_chain (s : State) : 0 < s.certChain.length := by
  simp [State.certChain] <;> omega

theorem wit_spdm_session :
    (∀ d ∈ [true, false], (spd 3 d).session? .doe 0x10001 = some ⟨0x10001, 0, d, [], 0, 0, 0⟩ ∧ (spd 3 d).session? .mctp 0x10001 = none) ∧
    (∀ c ∈ [0xE5, 0xE8, 0xE9, 0xEC], ∀ k ∈ [1, 2, 3], InOrder (spd 3 true) .doe (spdmMsg 0x13 c k 0) 0x13 c 3 4) ∧
    (let m := [2, 0, 0, 1, 0, 0, 0] ++ leBytes 40 9
     byteAt m 0 = 2 ∧ m.length = 47 ∧ (spd 3 true).sec.ideKeys.get (byteAt m 5 + 256 * byteAt m 3) [] ≠ []) := by decide +kernel

/-- A TDI that is unlocked, locked under a nonce, or in RUN. -/
def tdi (st : Nat) : State :=
  let s := spd 3 true
  let s := if st = 1 then { s with sec := { s.sec with tdiLocked := [(1, leBytes 32 9)] } } else s
  if st = 2 then s.put F.HIF_FN_ST_TDI_RUN 1 1 else s
def tdim (c : Nat) (rest : List Byte) : List Byte := [0x10] ++ leBytes 1 c ++ leBytes 14 1 ++ rest

theorem wit_tdisp :
    (∀ k ∈ [0, 1, 2], (tdi k).tdiState 1 = k) ∧ (tdi 1).job = none ∧
    firstWhere (fun (x : Nat × List Byte) => x.1 == 1) (tdi 1).sec.tdiLocked = some (1, leBytes 32 9) ∧
    (∀ c ∈ [0x83, 0x85, 0x86, 0x87], byteAt (tdim c []) 0 = 0x10 ∧ byteAt (tdim c []) 1 = c) ∧
    ((tdim 0x86 (leBytes 32 9)).drop 16).take 32 = leBytes 32 9 ∧ ((tdim 0x86 []).drop 16).take 32 ≠ leBytes 32 9 := by decide +kernel

/-- R457: GET_VERSION names 1.3 alone; a heartbeat in a complete session is answered; IDE_KM keeps a key. -/
theorem test_spdm :
    ok (exec (.getVersion .doe (spdmMsg 0x10 0x84 0 0)) (spd 0 false)) (fun t =>
      t.out == [.mgmt 0 [0x10, 0x04, 0, 0, 0, 1, 0, 0x13]] && (t.conn .doe).stage == 1) = true ∧
    ok (exec (.heartbeat .doe 0x10001 (spdmMsg 0x13 0xE8 0 0)) (spd 3 true)) (fun t => t.out == [.mgmt 0 [0x13, 0x68, 0, 0]]) = true ∧
    ok (exec (.ideKm .doe 0x10001 false ([2, 0, 0, 1, 0, 0, 0] ++ leBytes 40 9)) (spd 3 true)) (fun t =>
      t.sec.ideKeys.get 256 [] == leBytes 40 9) = true := by decide +kernel

/-! ## Firmware -/

/-- Seven bytes of the boot store that make a slot hold an image, or none. -/
def slot (base : Nat) (full : Bool) : Tab Byte :=
  ⟨[(base, if full then 0x57 else 0), (base + 1, 0x46), (base + 2, 0x39), (base + 3, 0x53), (base + 4, 9)]⟩

theorem wit_kick :
    Reaches dev (.fw .cmd false) .BC_FW_KICK 0 dev ∧ Reaches dev (.fn 0) .BC_FW_KICK 0 dev ∧ Reaches dev (.fw .mgt false) .BC_CL 0 dev ∧
    dev.fld F.BC_CL_STATE 0 ≠ 2 ∧ upS.fld F.BC_CL_STATE 0 = 2 ∧ 0 ∉ upS.wakeReq ∧ Reaches upS (.fw .mgt false) .BC_CL 0 upS := by decide +kernel

theorem wit_trace :
    (∀ c ∈ [0, 2, 5, 31], decide (c = 0 ∨ c = 2 ∨ bit (dev.rd .LNT_MASK 4).toNat c = true) = decide (c = 0 ∨ c = 2)) ∧
    (dev.put F.LNT_BASE_HI_ADDR_HI (hbmBase / 2 ^ 32) 4).place ((dev.put F.LNT_BASE_HI_ADDR_HI (hbmBase / 2 ^ 32) 4).lntBase 4) = .hbm ∧
    dev.place (dev.lntBase 4) ≠ .hbm := by decide +kernel

theorem wit_watchdog :
    dev.UnitsInRange ∧ (dev.proc 4).run = .running ∧ (dev.proc 4).half = false ∧ dev.now < (dev.proc 4).kick + dev.wdTicks ∧
    (let s := { dev with lcnt := 0x4000000000000000 }
     (s.proc 4).kick + s.wdTicks ≤ s.now ∧ 2 * (s.proc 4).kick + s.wdTicks ≤ 2 * s.now) := by decide +kernel

/-- The processor restarts; its active slot in bank 0. -/
def restarting (p : Nat) (act back full : Bool) : State :=
  { dev.setProc p { dev.proc p with run := .restarting, activating := act, back := back } with nor := slot (slotBase 0 p) full }

theorem wit_peer_up :
    (∀ a ∈ [true, false], ∀ b ∈ [true, false],
      let s := restarting 4 a b false
      s.UnitsInRange ∧ (s.proc 4).run = .restarting ∧ (s.proc 1).run = .running ∧ s.activeBank 4 = 0 ∧
        s.imageOk 4 (slotBase (s.activeBank 4) 4) (s.fld F.BC_FW_SVN_FLOOR 4) = false ∧ (s.proc 4).activating = a ∧ (s.proc 4).back = b) := by
  decide +kernel

/-- An accepted image needs Asiervo's key, which the model does not know (a boot store that holds one is what is left to meet);
the other premises do not read the boot store, and are met. -/
theorem wit_peer_up_accepted :
    let s := restarting 4 false false true
    (s.proc 4).run = .restarting ∧ (s.proc 1).run = .running ∧ s.fwTodo = [] ∧ s.UnitsInRange := by decide +kernel

/-- The host mailbox, queue 9, with one entry in shared memory. -/
def mail (e : List Byte) (s : State) : State :=
  (((queue 9 5 0 0 16 1 0 1 (hostS s)).setQf 9 8 8 (shared + 8388608)).setBytes (shared + 8388608) e).put F.HIF_FWQBASE_QBASE 9

/-- A mailbox entry: code, processor or mask, address, length and FROMSEQ. -/
def mbe (opc p len : Nat) (bad : Nat := 0) : List Byte :=
  padTo 64 (leBytes 1 opc ++ leBytes 1 p ++ leBytes 2 5 ++ leBytes 4 bad ++ leBytes 8 0x5000 ++ leBytes 4 len ++ leBytes 4 0)

theorem wit_mail :
    (∀ e ∈ [mbe 0 0 0, mbe 1 4 256, mbe 2 16 0, mbe 3 16 0, mbe 4 4 64],
      let s := mail e dev
      Mail s [] e (s.setQf 9 36 4 1) ∧ s.UnitsInRange ∧ (s.proc 1).run = .running) ∧
    (∀ e ∈ [mbe 1 4 256, mbe 1 4 255, mbe 1 4 0x300000, mbe 2 16 0, mbe 2 17 0, mbe 3 16 0, mbe 4 4 64], mbBad e = false) ∧
    (∀ e ∈ [mbe 0 0 0, mbe 5 0 0, mbe 1 4 256 1, mbe 2 0 0, mbe 3 32 0, mbe 4 5 64], mbBad e = true) := by decide +kernel

/-- CMD in some state, in a boot store whose other slot of CMD is full or empty. -/
def cmdS (x : ProcSt) (full : Bool) (e : List Byte) : State := { (mail e dev).setProc 4 x with nor := slot (slotBase 1 4) full }

theorem wit_mailbox_work :
    (∀ b ∈ [true, false],
      let s := cmdS { run := .running } b (mbe 2 16 0)
      (s.proc 4).deferTag = none ∧ s.deferReason 4 = none ∧ mbMask (mbe 2 16 0) = [4] ∧ mbMask (mbe 2 17 0) = [0, 4] ∧
        s.slotEmpty (s.otherBank 4) 4 = (!b)) ∧
    ((cmdS { run := .running } true []).put F.BC_FW_ST_EMERG 1).deferReason 4 = some 1 ∧
    (∀ r ∈ [ProcRun.dead, .held, .restarting], ((cmdS { run := r } true []).proc 4).run = r ∧ ((cmdS { run := r } true []).proc 4).tag = none) ∧
    ((cmdS { run := .running, deferTag := some 5 } true []).proc 4).deferTag ≠ none ∧
    ((mail (mbe 4 4 64) dev).put F.SEC_ST_SEALED 1).flag F.SEC_ST_SEALED = true ∧
    (mail (mbe 4 4 64) dev).fld F.LNT_SEQ_SEQ 4 + 1 - 1 = 0 ∧ ((mail (mbe 4 4 64) dev).put F.LNT_SEQ_SEQ 3 4).fld F.LNT_SEQ_SEQ 4 = 3 := by
  decide +kernel

theorem wit_activation_release : ∀ b ∈ [true, false],
    let s := { cmdS { run := .running, deferTag := some 5 } b [] with lcnt := 3000000 }
    s.UnitsInRange ∧ (s.proc 0).run = .running ∧ firstWhere (fun p => s.releasable p) (List.range 5) = some 4 := by decide +kernel

/-- R467: a kick is noted; R480: a record of a class that is always enabled moves LNT_HEAD on. -/
theorem test_firmware :
    ok (exec (.bcFwKick (.fw .cmd false) 16) { dev with lcnt := 77 }) (fun t => (t.proc 4).kick == 77) = true ∧
    ok (exec (.tracePoint .cmd 2 7 []) dev) (fun t => t.fld F.LNT_HEAD_HEAD 4 == 1 && t.fld F.LNT_SEQ_SEQ 4 == 1) = true ∧
    ok (exec (.wdHalf .cmd) { dev with lcnt := 0x4000000000000000 }) (fun t => t.evgPend 4 0 && (t.proc 4).half) = true := by decide +kernel

/-! ## Limits, sleep and clocks -/

/-- The device with the limit keeper's state, late. -/
def hot (l : LimitSt) : State := { dev with lk := l, lcnt := 0x4000000000000000 }

theorem wit_limits :
    dev.fld F.BC_CL_STATE 0 ≠ 2 ∧ upS.fld F.BC_CL_STATE 0 = 2 ∧
    (∀ c ∈ [0, 8],
      let s := hot { temps := List.replicate 22 95 }
      (∃ i ∈ throttleSensors c, 95 ≤ s.tempOf i) ∧ s.lk.stepAt.getD c 0 + usTicks 100 ≤ s.now ∧ s.lk.therm c < s.vfUsable - 1) ∧
    (∀ c ∈ [0, 8],
      let s := hot { temps := List.replicate 22 93, ceilT := List.replicate 8 1, ceilS := 1 }
      (∀ i ∈ throttleSensors c, s.tempOf i ≤ 93) ∧ s.lk.stepAt.getD c 0 + msTicks 1 ≤ s.now ∧ 0 < s.lk.therm c) ∧
    (∀ i ∈ throttleSensors 8, (hot { temps := List.replicate 22 94 }).tempOf i < 95 ∧ 93 < (hot { temps := List.replicate 22 94 }).tempOf i) ∧
    (∀ p ∈ [(false, 99), (false, 100), (true, 97), (true, 98)],
      (hot { fast := List.replicate 8 p.1, temps := List.replicate 22 p.2 }).lk.fast.getD 0 false = p.1 ∧
        (hot { fast := List.replicate 8 p.1, temps := List.replicate 22 p.2 }).tempOf 0 = p.2) := by decide +kernel

theorem wit_current_and_power :
    dev.boot.island = true ∧ dev.lk.oc.getD 0 false = false ∧
    ((hot { oc := [true] }).lk.oc.getD 0 false = true ∧ (hot { oc := [true] }).lk.ocSince.getD 0 0 + usTicks 100 ≤ (hot { oc := [true] }).now) ∧
    (∀ u ∈ [2519999, 2520000, 2800000, 2800001], ∀ n ∈ [8, 9],
      (hot { winUJ := u, below := n }).lk.winNo < (hot { winUJ := u, below := n }).now / msTicks 1 ∧ (hot { winUJ := u, below := n }).lk.below = n) ∧
    dev.now / msTicks 1 ≤ dev.lk.winNo ∧ dev.pins.pwrbrkN = true ∧ { dev with pins := { dev.pins with pwrbrkN := false } }.pins.pwrbrkN = false ∧
    dev.lk.sampleAt = none ∧ (hot { sampleAt := some 5 }).lk.sampleAt = some 5 ∧
    ((dev.proc 0).run = .running ∧ dev.now / msTicks 1 ≤ dev.lk.mgtNo ∧ (hot {}).lk.mgtNo < (hot {}).now / msTicks 1 ∧
      (hot {}).flag F.BC_PWR_PWR_HELD = false ∧ ((hot {}).put F.BC_PWR_PWR_HELD 1).flag F.BC_PWR_PWR_HELD = true) := by decide +kernel

/-- R500: a cluster at 95 °C steps one point slower; above 400 A the die's clusters divide by 2. -/
theorem test_limits :
    ok (exec (.thermalThrottleStep 0) (hot { temps := List.replicate 22 95 })) (fun t =>
      t.fld F.BC_CL_CEIL 0 == 1 && t.fld F.BC_LK_ST_THROT == 1 && t.fld F.BC_LK_CNT_THERM == 1 && t.flag F.BC_FW_ST_EMERG) = true ∧
    ok (exec (.railCurrentLimit 1 401) dev) (fun t => t.fld F.BC_CL_DIV 2 == 2 && t.fld F.BC_CL_DIV 0 == 1 && t.fld F.BC_RAIL_PEAK 1 == 401) = true := by
  decide +kernel

/-- A device whose sleep times are long past. -/
def slept (s : State) : State :=
  { s with lcnt := 0x4000000000000000, slp := { idleAt := List.replicate 8 (some 0), unboundAt := List.replicate 8 (some 0), allBiv := some 0 } }

theorem wit_sleep :
    (let s := slept (dev.put F.BC_SLEEP_X_DOZE_EN 1)
     s.fld F.BC_CL_STATE 0 = 0 ∧ s.flag F.BC_SLEEP_X_DOZE_EN = true ∧ s.slp.idleAt.getD 0 none = some 0 ∧
       0 + usTicks (Nat.max (s.fld F.BC_SLEEP_X_DOZE_IDLE_US) 1) ≤ s.now ∧ s.clIdle 0 = true ∧ s.rampingDown 0 = false) ∧
    (dev.put F.BC_SLEEP_X_DOZE_EN 0).flag F.BC_SLEEP_X_DOZE_EN = false ∧ (dev.put F.BC_CL_STATE 1 0).fld F.BC_CL_STATE 0 = 1 ∧
    (let s := slept (dev.put F.BC_SLEEP_X_BIV_EN 1)
     s.UnitsInRange ∧ (s.proc 0).run = .running ∧ s.fld F.BC_CL_STATE 0 ≠ 2 ∧ s.flag F.BC_SLEEP_X_BIV_EN = true ∧
       s.slp.unboundAt.getD 0 none = some 0 ∧ 0 + msTicks (Nat.max (s.fld F.BC_SLEEP_X_BIV_IDLE_MS) 1) ≤ s.now ∧ s.clBound 0 = false ∧
       s.poolStuck 0 = false) ∧
    (dev.put F.BC_SLEEP_X_BIV_EN 0).flag F.BC_SLEEP_X_BIV_EN = false ∧
    (let s := { running 0 upS with wakeReq := [0] }
     s.UnitsInRange ∧ (s.proc 0).run = .running ∧ s.fld F.BC_CL_STATE 0 = 2 ∧ 0 ∈ s.wakeReq) ∧
    (let s := slept ((running 0 upS).put F.BC_SLEEP_X_SR_EN 1)
     s.flag F.BC_SLEEP_X_SR_EN = true ∧ s.slp.allBiv = some 0 ∧ 0 + msTicks 1 ≤ s.now ∧ (∀ k < 8, s.fld F.BC_CL_STATE k = 2) ∧
       s.hbmLast + msTicks 1 ≤ s.now) ∧
    (dev.put F.BC_PWR_ST_HBM_SR 1).flag F.BC_PWR_ST_HBM_SR = true ∧ dev.flag F.BC_PWR_ST_HBM_SR = false := by decide +kernel

/-- R492: an idle cluster dozes; R495: one in bivouac comes out with its wake epochs raised. -/
theorem test_sleep :
    ok (exec (.dozeEntry 0) (slept (dev.put F.BC_SLEEP_X_DOZE_EN 1))) (fun t => t.fld F.BC_CL_STATE 0 == 1 && t.fld F.CL_DOZES_COUNT 0 == 1) = true ∧
    ok (exec (.bivouacExit 0) { running 0 upS with wakeReq := [0] }) (fun t =>
      t.fld F.BC_CL_STATE 0 == 0 && t.fld F.CL_WEP0_EPOCH 0 == 1 && t.wakeReq.isEmpty) = true := by decide +kernel

/-! ## Start-up, pins and clocks -/

/-- The device in reset with all its rails good. -/
def inRst : State := State.reset.put F.BC_RAIL_GOOD_GOOD 0x1FFF

/-- A start-up whose NOR answers or not. -/
def startIn (nor : Bool) : StartIn := ⟨nor, [], false, false, false, [], [], [], List.replicate 6 none, List.replicate 16 ⟨false, 0, false, 0, 0, 0, 0, []⟩, (false, 0), [], []⟩

theorem wit_start :
    { dev with boot := { dev.boot with island := false } }.boot.island = false ∧ dev.boot.island = true ∧ dev.pins.perstN = true ∧
    State.reset.pins.perstN = false ∧ State.reset.boot.island = true ∧ State.reset.fld F.BC_RAIL_GOOD_GOOD ≠ 0x1FFF ∧
    inRst.fld F.BC_RAIL_GOOD_GOOD = 0x1FFF ∧ inRst.flag F.BC_LK_ST_TRIP = false ∧ (∀ b ∈ [true, false], Instr.wf (.perstNDeassert (startIn b)) = true) ∧
    ((∃ i < 14, 110 ≤ (hot { temps := List.replicate 14 110 }).tempOf i) ∧ (hot {}).flag F.BC_LK_ST_TRIP = false) ∧
    (∀ i < 14, (hot { temps := List.replicate 22 109 }).tempOf i < 110) := by decide +kernel

/-- R522: without the NOR the start-up stops in stage 2 with FAIL code 2; R556: without its rails the device is held. -/
theorem test_start :
    ok (exec (.perstNDeassert (startIn false)) inRst) (fun t => t.fld F.BC_BOOT_ST_STAGE == 2 && t.fld F.BC_BOOT_ST_FAIL == 2) = true ∧
    ok (exec (.perstNDeassert (startIn false)) State.reset) (fun t => t.boot.railHold && t.fld F.BC_BOOT_ST_STAGE == 0) = true := by decide +kernel

/-- After stage 6, with the link up. -/
def ready (w : Nat) : State :=
  { dev.put F.HIF_ST_WIDTH w with boot := { dev.boot with bistOk := true }, lcnt := 0x4000000000000000 }

theorem wit_ready :
    (let s := ready 16
     s.inReset = false ∧ s.boot.bistOk = true ∧ s.fld F.BC_BOOT_ST_FAIL = 0 ∧ s.flag F.BC_BOOT_ST_READY = false ∧ s.fld F.HIF_ST_WIDTH ≠ 0 ∧
       (∀ p < 6, s.fld F.IKF_PST_STATE p ≠ 1) ∧ (s.proc 0).run ≠ .dead ∧ (s.proc 1).run ≠ .dead ∧
       s.boot.stage6 + msTicks (Nat.max (s.fld F.BC_BOOT_X_FAB_WAIT_MS) 1) ≤ s.now) ∧
    (let s := ready 0
     s.fld F.HIF_ST_WIDTH = 0 ∧ s.boot.stage1 + msTicks 1000 ≤ s.now) ∧
    ((ready 0).put F.BC_BOOT_ST_FAIL 6).fld F.BC_BOOT_ST_FAIL = 6 ∧ dev.boot.retryAt = none ∧
    { dev with boot := { dev.boot with retNow := true } }.boot.retNow = true ∧ dev.boot.lastWrite = none ∧ dev.retDiffers = true ∧
    (let s := { dev with boot := { dev.boot with retryAt := some 0 }, lcnt := 30000000 }
     s.boot.retryAt = some 0 ∧ 0 + msTicks 1000 ≤ s.now ∧ dev.now < 0 + msTicks 1000) := by decide +kernel

theorem wit_core_tested :
    dev.UnitsInRange ∧ dev.flag F.ME_STATUS_CORE_FENCED 4 = false ∧
    (dev.put F.ME_STATUS_CORE_FENCED 1 4).UnitsInRange ∧ (dev.put F.ME_STATUS_CORE_FENCED 1 4).flag F.ME_STATUS_CORE_FENCED 4 = true ∧
    (dev.put F.ME_STATUS_CORE_FENCED 1 4).job = none := by decide +kernel

/-- R520: READY after the ports have trained and the link is up. -/
theorem test_ready : ok (exec .ready (ready 16)) (fun t => t.flag F.BC_BOOT_ST_READY && t.fld F.BC_BOOT_ST_STAGE == 7) = true := by decide +kernel

theorem wit_side :
    dev.boot.island = true ∧ dev.i3cServed = true ∧ State.reset.boot.island = true ∧ State.reset.i3cServed = false ∧
    (∀ m ∈ [0, 1, 2, 3], (dev.put F.SEC_DBG_JTAG_MODE m).fld F.SEC_DBG_JTAG_MODE = m) ∧ dev.inReset = false ∧ State.reset.inReset = true := by
  decide +kernel

/-- A station on core 1 that its counters count. -/
def counted (en : Bool) : State := (core1 0 0 {} []).put F.CO_CNT_X_STN_EN en.toNat 1

theorem wit_cycle :
    (counted true).fld F.BC_CL_STATE 0 = 0 ∧ (counted true).UnitsInRange ∧ upS.fld F.BC_CL_STATE 0 ≠ 0 ∧
    (∀ e ∈ [true, false], ((counted e).stn? 1 0).isSome = true ∧ (counted e).flag F.CO_CNT_X_STN_EN 1 = e) ∧
    (∀ x ∈ [(⟨0, 0, false⟩ : StoreErr)], x.bad = false) := by decide +kernel

/-- R560: IDCODE is shifted out from its lowest bit; R463: debug in mode 2 is the debug unit's. -/
theorem test_tap :
    ok (exec (.jtagTapAccess .idcode) dev) (fun t => t.out == [.tdo ((List.range 32).map (bit 0x1539096F))]) = true ∧
    (match exec (.jtagTapAccess .debug) (dev.put F.SEC_DBG_JTAG_MODE 2) with
      | .refused r => r == .debugUnit
      | .next _ => false
      | .fault _ => false) = true := by decide +kernel

/-- R32: a tick adds 1, and the counter wraps at 2⁶⁴. -/
theorem test_tick :
    ok (exec .localCounterTick { dev with lcnt := 0xFFFFFFFFFFFFFFFF }) (fun t => t.lcnt == 0) = true ∧
    ok (exec .localCounterTick dev) (fun t => t.lcnt == 1) = true := by decide +kernel

/-! ## The whole machine -/

theorem wit_invariant : dev.Inv ∧ State.reset.Inv ∧ { dev with pending := [.localCounterTick] }.Inv ∧ Instr.localCounterTick ≠ .islandPowerLoss ∧
    ok (step { dev with pending := [.localCounterTick] }) (fun t => t.pending.isEmpty) = true ∧
    { dev with boot := { dev.boot with island := false } }.boot.island = false := by decide +kernel

/-! ## Ill-formed commands: one for each check of WellFormed.lean, which refuses it -/

theorem wf_registers : ∀ i ∈ [Instr.registerWrite (.fn 0) 0x4000000 0, .narrowWrite (.fn 0) 0x4000000, .expertRegisterWrite (.fn 0) 0x4000000 0,
    .expertHeldClear (.fn 0) 0x4000000 0], i.wf = false := by decide

theorem wf_host : ∀ i ∈ [Instr.msixUnmask 0 4096, .doorbell (.fn 0) false 0 (2 ^ 32), .bar4Access 0 false (2 ^ 32) (.read 4),
    .bar4Access 0 false 0 (.read 0), .bar4Access 0 false 0 (.write []), .hsqFetch [], .fsqSend [], .createQ 32768 0 none, .deleteQ 0 65536,
    .jobStart 0 0 none 0 0 [(2 ^ 32, 0)] 0, .step 32768 0 none, .jobRestart 32768 0 none [] none .absent 0, .jobEnd 32768 0, .snapshot 32768 0,
    .copy 32768 0 [], .setQuota 32768 0], i.wf = false := by decide

theorem wf_units : ∀ i ∈ [Instr.beatCheck 0 [⟨4, 0, false, 0, 0⟩] false, .beatCheck 0 [⟨0, 513, false, 0, 0⟩] false, .pitch (some (2 ^ 48)) [],
    .pitch none [(12, 0, [])], .patrolScrub true 0 (2 ^ 48) 0, .sliceRead 0 none (2 ^ 48) 0 false 0, .packetForward 0 (some []),
    .flitReceive 0 [] false 0 [], .telemetrySample [] [] 0 [], .coreTested 0 [(0, true, 0, 513)] false false false], i.wf = false := by decide

theorem wf_messages : ∀ i ∈ [Instr.finish .doe (2 ^ 32) [] true, .heartbeat .doe (2 ^ 32) [], .keyUpdate .doe (2 ^ 32) [], .endSession .doe (2 ^ 32) [],
    .ideKm .doe (2 ^ 32) false [], .tdisp .doe (2 ^ 32) 0 [], .stage [] [], .activate [], .restart [], .logRead [],
    .tracePoint .mgt 0 0 (List.replicate 12 0)], i.wf = false := by decide

theorem wf_start : ∀ b ∈ [{ startIn true with ports := [] }, { startIn true with flash := [] }, { startIn true with engBad := [32] },
    { startIn true with coreBad := [16] }, { startIn true with repairs := [(32, true, 0, 0)] }, { startIn true with repairs := [(0, true, 8, 0)] }],
    Instr.wf (.perstNDeassert b) = false := by decide

theorem wf_taken : ∀ i ∈ [Instr.registerWrite (.fn 0) 0x3FFFFFC 0, .msixUnmask 0 4095, .bar4Access 0 false (2 ^ 32 - 1) (.write [0]),
    .flitReceive 0 (List.replicate 16 0) false 0 [], .perstNDeassert (startIn true)], i.wf = true := by decide

end Sys2Proof.Tests
end

section
/-! PROOF. What a register update leaves as it was: the frames `Kept` and `RegsOnly` of the statements, and fields that
share no bit. -/

namespace Sys2Proof.Machine

/-! ## One register word kept -/

theorem Kept.refl (s : State) (off : Nat) : Kept s s off := fun _ => rfl

theorem Kept.trans {s t u : State} {off : Nat} (h : Kept s t off) (k : Kept t u off) : Kept s u off :=
  fun d => (k d).trans (h d)

/-- A register whose word is kept reads as before. -/
theorem Kept.rd_eq {s t : State} {r : RegId} {i j : Nat} (h : Kept s t (r.addr i j)) : t.rd r i j = s.rd r i j := h _

theorem Kept.fld_eq {s t : State} {f : Fld} {i j : Nat} (h : Kept s t (f.off i j)) : t.fld f i j = s.fld f i j := by
  rw [State.fld, State.fld, h.rd_eq]

theorem Kept.flag_eq {s t : State} {f : Fld} {i j : Nat} (h : Kept s t (f.off i j)) : t.flag f i j = s.flag f i j := by
  rw [State.flag, State.flag, h.fld_eq]

theorem kept_of_regs_eq {s t : State} (h : t.regs = s.regs) (off : Nat) : Kept s t off := fun d => by rw [h]

theorem kept_forEach {α : Type} {off : Nat} {f : α → State → State} (h : ∀ x s, Kept s (f x s) off) (xs : List α)
    (s : State) : Kept s (forEach xs f s) off := by
  induction xs generalizing s with
  | nil => exact .refl s off
  | cons x xs ih => exact (h x s).trans (ih (f x s))

theorem kept_forN {off : Nat} {f : Nat → State → State} (h : ∀ k s, Kept s (f k s) off) (n : Nat) (s : State) :
    Kept s (forN n f s) off := kept_forEach h (List.range n) s

theorem State.wr_kept (s : State) {r : RegId} {i j off : Nat} (v : Word) (h : off ≠ r.addr i j) : Kept s (s.wr r v i j) off :=
  fun d => s.regs_wr_other v d h

theorem State.put_kept (s : State) (f : Fld) {i j off : Nat} (x : Nat) (h : off ≠ f.off i j) : Kept s (s.put f x i j) off :=
  s.wr_kept _ h

/-! ## Nothing but registers changes -/

theorem RegsOnly.refl (s : State) (offs : List Nat) : RegsOnly s s offs := ⟨rfl, fun off _ => .refl s off⟩

theorem RegsOnly.trans {s t u : State} {xs : List Nat} (h : RegsOnly s t xs) (k : RegsOnly t u xs) : RegsOnly s u xs :=
  ⟨k.1.trans (congrArg (fun x : State => { x with regs := u.regs }) h.1), fun off ho => (h.2 off ho).trans (k.2 off ho)⟩

theorem RegsOnly.mono {s t : State} {xs ys : List Nat} (h : RegsOnly s t xs) (hs : xs ⊆ ys) : RegsOnly s t ys :=
  ⟨h.1, fun off ho => h.2 off fun hx => ho (hs hx)⟩

theorem State.wr_regsOnly (s : State) (r : RegId) (v : Word) (i j : Nat) : RegsOnly s (s.wr r v i j) [r.addr i j] :=
  ⟨rfl, fun _ ho => s.wr_kept v (by simpa using ho)⟩

theorem State.put_regsOnly (s : State) (f : Fld) (x i j : Nat) : RegsOnly s (s.put f x i j) [f.off i j] := s.wr_regsOnly ..

/-! ## Fields apart -/

/-- A field of a register word: its bits are in order and among the 32 of the word. -/
abbrev Fld.InWord (f : Fld) : Prop := f.lo ≤ f.hi ∧ f.hi < 32

/-- Field `f` of register number `i` and field `g` of register number `k` share no bit: their registers lie apart, or they
are other bits of the same one. -/
abbrev Fld.Apart (f : Fld) (i : Nat) (g : Fld) (k : Nat) : Prop :=
  f.off i ≠ g.off k ∨ (f.reg = g.reg ∧ i = k ∧ (f.hi < g.lo ∨ g.hi < f.lo))

theorem Fld.Apart.symm {f g : Fld} {i k : Nat} (h : f.Apart i g k) : g.Apart k f i := by
  rcases h with h | ⟨hr, hi, hb⟩
  · exact .inl h.symm
  · exact .inr ⟨hr.symm, hi.symm, hb.symm⟩

/-- A field that shares no bit with the one written reads as before. -/
theorem State.fld_put_of_apart (s : State) {f g : Fld} {i k : Nat} (x : Nat) (hf : f.InWord) (hg : g.InWord)
    (h : f.Apart i g k) : (s.put f x i).fld g k = s.fld g k := by
  rcases h with h | ⟨hr, rfl, hb⟩
  · exact s.fld_put_other x h.symm
  · exact s.fld_put_apart x i 0 hr.symm hf.1 hf.2 hg.1 hb

/-! ## Fields loaded one after another -/

theorem State.putAll_regsOnly (xs : List (Fld × Nat × Nat)) (s : State) :
    RegsOnly s (s.putAll xs) (xs.map (fun l => l.1.off l.2.1)) := by
  induction xs generalizing s with
  | nil => exact .refl s _
  | cons l xs ih =>
    exact ((s.put_regsOnly l.1 l.2.2 l.2.1 0).mono (by simp)).trans ((ih _).mono (List.subset_cons_self _ _))

theorem State.fld_putAll_of_apart {xs : List (Fld × Nat × Nat)} {g : Fld} {k : Nat} (hg : g.InWord) (s : State)
    (h : ∀ l ∈ xs, l.1.InWord ∧ l.1.Apart l.2.1 g k) : (s.putAll xs).fld g k = s.fld g k := by
  induction xs generalizing s with
  | nil => rfl
  | cons l xs ih =>
    obtain ⟨hw, ha⟩ := h l List.mem_cons_self
    rw [State.putAll, ih _ fun m hm => h m (List.mem_cons_of_mem _ hm), s.fld_put_of_apart _ hw hg ha]

/-- Every field of a list that share no bits reads its value once the list is loaded. -/
theorem State.fld_putAll_of_mem {xs : List (Fld × Nat × Nat)} (s : State)
    (hw : ∀ l ∈ xs, l.1.InWord ∧ l.2.2 < 2 ^ (l.1.hi + 1 - l.1.lo))
    (hp : xs.Pairwise fun l m => m.1.Apart m.2.1 l.1 l.2.1) : ∀ l ∈ xs, (s.putAll xs).fld l.1 l.2.1 = l.2.2 := by
  induction xs generalizing s with
  | nil => exact fun l hl => absurd hl List.not_mem_nil
  | cons m xs ih =>
    obtain ⟨hm, hp⟩ := List.pairwise_cons.mp hp
    obtain ⟨⟨hmw, hml⟩, hw⟩ := List.forall_mem_cons.mp hw
    refine List.forall_mem_cons.mpr ⟨?_, ih _ hw hp⟩
    rw [State.putAll, State.fld_putAll_of_apart hmw _ fun l hl => ⟨(hw l hl).1, hm l hl⟩,
      s.fld_put_same m.1 m.2.2 m.2.1 0 hmw.1 hmw.2, Nat.mod_eq_of_lt hml]

/-- A fold whose steps all leave its start as it is ends there. -/
theorem foldl_eq_start {α β : Type} {f : α → β → α} {a : α} {xs : List β} (h : ∀ x ∈ xs, f a x = a) : xs.foldl f a = a := by
  induction xs with
  | nil => rfl
  | cons x xs ih => rw [List.foldl_cons, h x List.mem_cons_self, ih fun y hy => h y (List.mem_cons_of_mem _ hy)]

/-! ## Accesses -/

/-- An access that reaches its register has its effect on the state it reaches. -/
theorem State.reach_of_reaches {s u : State} {src : Src} {r : RegId} {i : Nat} (h : Reaches s src r i u) (f : State → State) :
    s.reach src r i f = f u := by
  have h : s.access src r i = some u := h
  rw [State.reach, h]

theorem State.reach_of_misses {s : State} {src : Src} {r : RegId} {i : Nat} (h : Misses s src r i) (f : State → State) :
    s.reach src r i f = s := by
  have h : s.access src r i = none := h
  rw [State.reach, h]

/-- The register found at an offset has the number found with it. -/
theorem findIn_bounds {rs : List RegId} {off : Nat} {r : RegId} {i j : Nat} (h : findIn rs off = some (r, i, j)) :
    i < r.loc.n0 ∧ j < r.loc.n1 := by
  induction rs with
  | nil => cases h
  | cons q qs ih =>
    rw [findIn] at h
    cases hq : q.at? off with
    | none => rw [hq] at h; exact ih h
    | some p =>
      rw [hq] at h
      cases h
      simp only [RegId.at?] at hq
      split at hq
      · cases hq
      · split at hq
        · next hb => cases hq; exact ⟨hb.1, hb.2.1⟩
        · cases hq

theorem regAt_bounds {off : Nat} {r : RegId} {i j : Nat} (h : regAt off = some (r, i, j)) : i < r.loc.n0 ∧ j < r.loc.n1 :=
  findIn_bounds h

end Sys2Proof.Machine
end

section
/-! PROOF. The basic controls (R10): a setting's table, and what a write of its control leaves. -/

namespace Sys2Proof.Machine

theorem Ctl.mem_all (c : Ctl) : c ∈ Ctl.all := by cases c <;> decide

theorem Ctl.basic_inWord (c : Ctl) : c.basic.InWord := by cases c <;> decide
theorem Ctl.held_inWord (c : Ctl) : c.held.InWord := by cases c <;> decide

/-- A held bit is one bit. -/
theorem Ctl.held_oneBit (c : Ctl) : c.held.hi = c.held.lo := by cases c <;> rfl

theorem Ctl.held_count (c : Ctl) : c.held.reg.loc.n0 = c.basic.reg.loc.n0 := by cases c <;> rfl

/-- The number of values of a function's basic control. -/
abbrev Ctl.settings (c : Ctl) : Nat := 2 ^ (c.basic.hi + 1 - c.basic.lo)

/-- The table of the setting that value `b` selects can be loaded as it stands: each of its fields takes its value, and
none shares a bit with another, with the basic control or with EXPERT_HELD, nor do those two with each other. -/
abbrev Ctl.Loadable (c : Ctl) (i b : Nat) : Prop :=
  c.held.Apart i c.basic i ∧
  (∀ l ∈ c.loads i (c.acts b), l.1.InWord ∧ l.2.2 < 2 ^ (l.1.hi + 1 - l.1.lo)) ∧
  (∀ l ∈ c.loads i (c.acts b), l.1.Apart l.2.1 c.basic i ∧ l.1.Apart l.2.1 c.held i) ∧
  (c.loads i (c.acts b)).Pairwise (fun l m => m.1.Apart m.2.1 l.1 l.2.1)

/-- Every setting's table can be loaded into every unit that has the function. -/
def Ctl.allLoadable (c : Ctl) : Bool :=
  (List.range c.basic.reg.loc.n0).all fun i => (List.range c.settings).all fun b => decide (c.Loadable i b)

/-- Every function's tables, as the register map places their fields: a finite check of the tables. -/
theorem Ctl.allLoadable_table : Ctl.all.all Ctl.allLoadable = true := by decide +kernel

theorem Ctl.loadable (c : Ctl) {i b : Nat} (hi : i < c.basic.reg.loc.n0) (hb : b < c.settings) : c.Loadable i b := by
  have hc := List.all_eq_true.mp Ctl.allLoadable_table c c.mem_all
  have hu := List.all_eq_true.mp hc i (List.mem_range.mpr hi)
  exact of_decide_eq_true (List.all_eq_true.mp hu b (List.mem_range.mpr hb))

theorem Ctl.held_apart_basic (c : Ctl) {i : Nat} (hi : i < c.basic.reg.loc.n0) : c.held.Apart i c.basic i :=
  (c.loadable hi (Nat.two_pow_pos _)).1

theorem State.flag_put_held (s : State) (c : Ctl) (i x : Nat) : (s.put c.held x i).flag c.held i = (x % 2 == 1) := by
  rw [State.flag, s.fld_put_same _ _ _ _ c.held_inWord.1 c.held_inWord.2, c.held_oneBit, Nat.add_sub_cancel_left, Nat.pow_one]

/-- R10: the control holds the value written, its setting's table is loaded and EXPERT_HELD reads 0. -/
theorem State.writeBasic_loadsSetting (u : State) (c : Ctl) {i : Nat} (v : Word) (hi : i < c.basic.reg.loc.n0) :
    LoadsSetting c i v u (u.writeBasic c i v) := by
  obtain ⟨hheld, hin, hout, hpair⟩ := c.loadable hi (bits_lt v.toNat c.basic.hi c.basic.lo)
  have hread : (u.put c.basic (bits v.toNat c.basic.hi c.basic.lo) i).fld c.basic i = bits v.toNat c.basic.hi c.basic.lo := by
    rw [u.fld_put_same _ _ _ _ c.basic_inWord.1 c.basic_inWord.2, Nat.mod_eq_of_lt (bits_lt ..)]
  unfold State.writeBasic State.reload
  rw [hread]
  refine ⟨?_, fun l hl => ?_, State.flag_put_held .., ?_⟩
  · rw [State.fld_put_of_apart _ _ c.held_inWord c.basic_inWord hheld,
      State.fld_putAll_of_apart c.basic_inWord _ fun l hl => ⟨(hin l hl).1, (hout l hl).1⟩, hread]
  · rw [State.fld_put_of_apart _ _ c.held_inWord (hin l hl).1 (hout l hl).2.symm, State.fld_putAll_of_mem _ hin hpair l hl]
  · refine (((u.put_regsOnly ..).mono ?_).trans ((State.putAll_regsOnly ..).mono ?_)).trans ((State.put_regsOnly ..).mono ?_)
    · simp
    · exact fun o ho => List.mem_cons_of_mem _ (List.mem_cons_of_mem _ ho)
    · simp

/-- The functions whose basic control has access S stand once in the device. -/
theorem Ctl.guarded_unit {c : Ctl} {i : Nat} (hg : c.guarded = true) (hi : i < c.basic.reg.loc.n0) : i = 0 := by
  have h1 : ∀ c ∈ Ctl.all, c.guarded = true → c.basic.reg.loc.n0 = 1 := by decide
  have := h1 c c.mem_all hg
  omega

/-- The write of a basic control, by the access of its field. -/
def State.controlWrite (s : State) (src : Src) (c : Ctl) (i : Nat) (v : Word) : State :=
  if c.guarded then s.basicWriteS src c v else s.basicWrite src c i v

theorem State.controlWrite_of_reaches {s u : State} {src : Src} {c : Ctl} {i : Nat} (v : Word) (hi : i < c.basic.reg.loc.n0)
    (hr : Reaches s src c.basic.reg i u) (hs : c.guarded = true → srcWorld src = .s) :
    s.controlWrite src c i v = u.writeBasic c i v := by
  unfold State.controlWrite
  split
  · next hg =>
    obtain rfl := Ctl.guarded_unit hg hi
    rw [State.basicWriteS, State.reach_of_reaches hr, hs hg]
  · rw [State.basicWrite, State.reach_of_reaches hr]

theorem State.controlWrite_of_misses {s : State} {src : Src} {c : Ctl} {i : Nat} (v : Word) (hi : i < c.basic.reg.loc.n0)
    (hm : Misses s src c.basic.reg i) : s.controlWrite src c i v = s := by
  unfold State.controlWrite
  split
  · next hg =>
    obtain rfl := Ctl.guarded_unit hg hi
    exact State.reach_of_misses hm _
  · exact State.reach_of_misses hm _

section
variable (src : Src) (e : Fin 32) (n : Fin 16) (m : Fin 4) (k h : Fin 8) (p : Proc) (v : Word)

/-- Every basic-control command is the write of its function's control. -/
theorem exec_basicRows (s : State) :
    ∀ row ∈ basicRows src e n m k h p v, exec row.1 s = .next (s.controlWrite src row.2.1 row.2.2 v) := by
  simp only [basicRows, List.forall_mem_cons, List.not_mem_nil, false_implies, implies_true, and_true]
  and_intros <;> rfl

theorem procNum_lt (p : Proc) : procNum p < 5 := by cases p <;> decide

/-- Every basic-control command names a unit that has its function. -/
theorem basicRows_unit : ∀ row ∈ basicRows src e n m k h p v, row.2.2 < row.2.1.basic.reg.loc.n0 := by
  simp only [basicRows, List.forall_mem_cons, List.not_mem_nil, false_implies, implies_true, and_true]
  exact ⟨e.isLt, e.isLt, e.isLt, n.isLt, Nat.one_pos, n.isLt, Nat.one_pos, Nat.one_pos, m.isLt, k.isLt, m.isLt, h.isLt, k.isLt,
    m.isLt, Nat.one_pos, Nat.one_pos, Nat.one_pos, Nat.one_pos, Nat.one_pos, Nat.one_pos, Nat.one_pos, Nat.one_pos, Nat.one_pos,
    Nat.one_pos, Nat.one_pos, procNum_lt p, Nat.one_pos, Nat.one_pos, Nat.one_pos, Nat.one_pos⟩

end

/-- Settles O1: every setting's table can be loaded as it stands, so the write of a control leaves all of it in force. -/
theorem basicWriteLoadsSetting : Obligations.BasicWriteLoadsSetting := by
  intro src e n m k h p v s row hrow
  have hi := basicRows_unit src e n m k h p v row hrow
  rw [exec_basicRows src e n m k h p v s row hrow]
  refine ⟨fun u hr hs => ⟨u.writeBasic row.2.1 row.2.2 v, ?_, u.writeBasic_loadsSetting row.2.1 v hi⟩, fun hm => ?_⟩
  · rw [State.controlWrite_of_reaches v hi hr hs]
  · rw [State.controlWrite_of_misses v hi hm]

end Sys2Proof.Machine
end

section
/-! PROOF. The access codes of Table 0.2, field by field, and the writes of registers that only hold data (R5, R6). -/

namespace Sys2Proof.Machine

/-! ## Bits -/

theorem bit_eq_testBit (v n : Nat) : bit v n = v.testBit n := by
  rw [Bool.eq_iff_iff, bit, Nat.testBit_eq_decide_div_mod_eq, beq_iff_eq, decide_eq_true_iff]

theorem bit_mod_two_pow {v n k : Nat} (h : k < n) : bit (v % 2 ^ n) k = bit v k := by
  simp [bit_eq_testBit, Nat.testBit_mod_two_pow, h]

/-- A bit of a value, seen in the field `[h:l]` that holds it. -/
theorem bit_eq_bit_bits {v h l b : Nat} (hl : l ≤ b) (hh : b ≤ h) : bit v b = bit (bits v h l) (b - l) := by
  rw [bits, bit_mod_two_pow (by omega), bit_eq_testBit, bit_eq_testBit, Nat.testBit_div_two_pow, Nat.sub_add_cancel hl]

theorem bit_eq_bits (v n : Nat) : bit v n = (bits v n n == 1) := by simp [bit, bits]

/-- Clearing a bit is writing 0 to it as a field. -/
theorem clrBit_eq_putBits (v n : Nat) : clrBit v n = putBits v n n 0 := by
  have hs := Nat.mod_pow_succ (b := 2) (k := n) (x := v)
  have hd := Nat.div_add_mod v (2 ^ (n + 1))
  rw [Nat.mul_comm] at hd
  simp only [clrBit, bit, putBits, Nat.zero_mod, Nat.zero_mul, Nat.add_zero, beq_iff_eq]
  rcases Nat.mod_two_eq_zero_or_one (v / 2 ^ n) with h | h
  · rw [if_neg (by omega)]
    rw [h] at hs
    omega
  · rw [if_pos h]
    rw [h] at hs
    omega

theorem bit_clrBit (v n k : Nat) : bit (clrBit v n) k = (bit v k && k != n) := by
  rw [clrBit_eq_putBits, bit_eq_bits, bit_eq_bits v k]
  rcases Nat.lt_trichotomy n k with h | rfl | h
  · rw [bits_putBits_above _ _ _ _ _ _ (Nat.le_refl n) h]; simp [Nat.ne_of_gt h]
  · rw [bits_putBits_same _ _ _ _ (Nat.le_refl n)]; simp
  · rw [bits_putBits_below _ _ _ _ _ _ (Nat.le_refl n) (Nat.le_refl k) h]; simp [Nat.ne_of_lt h]

/-- Writing 1 to a field of access W1C clears the bits written 1 and no other. -/
theorem bit_clearOnes (new old k n : Nat) :
    bit ((List.range n).foldl (fun o k => if bit new k then clrBit o k else o) old) k =
      (bit old k && !(decide (k < n) && bit new k)) := by
  induction n with
  | zero => simp
  | succ n ih =>
    rw [List.range_succ, List.foldl_append, List.foldl_cons, List.foldl_nil]
    by_cases hn : bit new n = true
    · rw [if_pos hn, bit_clrBit, ih]
      rcases Nat.lt_trichotomy k n with h | rfl | h
      · simp [h, Nat.lt_succ_of_lt h, Nat.ne_of_lt h]
      · simp [hn]
      · simp [Nat.lt_asymm h, Nat.ne_of_gt h, show ¬ k < n + 1 by omega]
    · rw [if_neg hn, ih]
      rcases Nat.lt_trichotomy k n with h | rfl | h
      · simp [h, Nat.lt_succ_of_lt h]
      · simp [hn]
      · simp [Nat.lt_asymm h, show ¬ k < n + 1 by omega]

/-! ## One field under its access code -/

/-- What a write of `v` makes of one field of the word `w`, by its access code. -/
def FieldDef.written (f : FieldDef) (sec : Bool) (v w : Nat) : Nat :=
  match f.acc with
  | .ro => bits w f.hi f.lo
  | .rw => bits v f.hi f.lo
  | .w1c =>
    (List.range (f.hi + 1 - f.lo)).foldl (fun o k => if bit (bits v f.hi f.lo) k then clrBit o k else o) (bits w f.hi f.lo)
  | .wo => bits w f.hi f.lo
  | .sec => if sec then bits v f.hi f.lo else bits w f.hi f.lo

theorem writeFields_cons (sec : Bool) (v : Nat) (f : FieldDef) (fs : List FieldDef) (w : Nat) :
    writeFields sec v (f :: fs) w = writeFields sec v fs (putBits w f.hi f.lo (f.written sec v w)) := rfl

/-- What a write makes of a field is seen in the field's own bits, before and after. -/
theorem FieldWritten.of_bits_eq {a : Acc} {sec : Bool} {l h old old' v new new' : Nat}
    (hf : FieldWritten a sec l h old v new) (ho : bits old' h l = bits old h l) (hn : bits new' h l = bits new h l) :
    FieldWritten a sec l h old' v new' := by
  cases a with
  | w1c =>
    intro b hl hh
    rw [bit_eq_bit_bits hl hh, hn, ← bit_eq_bit_bits hl hh, hf b hl hh, bit_eq_bit_bits (v := old) hl hh, ← ho,
      ← bit_eq_bit_bits hl hh]
  | _ => simpa only [FieldWritten, ho, hn] using hf

theorem FieldDef.written_lt_of_ne_w1c {f : FieldDef} (h : f.acc ≠ .w1c) (sec : Bool) (v w : Nat) :
    f.written sec v w < 2 ^ (f.hi + 1 - f.lo) := by
  rw [FieldDef.written]
  split
  case h_3 hw => exact absurd hw h
  case h_5 => split <;> exact bits_lt ..
  all_goals exact bits_lt ..

/-- A field takes what its access code makes of it. -/
theorem FieldDef.fieldWritten_putBits (f : FieldDef) (hl : f.lo ≤ f.hi) (hwo : f.acc ≠ .wo) (sec : Bool) (v w : Nat) :
    FieldWritten f.acc sec f.lo f.hi w v (putBits w f.hi f.lo (f.written sec v w)) := by
  have hsame := bits_putBits_same w f.hi f.lo (f.written sec v w) hl
  by_cases h1 : f.acc = .w1c
  · rw [h1]
    intro b hb hh
    rw [bit_eq_bit_bits hb hh, hsame, bit_mod_two_pow (by omega), FieldDef.written, h1, bit_clearOnes,
      ← bit_eq_bit_bits hb hh, ← bit_eq_bit_bits hb hh, decide_eq_true (by omega), Bool.true_and]
  · rw [Nat.mod_eq_of_lt (f.written_lt_of_ne_w1c h1 sec v w)] at hsame
    cases ha : f.acc with
    | w1c => exact absurd ha h1
    | wo => exact absurd ha hwo
    | ro | rw | sec => simpa only [FieldWritten, FieldDef.written, ha] using hsame

/-! ## The fields of a register -/

/-- The fields of a register share no bit, and lie in its word. -/
abbrev FieldsApart (fs : List FieldDef) : Prop :=
  (∀ f ∈ fs, f.lo ≤ f.hi ∧ f.hi < 32) ∧ fs.Pairwise (fun f g => f.hi < g.lo ∨ g.hi < f.lo)

theorem FieldsApart.of_cons {f : FieldDef} {fs : List FieldDef} (h : FieldsApart (f :: fs)) :
    (f.lo ≤ f.hi ∧ f.hi < 32) ∧ (∀ g ∈ fs, f.hi < g.lo ∨ g.hi < f.lo) ∧ FieldsApart fs := by
  obtain ⟨hw, hp⟩ := h
  obtain ⟨hf, hw⟩ := List.forall_mem_cons.mp hw
  obtain ⟨ha, hp⟩ := List.pairwise_cons.mp hp
  exact ⟨hf, ha, hw, hp⟩

theorem bits_putBits_of_apart {w h l h' l' : Nat} (x : Nat) (hl : l ≤ h) (hl' : l' ≤ h') (ha : h < l' ∨ h' < l) :
    bits (putBits w h l x) h' l' = bits w h' l' := by
  rcases ha with ha | ha
  · exact bits_putBits_above _ _ _ _ _ _ hl ha
  · exact bits_putBits_below _ _ _ _ _ _ hl hl' ha

variable (sec : Bool) (v : Nat)

theorem bits_writeFields_of_apart {fs : List FieldDef} {h l : Nat} (hl : l ≤ h) (hw : ∀ f ∈ fs, f.lo ≤ f.hi)
    (ha : ∀ f ∈ fs, h < f.lo ∨ f.hi < l) (w : Nat) : bits (writeFields sec v fs w) h l = bits w h l := by
  induction fs generalizing w with
  | nil => rfl
  | cons f fs ih =>
    obtain ⟨hf, hw⟩ := List.forall_mem_cons.mp hw
    obtain ⟨hd, ha⟩ := List.forall_mem_cons.mp ha
    rw [writeFields_cons, ih hw ha, bits_putBits_of_apart _ hf hl hd.symm]

theorem writeFields_lt {fs : List FieldDef} (hw : ∀ f ∈ fs, f.lo ≤ f.hi ∧ f.hi < 32) {w : Nat} (h : w < 2 ^ 32) :
    writeFields sec v fs w < 2 ^ 32 := by
  induction fs generalizing w with
  | nil => exact h
  | cons f fs ih =>
    obtain ⟨hf, hw⟩ := List.forall_mem_cons.mp hw
    rw [writeFields_cons]
    exact ih hw (putBits_lt hf.1 hf.2 h)

/-- R6: each field of a register changes as its own access code says. -/
theorem fieldWritten_writeFields {fs : List FieldDef} (hfs : FieldsApart fs) (hwo : ∀ f ∈ fs, f.acc ≠ .wo) (w : Nat) :
    ∀ f ∈ fs, FieldWritten f.acc sec f.lo f.hi w v (writeFields sec v fs w) := by
  induction fs generalizing w with
  | nil => exact fun f hf => absurd hf List.not_mem_nil
  | cons g fs ih =>
    obtain ⟨hg, ha, hfs⟩ := hfs.of_cons
    obtain ⟨hgo, hwo⟩ := List.forall_mem_cons.mp hwo
    rw [writeFields_cons]
    refine List.forall_mem_cons.mpr ⟨?_, fun f hf => ?_⟩
    · exact (g.fieldWritten_putBits hg.1 hgo sec v w).of_bits_eq rfl
        (bits_writeFields_of_apart sec v hg.1 (fun f hf => (hfs.1 f hf).1) ha _)
    · exact (ih hfs hwo _ f hf).of_bits_eq (bits_putBits_of_apart _ hg.1 (hfs.1 f hf).1 (ha f hf)).symm rfl

/-- Without fields of access S a write is the same from both worlds. -/
theorem writeFields_of_no_sec {fs : List FieldDef} (hs : ∀ f ∈ fs, f.acc ≠ .sec) (sec' : Bool) (w : Nat) :
    writeFields sec v fs w = writeFields sec' v fs w := by
  induction fs generalizing w with
  | nil => rfl
  | cons f fs ih =>
    obtain ⟨hf, hs⟩ := List.forall_mem_cons.mp hs
    have hx : f.written sec v w = f.written sec' v w := by
      rw [FieldDef.written, FieldDef.written]
      cases ha : f.acc with
      | sec => exact absurd ha hf
      | ro | rw | w1c | wo => rfl
    rw [writeFields_cons, writeFields_cons, hx, ih hs]

end Sys2Proof.Machine
end

section
/-! PROOF. Register writes by offset (R5, R425, R569). -/

namespace Sys2Proof.Machine

variable (s : State) (src : Src) (r : RegId) (i j : Nat) (v : Word)

theorem State.plainWrite_regsOnly : RegsOnly s (s.plainWrite src r i j v) [r.addr i j] := s.wr_regsOnly ..

variable {r} in
theorem State.plainWrite_fields (hfs : FieldsApart r.fields) (hwo : ∀ fd ∈ r.fields, fd.acc ≠ .wo) :
    ∀ fd ∈ r.fields, FieldWritten fd.acc (srcWorld src == .s) fd.lo fd.hi (s.rd r i j).toNat v.toNat
      ((s.plainWrite src r i j v).rd r i j).toNat := by
  have hlt := writeFields_lt (srcWorld src == .s) v.toNat hfs.1 (s.rd r i j).isLt
  rw [State.plainWrite, State.rd_wr_same, BitVec.toNat_ofNat, Nat.mod_eq_of_lt hlt]
  exact fieldWritten_writeFields _ _ hfs hwo _

/-- A write under the access codes is the plain write where nothing guards the register: no violation arises. -/
theorem State.codeWrite_eq_plainWrite (h : srcWorld src = .s ∨ ∀ fd ∈ r.fields, fd.acc ≠ .sec) :
    s.codeWrite src r i j v = s.plainWrite src r i j v := by
  unfold State.codeWrite
  cases hw : srcWorld src with
  | s => rfl
  | n =>
    have hs := h.resolve_left (by rw [hw]; exact World.noConfusion)
    refine if_pos ?_
    rw [State.plainWrite, State.plainWrite, writeFields_of_no_sec _ _ hs (srcWorld src == .s)]

/-! ## Registers that only hold data -/

/-- A register that only holds data has fields that lie apart and none of access WO, clears no counter, and belongs to no
basic or expert control. -/
theorem plainRegs_facts : ∀ r ∈ plainRegs, FieldsApart r.fields ∧ (∀ fd ∈ r.fields, fd.acc ≠ .wo) ∧ clearedBy r = [] ∧
    ctlOfBasic r = none ∧ ctlOfExpert r = none ∧ ∀ c ∈ Ctl.all, c.held.reg ≠ r := by decide

/-- A register that only holds data has no rule of its own. -/
theorem State.actWrite_plainRegs : ∀ r ∈ plainRegs, s.actWrite src r i j v = none := by
  simp only [plainRegs, List.forall_mem_cons, List.not_mem_nil, false_implies, implies_true, and_true]
  and_intros <;> rfl

/-- A register that only holds data sets nothing going. -/
theorem State.afterWrite_plainRegs : ∀ r ∈ plainRegs, s.afterWrite r i = s := by
  simp only [plainRegs, List.forall_mem_cons, List.not_mem_nil, false_implies, implies_true, and_true]
  and_intros <;> rfl

variable {r}

theorem maskHeld_of_no_held (h : ∀ c ∈ Ctl.all, c.held.reg ≠ r) : maskHeld r v = v :=
  foldl_eq_start fun c hc => if_neg (h c hc)

theorem State.heldBits_of_no_held (h : ∀ c ∈ Ctl.all, c.held.reg ≠ r) : s.heldBits src r i v = s := by
  have hnil : Ctl.all.filter (fun c => c.held.reg == r && bit v.toNat c.held.lo) = [] :=
    List.filter_eq_nil_iff.mpr fun c hc => by simp [h c hc]
  rw [State.heldBits, hnil]
  rfl

/-- The write of a register that only holds data is the write of its fields. -/
theorem State.regWrite_plainRegs (h : r ∈ plainRegs) :
    s.regWrite src r i j v = .next (s.reach src r i (fun t => t.codeWrite src r i j v)) := by
  obtain ⟨-, -, hc, hb, he, hh⟩ := plainRegs_facts r h
  unfold State.regWrite
  rw [s.actWrite_plainRegs src i j v r h, hc, hb, he, maskHeld_of_no_held v hh]
  simp only [State.heldBits_of_no_held _ _ _ _ hh, State.afterWrite_plainRegs _ _ r h]
  rfl

theorem execRegisterWrite_plainRegs {off : Nat} {u : State} (ho : off % 4 = 0) (hat : regAt (devOffset src off) = some (r, i, j))
    (hp : r ∈ plainRegs) (hr : Reaches s src r i u) (hs : srcWorld src = .s ∨ ∀ fd ∈ r.fields, fd.acc ≠ .sec) :
    exec (.registerWrite src off v) s = .next (u.plainWrite src r i j v) := by
  change execRegisterWrite src off v s = _
  unfold execRegisterWrite
  rw [if_neg (not_not_intro ho), hat]
  change s.regWrite src r i j v = _
  rw [s.regWrite_plainRegs src i j v hp, State.reach_of_reaches hr, u.codeWrite_eq_plainWrite src r i j v hs]

theorem execRegisterWrite_no_register {f : Fin 64} {off : Nat} (ho : off % 4 = 0) (hat : regAt (devOffset (.fn f) off) = none) :
    exec (.registerWrite (.fn f) off v) s = .next s := by
  change execRegisterWrite (.fn f) off v s = _
  unfold execRegisterWrite
  rw [if_neg (not_not_intro ho), hat]

/-! ## Narrow writes (R5, R425) -/

/-- The report of a narrow host write in HIF_ERR and HIF_ERR_ADDR. -/
def State.narrowSeen (off : Nat) : State := (s.put F.HIF_ERR_NARROW 1).put F.HIF_ERR_ADDR_OFFSET off

theorem State.bit_put_outside {f : Fld} (x i j : Nat) (hf : f.InWord) {b : Nat} (hb : b < f.lo ∨ f.hi < b) :
    bit ((s.put f x i j).rd f.reg i j).toNat b = bit (s.rd f.reg i j).toNat b := by
  rw [bit_eq_bits, bit_eq_bits (s.rd f.reg i j).toNat, s.rd_put_same f x i j hf.1 hf.2,
    bits_putBits_of_apart x hf.1 (Nat.le_refl b) hb.symm]

theorem State.narrowSeen_regsOnly (off : Nat) :
    RegsOnly s (s.narrowSeen off) [RegId.HIF_ERR.addr 0 0, RegId.HIF_ERR_ADDR.addr 0 0] :=
  ((s.put_regsOnly F.HIF_ERR_NARROW ..).mono (by simp [Fld.off, F.HIF_ERR_NARROW])).trans
    ((State.put_regsOnly _ F.HIF_ERR_ADDR_OFFSET ..).mono (by simp [Fld.off, F.HIF_ERR_ADDR_OFFSET]))

/-- HIF_ERR is as its NARROW bit was set: HIF_ERR_ADDR is another register. -/
theorem State.narrowSeen_rd_err (off : Nat) : (s.narrowSeen off).rd .HIF_ERR = (s.put F.HIF_ERR_NARROW 1).rd .HIF_ERR :=
  (State.put_kept _ F.HIF_ERR_ADDR_OFFSET off (by decide)).rd_eq

theorem State.narrowSeen_flag (off : Nat) : (s.narrowSeen off).flag F.HIF_ERR_NARROW = true := by
  have h : (s.narrowSeen off).fld F.HIF_ERR_NARROW = (s.put F.HIF_ERR_NARROW 1).fld F.HIF_ERR_NARROW :=
    congrArg (fun w : Word => bits w.toNat 0 0) (s.narrowSeen_rd_err off)
  rw [State.flag, h, s.fld_put_same _ _ _ _ (by decide) (by decide)]
  decide

theorem State.narrowSeen_bitsKept (off : Nat) : BitsKept s (s.narrowSeen off) F.HIF_ERR_NARROW := fun b hb => by
  have h : (s.narrowSeen off).rd F.HIF_ERR_NARROW.reg = (s.put F.HIF_ERR_NARROW 1).rd F.HIF_ERR_NARROW.reg :=
    s.narrowSeen_rd_err off
  rw [h, s.bit_put_outside (f := F.HIF_ERR_NARROW) 1 0 0 (by decide) hb]

theorem State.narrowSeen_offset (off : Nat) : (s.narrowSeen off).fld F.HIF_ERR_ADDR_OFFSET = off % 67108864 :=
  State.fld_put_same _ _ _ _ _ (by decide) (by decide)

/-- Without active admin queues the narrow write is reported in registers alone. -/
theorem State.narrowSeen_postAdmin {f : Nat} (off code q step : Nat) (d : List Nat) (h : s.flag F.HIF_FN_ST_ADM_ACT f = false) :
    (s.narrowSeen off).postAdmin f code q step d = s.narrowSeen off := by
  have hk : Kept s (s.narrowSeen off) (F.HIF_FN_ST_ADM_ACT.off f) :=
    (s.narrowSeen_regsOnly off).2 _ (by simp [Fld.off, F.HIF_FN_ST_ADM_ACT, RegId.addr, RegId.loc]; omega)
  rw [State.postAdmin, hk.flag_eq, h]
  rfl

theorem execNarrowWrite_of_inReset (off : Nat) (h : s.inReset = true) : execNarrowWrite src off s = .next s := if_pos h

theorem execNarrowWrite_fw (off : Nat) (h : srcIsHost src = false) : execNarrowWrite src off s = .next s := by
  cases src with
  | fn f => cases h
  | fw p b => unfold execNarrowWrite; split <;> rfl

theorem execNarrowWrite_fn (f : Fin 64) (off : Nat) (h : s.inReset = false) :
    execNarrowWrite (.fn f) off s = .next ((s.narrowSeen off).postAdmin f.val 0x0B srcDevice 0 [f.val, off]) := by
  unfold execNarrowWrite
  rw [h]
  rfl

/-- A write of a word at an offset that is not a multiple of 4 is a narrow write. -/
theorem exec_eq_narrowWrite (off : Nat) : ∀ c ∈ [Instr.narrowWrite src off, Instr.registerWrite src off v],
    (c = .registerWrite src off v → off % 4 ≠ 0) → exec c s = execNarrowWrite src off s := by
  simp only [List.forall_mem_cons, List.not_mem_nil, false_implies, implies_true, and_true]
  exact ⟨fun _ => rfl, fun h => if_pos (h trivial)⟩

/-- Settles O4: field by field for the registers that only hold data, and by the report that a narrow write leaves. -/
theorem registerWritesActByAccessCodeAndWidth : Obligations.RegisterWritesActByAccessCodeAndWidth := by
  refine ⟨⟨fun src off v r i j s u ho hat hp hr hs => ?_, fun f off v s ho hat => execRegisterWrite_no_register s v ho hat⟩,
    fun src off v s c hc hoff => ?_⟩
  · obtain ⟨hfs, hwo, -⟩ := plainRegs_facts r hp
    exact ⟨_, execRegisterWrite_plainRegs s src i j v ho hat hp hr hs, u.plainWrite_fields src i j v hfs hwo,
      u.plainWrite_regsOnly src r i j v⟩
  · rw [exec_eq_narrowWrite s src v off c hc hoff]
    refine ⟨fun h => ?_, ?_⟩
    · rcases h with h | h
      · exact execNarrowWrite_of_inReset s src off h
      · exact execNarrowWrite_fw s src off h
    · rintro f rfl hup
      refine ⟨s.narrowSeen off, s.narrowSeen_regsOnly off, s.narrowSeen_flag off, s.narrowSeen_bitsKept off,
        s.narrowSeen_offset off, execNarrowWrite_fn s f off hup, fun hadm => ?_⟩
      rw [execNarrowWrite_fn s f off hup, s.narrowSeen_postAdmin off _ _ _ _ hadm]

end Sys2Proof.Machine
end

section
/-! PROOF. What the limit keeper's view of its registers leaves alone (R497, R503): the first registers of BC_. -/

namespace Sys2Proof.Machine

variable (s : State) {off : Nat}

theorem State.evgTopView_kept (p : Nat) (h : off < 0x8000) : Kept s (s.evgTopView p) off := by
  have hr : off ≠ RegId.EVG_TOP.addr p 0 := by simp only [RegId.addr, RegId.loc]; omega
  have hput : ∀ x y z, Kept s (((s.put F.EVG_TOP_SRC x p).put F.EVG_TOP_PRIO y p).put F.EVG_TOP_COUNT z p) off := fun x y z =>
    ((s.put_kept F.EVG_TOP_SRC x hr).trans (State.put_kept _ F.EVG_TOP_PRIO y hr)).trans (State.put_kept _ F.EVG_TOP_COUNT z hr)
  unfold State.evgTopView
  cases s.evgTop p with
  | none => exact hput _ _ _
  | some t => exact hput _ _ _

theorem State.fire_kept (p src : Nat) (h : off < 0x8000) : Kept s (s.fire p src) off := by
  have hr : off ≠ RegId.EVG_PEND.addr p (src / 32) := by simp only [RegId.addr, RegId.loc]; omega
  unfold State.fire
  split
  · exact ((s.put_kept ⟨.EVG_PEND, src % 32, src % 32⟩ 1 hr).trans (kept_of_regs_eq rfl off)).trans (State.evgTopView_kept _ p h)
  · exact .refl s off

theorem State.fireIf_kept (old : State) (f : Fld) (src : Nat) (h : off < 0x8000) : Kept s (s.fireIf old f src) off := by
  unfold State.fireIf
  split
  · exact .refl s off
  · exact s.fire_kept 0 src h

theorem State.ibiView_kept : Kept s s.ibiView off := by
  unfold State.ibiView
  split
  · exact kept_of_regs_eq rfl off
  · exact .refl s off

theorem State.lk_kept (x : LimitSt) : Kept s { s with lk := x } off := kept_of_regs_eq rfl off

theorem State.emergView_kept (h : off < 0x20) : Kept s s.emergView off := by
  have hr : off ≠ F.BC_FW_ST_EMERG.off := by simp only [Fld.off, F.BC_FW_ST_EMERG, RegId.addr, RegId.loc]; omega
  have hf : ∀ src p (u : State), Kept u (u.fire p src) off := fun src p u => u.fire_kept p src (by omega)
  unfold State.emergView
  dsimp only
  split
  · exact .refl s off
  · split
    · exact (s.put_kept F.BC_FW_ST_EMERG 1 hr).trans (kept_forN (hf 112) 5 _)
    · exact ((s.put_kept F.BC_FW_ST_EMERG 0 hr).trans (kept_forN (hf 113) 5 _)).trans (State.lk_kept _ _)

theorem State.vfView_kept (k : Nat) (h : off < 0x20) : Kept s (s.vfView k) off := by
  have hc : off ≠ RegId.BC_CL.addr k 0 := by simp only [RegId.addr, RegId.loc]; omega
  have hf : off ≠ RegId.BC_CL_F.addr k 0 := by simp only [RegId.addr, RegId.loc]; omega
  unfold State.vfView
  exact ((((s.put_kept F.BC_CL_CEIL _ hc).trans (State.put_kept _ F.BC_CL_EFF _ hc)).trans
    (State.put_kept _ F.BC_CL_DIV _ hc)).trans (State.put_kept _ F.BC_CL_F_FREQ_MHZ _ hf)).trans
    (State.put_kept _ F.BC_CL_F_VOLT_MV _ hf)

/-- The limit keeper's view writes BC_LK_ST, the clusters' registers, BC_FW_ST and the gatherers, none of which is one of
the first eight registers. -/
theorem State.lkView_kept (h : off < 0x20) : Kept s s.lkView off := by
  have hl : off ≠ RegId.BC_LK_ST.addr 0 0 := by simp only [RegId.addr, RegId.loc]; omega
  have hg : off < 0x8000 := by omega
  unfold State.lkView
  dsimp only
  refine Kept.trans ?_ (State.ibiView_kept _)
  refine Kept.trans ?_ (State.emergView_kept _ h)
  refine Kept.trans ?_ (State.fireIf_kept _ s F.BC_LK_ST_PWRBRK 139 hg)
  refine Kept.trans ?_ (State.fireIf_kept _ s F.BC_LK_ST_OC 138 hg)
  refine Kept.trans ?_ (State.fireIf_kept _ s F.BC_LK_ST_THROT 137 hg)
  refine Kept.trans ?_ (State.put_kept _ F.BC_LK_ST_PWRBRK _ hl)
  refine Kept.trans ?_ (State.put_kept _ F.BC_LK_ST_PCAP _ hl)
  refine Kept.trans ?_ (State.put_kept _ F.BC_LK_ST_OC _ hl)
  refine Kept.trans ?_ (State.put_kept _ F.BC_LK_ST_THROT _ hl)
  exact kept_forN (fun k u => u.vfView_kept k h) 8 s

theorem State.vfCheck_kept (h : off < 0x18) : Kept s s.vfCheck off := by
  unfold State.vfCheck
  dsimp only
  split
  · exact s.put_kept F.BC_PWR_ST_VF_BAD 1 (by simp only [Fld.off, F.BC_PWR_ST_VF_BAD, RegId.addr, RegId.loc]; omega)
  · exact .refl s off

end Sys2Proof.Machine
end

section
/-! PROOF. Expert registers and EXPERT_HELD (R11, R12). -/

namespace Sys2Proof.Machine

theorem firstWhere_some {α : Type} {p : α → Bool} {xs : List α} {x : α} (h : firstWhere p xs = some x) : p x = true := by
  induction xs with
  | nil => cases h
  | cons y ys ih =>
    rw [firstWhere] at h
    split at h
    · next hy => cases h; exact hy
    · exact ih h

theorem mem_experts_of_ctlOfExpert {r : RegId} {c : Ctl} (h : ctlOfExpert r = some c) : r ∈ c.experts :=
  List.contains_iff_mem.mp (firstWhere_some (p := fun c : Ctl => c.experts.contains r) h)

theorem held_of_ctlOfHeld {r : RegId} {b : Nat} {c : Ctl} (h : ctlOfHeld r b = some c) : c.held.reg = r := by
  have := firstWhere_some h
  simp only [Bool.and_eq_true, beq_iff_eq] at this
  exact this.1

/-- Only the power profile and the lantern mask set anything going when their expert registers are written. -/
theorem State.afterWrite_expert {c : Ctl} (hp : c ≠ .pwr) (hl : c ≠ .lnt) (i : Nat) (s : State) :
    ∀ r ∈ c.experts, s.afterWrite r i = s := by
  cases c with
  | pwr => exact absurd rfl hp
  | lnt => exact absurd rfl hl
  | _ =>
    simp only [Ctl.experts, List.forall_mem_cons, List.not_mem_nil, false_implies, implies_true, and_true]
    and_intros <;> rfl

/-- What an expert register's write sets going leaves EXPERT_HELD of its function as it is. -/
theorem State.afterWrite_held {c : Ctl} (i k : Nat) (s : State) :
    ∀ r ∈ c.experts, (s.afterWrite r k).flag c.held (c.inst i) = s.flag c.held (c.inst i) := by
  by_cases hp : c = .pwr
  · subst hp
    have hv : Kept s (s.vfCheck.lkView) (F.BC_PWR_PWR_HELD.off 0) :=
      (s.vfCheck_kept (by decide)).trans (State.lkView_kept _ (by decide))
    have hc : Kept s s.lkView (F.BC_PWR_PWR_HELD.off 0) := s.lkView_kept (by decide)
    simp only [Ctl.experts, List.forall_mem_cons, List.not_mem_nil, false_implies, implies_true, and_true]
    exact ⟨rfl, hv.flag_eq, hc.flag_eq⟩
  · by_cases hl : c = .lnt
    · subst hl
      have hm : Kept s (s.afterWrite .LNT_MASK k) (F.LNT_LVL_LNT_HELD.off i) :=
        s.wr_kept _ (by simp only [Fld.off, F.LNT_LVL_LNT_HELD, RegId.addr, RegId.loc]; omega)
      simp only [Ctl.experts, List.forall_mem_cons, List.not_mem_nil, false_implies, implies_true, and_true]
      exact hm.flag_eq
    · exact fun r hr => by rw [State.afterWrite_expert hp hl k s r hr]

theorem Ctl.inst_of_ne_pwr {c : Ctl} (h : c ≠ .pwr) (i : Nat) : c.inst i = i := by
  cases c with
  | pwr => exact absurd rfl h
  | _ => rfl

/-- Where the expert registers lie: beside their function's held bit, unit by unit, at another base; above the power
profile's one held bit. -/
theorem Ctl.expert_places : ∀ c ∈ Ctl.all, ∀ r ∈ c.experts, if c = .pwr then c.held.reg.loc.base < r.loc.base
    else r.loc.n1 = 1 ∧ r.loc.base ≠ c.held.reg.loc.base ∧ r.loc.s0 = c.held.reg.loc.s0 := by decide

/-- No expert register holds EXPERT_HELD of its own function. -/
theorem Ctl.expert_off_held (c : Ctl) {r : RegId} {i j : Nat} (hr : r ∈ c.experts) (hj : j < r.loc.n1) :
    c.held.off (c.inst i) ≠ r.addr i j := by
  have h := Ctl.expert_places c c.mem_all r hr
  unfold Fld.off RegId.addr
  split at h
  · next hp => subst hp; simp only [Ctl.inst]; omega
  · next hp =>
    obtain ⟨h1, hb, hs⟩ := h
    obtain rfl : j = 0 := by omega
    rw [Ctl.inst_of_ne_pwr hp, hs]
    omega

/-- The expert fields of every function but the power profile and those of access S are RW fields that lie apart. -/
theorem Ctl.expert_fields : ∀ c ∈ Ctl.all, c ≠ .pwr → c.guarded = false → ∀ r ∈ c.experts,
    FieldsApart r.fields ∧ ∀ fd ∈ r.fields, fd.acc = .rw := by decide

/-- A field of access RW takes the bits written, whichever world writes. -/
theorem FieldWritten.of_rw {a : Acc} {sec : Bool} {l h old v new : Nat} (ha : a = .rw) (hf : FieldWritten a sec l h old v new)
    (sec' : Bool) : FieldWritten a sec' l h old v new := by
  subst ha
  exact hf

variable {u : State} {src : Src} {off : Nat} {r : RegId} {i j : Nat} {c : Ctl} {v : Word}

theorem execExpertRegisterWrite_of_reaches {s : State} (hat : regAt (devOffset src off) = some (r, i, j))
    (hc : ctlOfExpert r = some c) (hr : Reaches s src r i u) :
    exec (.expertRegisterWrite src off v) s = .next (u.expertWrite src c r i j v) := by
  change execExpertRegisterWrite src off v s = _
  simp only [execExpertRegisterWrite, hat, hc, State.reach_of_reaches hr]

theorem execExpertHeldClear_of_reaches {s : State} {b : Fin 32} (hat : regAt (devOffset src off) = some (r, i, j))
    (hc : ctlOfHeld r b.val = some c) (hr : Reaches s src r i u) :
    exec (.expertHeldClear src off b) s = .next (u.heldOne src c i) := by
  change execExpertHeldClear src off b s = _
  simp only [execExpertHeldClear, hat, hc, State.reach_of_reaches hr]

/-- A write on the host's behalf changes the register and sets EXPERT_HELD. -/
theorem State.expertWrite_onHost (hg : c.guarded = false) (ho : srcOnHost src = true) :
    u.expertWrite src c r i j v = ((u.codeWrite src r i j v).afterWrite r i).setHeld c (c.inst i) := by
  simp [State.expertWrite, hg, ho]

/-- Firmware's own write changes the register while EXPERT_HELD is clear. -/
theorem State.expertWrite_own (hg : c.guarded = false) (ho : srcOnHost src = false) (hh : u.flag c.held (c.inst i) = false) :
    u.expertWrite src c r i j v = (u.codeWrite src r i j v).afterWrite r i := by
  simp [State.expertWrite, hg, ho, hh]

/-- R12: firmware's own write changes nothing while EXPERT_HELD is set. -/
theorem State.expertWrite_own_held (ho : srcOnHost src = false) (hh : u.flag c.held (c.inst i) = true) :
    u.expertWrite src c r i j v = u := by
  simp [State.expertWrite, ho, hh]

theorem srcWorld_of_own (ho : srcOnHost src = false) : srcWorld src = .s := by
  cases src with
  | fn f => cases ho
  | fw p b => rfl

theorem State.setHeld_flag (t : State) (c : Ctl) (i : Nat) : (t.setHeld c i).flag c.held i = true := t.flag_put_held c i 1

/-- The part of an expert register's write that its access codes make: every field takes the bits written. -/
theorem State.codeWrite_expert (u : State) (src : Src) (v : Word) (hg : c.guarded = false) (hp : c ≠ .pwr) (hl : c ≠ .lnt)
    (hr : r ∈ c.experts) (sec : Bool) :
    (u.codeWrite src r i j v).afterWrite r i = u.plainWrite src r i j v ∧
    ∀ fd ∈ r.fields, FieldWritten fd.acc sec fd.lo fd.hi (u.rd r i j).toNat v.toNat
      ((u.plainWrite src r i j v).rd r i j).toNat := by
  obtain ⟨hfs, hrw⟩ := Ctl.expert_fields c c.mem_all hp hg r hr
  have hsec : ∀ fd ∈ r.fields, fd.acc ≠ .sec := fun fd hfd h => by rw [hrw fd hfd] at h; cases h
  have hwo : ∀ fd ∈ r.fields, fd.acc ≠ .wo := fun fd hfd h => by rw [hrw fd hfd] at h; cases h
  refine ⟨?_, fun fd hfd => (u.plainWrite_fields src i j v hfs hwo fd hfd).of_rw (hrw fd hfd) sec⟩
  rw [u.codeWrite_eq_plainWrite src r i j v (.inr hsec), State.afterWrite_expert hp hl i _ r hr]

/-- R11: a write on the host's behalf, field by field. -/
theorem State.expertWrite_onHost_fields (hg : c.guarded = false) (ho : srcOnHost src = true) (hr : r ∈ c.experts)
    (hj : j < r.loc.n1) (hp : c ≠ .pwr) (hl : c ≠ .lnt) :
    (∀ fd ∈ r.fields, FieldWritten fd.acc false fd.lo fd.hi (u.rd r i j).toNat v.toNat
      ((u.expertWrite src c r i j v).rd r i j).toNat) ∧
    RegsOnly u (u.expertWrite src c r i j v) [r.addr i j, c.held.off i] := by
  obtain ⟨hw, hf⟩ := u.codeWrite_expert (i := i) (j := j) src v hg hp hl hr false
  have hoff := c.expert_off_held (i := i) hr hj
  rw [State.expertWrite_onHost hg ho, hw]
  rw [Ctl.inst_of_ne_pwr hp] at hoff ⊢
  have hk : Kept (u.plainWrite src r i j v) ((u.plainWrite src r i j v).setHeld c i) (r.addr i j) :=
    State.put_kept _ c.held 1 hoff.symm
  refine ⟨by rw [hk.rd_eq]; exact hf, ((u.plainWrite_regsOnly ..).mono ?_).trans ((State.put_regsOnly ..).mono ?_)⟩
  · simp
  · simp

/-- R12: firmware's own write, while EXPERT_HELD is clear, leaves it clear. -/
theorem State.expertWrite_own_flag (hg : c.guarded = false) (ho : srcOnHost src = false) (hh : u.flag c.held (c.inst i) = false)
    (hr : r ∈ c.experts) (hj : j < r.loc.n1) : (u.expertWrite src c r i j v).flag c.held (c.inst i) = false := by
  have hk : Kept u (u.plainWrite src r i j v) (c.held.off (c.inst i)) := u.wr_kept _ (c.expert_off_held hr hj)
  rw [State.expertWrite_own hg ho hh, State.afterWrite_held i i _ r hr,
    u.codeWrite_eq_plainWrite src r i j v (.inl (srcWorld_of_own ho)), hk.flag_eq, hh]

/-! ## Clearing EXPERT_HELD -/

/-- R11: the held bit clears and the current setting's table is loaded. -/
theorem State.clearHeld_loads (u : State) (c : Ctl) (hi : i < c.basic.reg.loc.n0) :
    (u.clearHeld c i).flag c.held i = false ∧
    (∀ l ∈ c.loads i (c.acts (u.fld c.basic i)), (u.clearHeld c i).fld l.1 l.2.1 = l.2.2) ∧
    RegsOnly u (u.clearHeld c i) (c.held.off i :: (c.loads i (c.acts (u.fld c.basic i))).map (fun l => l.1.off l.2.1)) := by
  obtain ⟨hheld, hin, hout, hpair⟩ := c.loadable hi (u.fld_lt c.basic i 0)
  have hread : (u.put c.held 0 i).fld c.basic i = u.fld c.basic i :=
    u.fld_put_of_apart 0 c.held_inWord c.basic_inWord hheld
  unfold State.clearHeld State.reload
  rw [hread]
  refine ⟨?_, fun l hl => State.fld_putAll_of_mem _ hin hpair l hl, ?_⟩
  · rw [State.flag, State.fld_putAll_of_apart c.held_inWord _ fun l hl => ⟨(hin l hl).1, (hout l hl).2⟩]
    exact u.flag_put_held c i 0
  · refine ((u.put_regsOnly ..).mono ?_).trans ((State.putAll_regsOnly ..).mono (List.subset_cons_self _ _))
    simp

/-- What a reload sets going, expert register by expert register, leaves EXPERT_HELD as it is. -/
theorem State.foldl_afterWrite_held (c : Ctl) (i k : Nat) {rs : List RegId} (hrs : rs ⊆ c.experts) (t : State) :
    (rs.foldl (fun t r => t.afterWrite r k) t).flag c.held (c.inst i) = t.flag c.held (c.inst i) := by
  induction rs generalizing t with
  | nil => rfl
  | cons r rs ih =>
    rw [List.foldl_cons, ih (List.subset_of_cons_subset hrs), State.afterWrite_held i k t r (hrs List.mem_cons_self)]

theorem State.foldl_afterWrite_of_ne {c : Ctl} (hp : c ≠ .pwr) (hl : c ≠ .lnt) (k : Nat) {rs : List RegId}
    (hrs : rs ⊆ c.experts) (t : State) : rs.foldl (fun t r => t.afterWrite r k) t = t :=
  foldl_eq_start fun r hr => State.afterWrite_expert hp hl k t r (hrs hr)

theorem State.heldOne_unguarded (u : State) (hs : c.guarded = true → srcWorld src = .s) :
    u.heldOne src c i = if u.flag c.held i then c.experts.foldl (fun t r => t.afterWrite r i) (u.clearHeld c i) else u := by
  have hg : (c.guarded && srcWorld src == .n) = false := by
    cases hc : c.guarded with
    | false => rfl
    | true => rw [hs hc]; rfl
  simp [State.heldOne, hg]

/-- A unit's held bit is its own function's. -/
theorem Ctl.inst_of_lt (c : Ctl) (hi : i < c.basic.reg.loc.n0) : c.inst i = i := by
  by_cases hp : c = .pwr
  · subst hp
    exact (Nat.lt_one_iff.mp hi).symm
  · exact Ctl.inst_of_ne_pwr hp i

/-- Settles O5: an expert write is the write of its fields and of EXPERT_HELD, and clearing EXPERT_HELD loads the table of
the current setting. -/
theorem expertRegistersAreHeldAndReloaded : Obligations.ExpertRegistersAreHeldAndReloaded := by
  refine ⟨fun src off v r i j c s u hat hc hg hr => ?_, fun src off b r i j c s u hat hc hr hs => ?_⟩
  · have hx := mem_experts_of_ctlOfExpert hc
    have hj := (regAt_bounds hat).2
    rw [execExpertRegisterWrite_of_reaches hat hc hr]
    refine ⟨fun ho => ⟨_, rfl, ?_, fun hp hl => State.expertWrite_onHost_fields hg ho hx hj hp hl⟩,
      fun ho hh => ⟨_, rfl, State.expertWrite_own_flag hg ho hh hx hj, fun hp hl => ?_⟩,
      fun ho hh => by rw [State.expertWrite_own_held ho hh]⟩
    · rw [State.expertWrite_onHost hg ho]
      exact State.setHeld_flag _ _ _
    · obtain ⟨hw, hf⟩ := u.codeWrite_expert (i := i) (j := j) src v hg hp hl hx true
      rw [State.expertWrite_own hg ho hh, hw]
      exact ⟨hf, u.plainWrite_regsOnly src r i j v⟩
  · have hi : i < c.basic.reg.loc.n0 := by
      rw [← c.held_count, held_of_ctlOfHeld hc]
      exact (regAt_bounds hat).1
    obtain ⟨hclear, hload, honly⟩ := u.clearHeld_loads c hi
    rw [execExpertHeldClear_of_reaches hat hc hr, u.heldOne_unguarded hs]
    refine ⟨fun hh => ?_, fun hh => by rw [hh]; rfl⟩
    rw [if_pos hh]
    refine ⟨_, rfl, ?_, fun hp hl => ?_⟩
    · have hk := State.foldl_afterWrite_held c i i (List.Subset.refl _) (u.clearHeld c i)
      rw [c.inst_of_lt hi] at hk
      rw [hk, hclear]
    · rw [State.foldl_afterWrite_of_ne hp hl i (List.Subset.refl _)]
      exact ⟨hload, honly⟩

end Sys2Proof.Machine
end

section
/-! PROOF. The step and the state right after power-up. -/

namespace Sys2Proof.Machine

/-- Settles O57: it is the definition of the step, case by case of the queue. -/
theorem stepRunsTheFrontCommand : Obligations.StepRunsTheFrontCommand :=
  ⟨fun _ _ _ => rfl, fun _ => rfl⟩

/-- Nothing listed: every byte of memory reads 0 (R524). -/
theorem State.byte_reset (a : Nat) : State.reset.byte a = 0 := Tab.get_empty a 0

theorem State.proc_reset (p : Nat) : State.reset.proc p = {} := Tab.get_empty p _

/-- A field reads at reset what its register's Reset column gives its bits. -/
theorem State.fld_reset (f : Fld) (i j : Nat) : State.reset.fld f i j = bits (f.reg.resetWord i j).toNat f.hi f.lo := by
  rw [State.fld, State.rd_reset]

/-- No stream, section, wait or held gather names a unit at reset. -/
theorem State.reset_unitsInRange : State.reset.UnitsInRange :=
  ⟨nofun, nofun, nofun, nofun⟩

theorem State.reset_inv : State.reset.Inv := ⟨State.reset_unitsInRange, State.reset_wf⟩

/-- Settles O60: no register and no byte is listed at reset, so each reads its default. -/
theorem resetLeavesEveryRegisterAtItsColumn : Obligations.ResetLeavesEveryRegisterAtItsColumn := by
  refine ⟨State.rd_reset, State.byte_reset, State.reset_inv, rfl, rfl, rfl, rfl, rfl, rfl, rfl,
    fun p => ?_, fun k _ => ?_, rfl, ?_, ?_, ?_⟩
  · rw [State.proc_reset]
  · rw [State.fld_reset, show F.BC_CL_STATE.reg.resetWord k 0 = F.BC_CL_STATE.reg.resetWord 0 0 from rfl]; decide
  · rw [State.flag, State.fld_reset]; decide
  · rw [State.fld_reset]; decide
  · rw [State.fld_reset]; decide

end Sys2Proof.Machine
end

section
/-! PROOF. Searches, a drain's record, and numbers in memory: what is read after a store and which bytes it leaves. -/

namespace Sys2Proof.Machine

/-- The first element with a property is the one that `List.find?` finds. -/
theorem firstWhere_eq_find? {α : Type} (p : α → Bool) (xs : List α) : firstWhere p xs = xs.find? p := by
  induction xs with
  | nil => rfl
  | cons x xs ih => cases h : p x <;> simp [firstWhere, h, ih]

/-- A drain reads what was last set for it. -/
@[simp] theorem State.dr_setDr_same (s : State) (e : Nat) (x : DrainSt) : (s.setDr e x).dr e = x := Tab.get_set_same _ _ _ _

/-- Numbers are read from memory alone. -/
theorem State.load_of_mem_eq {s t : State} (h : t.mem = s.mem) (a w : Nat) : t.load a w = s.load a w := by
  simp only [State.load, State.bytes, State.byte, h]

/-- Bytes are read from memory alone. -/
theorem MemOutside.of_mem_eq {s t u : State} {a n : Nat} (h : MemOutside s t a n) (hm : u.mem = t.mem) : MemOutside s u a n :=
  fun x hx => (congrArg (fun m : Tab Byte => m.get x 0) hm).trans (h x hx)

theorem MemOutside.trans {s t u : State} {a n : Nat} (h : MemOutside s t a n) (k : MemOutside t u a n) : MemOutside s u a n :=
  fun x hx => (k x hx).trans (h x hx)

/-- A store changes no byte outside a range that holds the number's. -/
theorem State.store_memOutside (s : State) {a w v b n : Nat} (hl : b ≤ a) (hr : a + w ≤ b + n) :
    MemOutside s (s.store a w v) b n := by
  intro x hx
  refine s.byte_setBytes_outside ?_
  rw [leBytes_length]
  omega

/-- A number that fits in its width is read back as it was stored. -/
theorem State.load_store_of_lt (s : State) {a w v : Nat} (h : v < 256 ^ w) : (s.store a w v).load a w = v := by
  rw [s.load_store_same, Nat.mod_eq_of_lt h]

/-- The two's complement encoding of a byte is a byte. -/
theorem encInt_eight_lt (x : Int) : encInt 8 x < 256 ^ 1 := by
  unfold encInt
  omega

end Sys2Proof.Machine
end

section
/-! PROOF. A raw maximum arrives at its entry (R144). -/

namespace Sys2Proof.Machine

variable (s : State)

/-- In the step that the entry has open, it keeps the larger maximum. -/
theorem State.rawMax_of_open {a step : Nat} (tb code : Nat) (h : s.entOpenStep a = step) :
    s.rawMax tb a step code = s.store (a + 72) 4 (Nat.max (s.entOpen a) code) := if_pos h

/-- A later step than the last committed one opens the entry for itself. -/
theorem State.rawMax_of_later {tb a step : Nat} (code : Nat) (h : s.entOpenStep a ≠ step) (hl : s.laterThan tb step = true) :
    s.rawMax tb a step code = (s.store (a + 72) 4 code).store (a + 76) 4 step := by
  rw [State.rawMax, if_neg h, if_pos hl]

/-- A maximum that comes too late is only counted. -/
theorem State.rawMax_of_late {tb a step : Nat} (code : Nat) (h : s.entOpenStep a ≠ step) (hl : s.laterThan tb step = false) :
    s.rawMax tb a step code = s.store (tb + 8) 4 (Nat.min (s.load (tb + 8) 4 + 1) noStep) := by
  rw [State.rawMax, if_neg h, if_neg (by simp [hl])]

/-- A raw maximum changes memory alone. -/
theorem State.rawMax_mem_only (tb a step code : Nat) :
    s.rawMax tb a step code = { s with mem := (s.rawMax tb a step code).mem } := by
  unfold State.rawMax
  split
  · rfl
  · split <;> rfl

/-- The saturating count of late maxima fits in its four bytes. -/
theorem min_noStep_lt (k : Nat) : Nat.min k noStep < 256 ^ 4 :=
  Nat.lt_of_le_of_lt (Nat.min_le_right _ _) (by decide)

/-- The command takes the drain's oldest raw maximum to the slice. -/
theorem exec_rawMaxAtomic_cons {e : Fin 32} {r : RawMax} {rest : List RawMax} (h : (s.dr e).rawOut = r :: rest) :
    exec (.rawMaxAtomic e) s =
      .next ((s.setDr e { s.dr e with rawOut := rest }).rawMax (s.tblOf (engCore e)) r.addr r.step r.code) := by
  show execRawMaxAtomic e s = _
  rw [execRawMaxAtomic, h]

end Sys2Proof.Machine
end

section
/-! PROOF. The exponent of a tensor: derived from the history once for a step, and in use from then on (R146). -/

namespace Sys2Proof.Machine

variable (s : State)

/-- An exponent kept for a chain's tensor in a step. -/
abbrev TensorE.isFor (c : Chain) (step : Nat) (t : TensorE) : Bool := t.tensor == c.tensor && t.step == step

/-- The step that an engine's core is in. -/
abbrev State.engStep (s : State) (e : Nat) : Nat := (s.rd .CO_STEP (engCore e)).toNat

/-- A chain that has no exponent yet takes it from its drain: none is kept there for its tensor in this step, and one that is
found there in any state is the exponent in use. -/
theorem State.tensorExp_eq_none {s : State} {e : Nat} {c : Chain} (h : s.tensorExp e c = none) :
    firstWhere (TensorE.isFor c (s.engStep e)) (s.dr e).tensorE = none ∧
      ∀ (t : State) (y : TensorE), firstWhere (TensorE.isFor c (t.engStep e)) (t.dr e).tensorE = some y →
        t.tensorExp e c = some y.e := by
  unfold State.tensorExp at h ⊢
  cases hq : c.quant with
  | none => simp [hq] at h
  | some r =>
    simp only [hq] at h ⊢
    by_cases hc : stageCode r = 8
    · simp only [hc, ne_eq, not_true_eq_false, if_false] at h ⊢
      split at h
      · cases h
      · cases h
      · next h1 h2 =>
        split at h
        · cases h
        · next hn =>
          refine ⟨hn, fun t y hy => ?_⟩
          split
          · next z hz => cases hy.symm.trans hz; rfl
          · next hz => cases hy.symm.trans hz
    · simp [hc] at h

/-- Keeping an exponent changes the drains alone. -/
theorem State.keepExp_drains_only (e : Nat) (c : Chain) (x : Int) :
    s.keepExp e c x = { s with drains := (s.keepExp e c x).drains } := by
  unfold State.keepExp
  dsimp only
  split <;> rfl

@[simp] theorem State.keepExp_mem (e : Nat) (c : Chain) (x : Int) : (s.keepExp e c x).mem = s.mem := by
  rw [State.keepExp_drains_only]
@[simp] theorem State.keepExp_regs (e : Nat) (c : Chain) (x : Int) : (s.keepExp e c x).regs = s.regs := by
  rw [State.keepExp_drains_only]
@[simp] theorem State.keepExp_engines (e : Nat) (c : Chain) (x : Int) : (s.keepExp e c x).engines = s.engines := by
  rw [State.keepExp_drains_only]
@[simp] theorem State.keepExp_streams (e : Nat) (c : Chain) (x : Int) : (s.keepExp e c x).streams = s.streams := by
  rw [State.keepExp_drains_only]

/-- The exponent kept first for a tensor with a history is found in the drain. -/
theorem State.keepExp_found {e : Nat} {c : Chain} (x : Int) (hc : c.history.isNone = false)
    (hn : firstWhere (TensorE.isFor c (s.engStep e)) (s.dr e).tensorE = none) :
    firstWhere (TensorE.isFor c (s.engStep e)) ((s.keepExp e c x).dr e).tensorE = some ⟨c.tensor, s.engStep e, x⟩ := by
  rw [firstWhere_eq_find?] at hn ⊢
  have hnone : ∀ t ∈ (s.dr e).tensorE, TensorE.isFor c (s.engStep e) t = false := by
    simpa only [List.find?_eq_none, Bool.not_eq_true] using hn
  have hany : (s.dr e).tensorE.any (TensorE.isFor c (s.engStep e)) = false :=
    List.any_eq_false.mpr fun t ht => by simp [hnone t ht]
  have hfil : ((s.dr e).tensorE.filter (fun t => t.step == s.engStep e)).find? (TensorE.isFor c (s.engStep e)) = none :=
    List.find?_eq_none.mpr fun t ht => by simp only [hnone t (List.mem_filter.mp ht).1, Bool.false_eq_true, not_false_eq_true]
  unfold State.keepExp
  dsimp only
  rw [hc, hany, Bool.or_false, if_neg Bool.false_ne_true, s.dr_setDr_same, List.find?_append, hfil]
  simp [TensorE.isFor]

/-! ## The view of SC_WAIT -/

/-- The view writes its bit of CO_NUM_STAT alone. -/
theorem State.scView_kept {n off : Nat} (h : off ≠ F.CO_NUM_STAT_SC_WAIT.off n) : Kept s (s.scView n) off := s.put_kept _ _ h

/-- The view leaves the step that a core is in. -/
theorem State.scView_engStep (e : Nat) : (s.scView (engCore e)).engStep e = s.engStep e := by
  have h : RegId.CO_STEP.addr (engCore e) 0 ≠ F.CO_NUM_STAT_SC_WAIT.off (engCore e) := by
    simp only [Fld.off, RegId.addr, F.CO_NUM_STAT_SC_WAIT, RegId.loc]
    omega
  exact congrArg BitVec.toNat (s.scView_kept h).rd_eq

/-! ## The derivation -/

theorem State.derive_of_isZero {a step num : Nat} (fmt : Nat) (h : (s.histMax a step (numHist num)).isZero = true) :
    s.derive a step fmt num = (s.entInit a, false) := if_pos h

theorem State.derive_of_not_isZero {a step num : Nat} (fmt : Nat) (h : (s.histMax a step (numHist num)).isZero = false) :
    s.derive a step fmt num =
      (clampE (ceilLog2 (s.histMax a step (numHist num)) (fmaxOf fmt) + numMargin num), true) := by
  rw [State.derive, h]; rfl

/-- The exponent kept first for a tensor is in use for the rest of the step, whatever memory holds by then. -/
theorem State.tensorExp_keepExp {s u : State} {e ix : Nat} {c : Chain} (x : Int) (hh : c.history = some ix)
    (he : s.tensorExp e c = none) (hr : u.regs = s.regs) (hd : u.drains = s.drains) :
    ((u.keepExp e c x).scView (engCore e)).tensorExp e c = some x := by
  obtain ⟨hn, hin⟩ := State.tensorExp_eq_none he
  have hs : u.engStep e = s.engStep e := congrArg BitVec.toNat (kept_of_regs_eq hr _).rd_eq
  have hk : (u.keepExp e c x).engStep e = u.engStep e :=
    congrArg BitVec.toNat (kept_of_regs_eq (u.keepExp_regs e c x) _).rd_eq
  have hdr : u.dr e = s.dr e := congrArg (fun d : Tab DrainSt => d.get e {}) hd
  rw [← hs, ← hdr] at hn
  have hf := u.keepExp_found x (by rw [hh]; rfl) hn
  rw [← hk, ← (u.keepExp e c x).scView_engStep e] at hf
  exact hin _ _ hf

section
variable {s : State} {e : Fin 32} {p : Problem} {i ix : Nat} {c : Chain} (hr : s.coreRuns (engCore e) = true)
  (hm : s.meets e = some (p, i, c)) (hh : c.history = some ix) (he : s.tensorExp e c = none) (hv : p.vrows i ≠ 0)
include hr hm hh he hv

/-- Until the table has committed the step before, only the view follows. -/
theorem exec_scaleDerive_of_waits (hw : s.scaleWaits (s.tblOf (engCore e)) (s.engStep e) = true) :
    exec (.scaleDerive e) s = .next (s.scView (engCore e)) := by
  show execScaleDerive e s = _
  simp only [execScaleDerive, hm, hh, he, hr, hw, Bool.not_true, Bool.false_or, beq_iff_eq, if_neg hv, if_true]

/-- Otherwise the drain keeps what is derived, and E_LAST of the entry takes it where it comes from a maximum. -/
theorem exec_scaleDerive_of_derive {x : Int} {b : Bool} (hw : s.scaleWaits (s.tblOf (engCore e)) (s.engStep e) = false)
    (hx : s.derive (entAddr (s.tblOf (engCore e)) ix) (s.engStep e) c.ofmt (s.numX (engCore e)) = (x, b)) :
    exec (.scaleDerive e) s =
      .next (((bif b then s.store (entAddr (s.tblOf (engCore e)) ix + 82) 1 (encInt 8 x) else s).keepExp e c x).scView
        (engCore e)) := by
  show execScaleDerive e s = _
  simp only [execScaleDerive, hm, hh, he, hr, hw, hx, Bool.not_true, Bool.false_or, beq_iff_eq, if_neg hv,
    Bool.false_eq_true, if_false, cond_eq_ite]

end

/-- Settles O31: the derivation by whether the table waits and whether a maximum is held, the raw maximum by the step that
its entry has open and the last committed one. -/
theorem scalesAreDerivedFromHistoryAndMaximaKept : Obligations.ScalesAreDerivedFromHistoryAndMaximaKept := by
  intro e s n tb
  refine ⟨fun p i c ix hr hm hh he hv => ?_, fun r rest h => ?_⟩
  · intro step a m
    cases hw : s.scaleWaits tb step with
    | true => exact ⟨_, exec_scaleDerive_of_waits hr hm hh he hv hw, rfl, rfl, fun _ => rfl, nofun, nofun⟩
    | false =>
      cases hz : m.isZero with
      | true =>
        exact ⟨(s.keepExp e c (s.entInit a)).scView n,
          exec_scaleDerive_of_derive hr hm hh he hv hw (s.derive_of_isZero _ hz),
          s.keepExp_engines .., s.keepExp_streams .., nofun,
          fun _ _ => ⟨State.tensorExp_keepExp _ hh he rfl rfl, s.keepExp_mem ..⟩, nofun⟩
      | false =>
        let x := clampE (ceilLog2 m (fmaxOf c.ofmt) + numMargin (s.numX n))
        let u := s.store (a + 82) 1 (encInt 8 x)
        have hmem : ((u.keepExp e c x).scView n).mem = u.mem := u.keepExp_mem ..
        exact ⟨(u.keepExp e c x).scView n,
          exec_scaleDerive_of_derive hr hm hh he hv hw (s.derive_of_not_isZero _ hz),
          u.keepExp_engines .., u.keepExp_streams .., nofun, nofun,
          fun _ _ => ⟨State.tensorExp_keepExp _ hh he rfl rfl,
            (State.load_of_mem_eq hmem ..).trans (s.load_store_of_lt (encInt_eight_lt x)),
            (s.store_memOutside (Nat.le_refl _) (Nat.le_refl _)).of_mem_eq hmem⟩⟩
  · let u := s.setDr e { s.dr e with rawOut := rest }
    have honly := u.rawMax_mem_only tb r.addr r.step r.code
    refine ⟨u.rawMax tb r.addr r.step r.code, exec_rawMaxAtomic_cons s h, ?_, ?_, fun ho => ?_, fun ho hl => ?_,
      fun ho hl => ?_⟩
    · rw [honly]
      exact congrArg DrainSt.rawOut (s.dr_setDr_same e _)
    · rw [honly]
      rfl
    · rw [u.rawMax_of_open tb r.code ho]
      exact ⟨u.load_store_same .., u.store_memOutside (Nat.le_refl _) (Nat.le_refl _)⟩
    · rw [u.rawMax_of_later r.code ho hl]
      refine ⟨?_, State.load_store_same .., (u.store_memOutside (by omega) (by omega)).trans
        (State.store_memOutside _ (by omega) (by omega))⟩
      exact (State.load_store_apart _ (.inl (Nat.le_refl _))).trans (u.load_store_same ..)
    · rw [u.rawMax_of_late r.code ho hl]
      exact ⟨u.load_store_of_lt (min_noStep_lt _), u.store_memOutside (Nat.le_refl _) (Nat.le_refl _)⟩

end Sys2Proof.Machine
end
